-- ==== Sys2Proof/Word.lean ====
section
/-! DEFINITION. The word types of the model and their plainest arithmetic. -/

namespace Sys2Proof

/-- One byte of memory or of a frame. -/
abbrev Byte := BitVec 8
/-- A register word (R21) or a datapath word. -/
abbrev W32 := BitVec 32
/-- A 64-bit quantity: a period number (R16), a nanosecond count (R55), a step (R62). -/
abbrev W64 := BitVec 64
/-- The time counter: 64 bits of nanoseconds and 32 bits of fraction (R55). -/
abbrev Time := BitVec 96
/-- A symmetric key of 256 bits (R103, R467). -/
abbrev Key := BitVec 256

end Sys2Proof
end

