-- ==== Sys2Proof/Wire.lean ====
section
/-! DEFINITION. What crosses the block's boundary in a command: frames, records, descriptors and messages,
as typed records. Their byte and bit layouts are in Machine/Frames.lean. -/

namespace Sys2Proof

/-- What an authentication tag was computed with (R103): the key, the fields of the 96-bit IV, and
whether the tag bytes are the tag of the frame bytes as received (log entry 6, DESIGN CHOICE). -/
structure Mac where
  key : Key
  ivPn : W64
  ivKind : BitVec 8
  ivSeq : BitVec 8
  ivCell : BitVec 16
  ok : Bool
  deriving DecidableEq, Repr

/-- The 48-byte header of every downstream frame (R101). -/
structure Hdr where
  kind : BitVec 4 := 1
  ver : BitVec 4 := 1
  stepValid : Bool := false
  shadow : Bool := false
  yield : Bool := false
  rerange : Bool := false
  rrApply : Bool := false
  treeId : BitVec 16 := 0
  pn : W64 := 0
  timeNs : W64 := 0
  timeFrac : W32 := 0
  step : W64 := 0
  authEpoch : W32 := 0
  healthy : Bool := true
  mode : BitVec 4 := 0
  armBlocked : Bool := false
  clApply : Bool := false
  clAbandon : Bool := false
  clauseId : BitVec 12 := 0
  armAvg : BitVec 18 := 0
  seq : BitVec 8 := 0
  rrLeft : BitVec 16 := 0
  deriving DecidableEq, Repr

/-- A command record (R102): the code, the calibration slot, the duty and the edge offset. -/
structure CmdRec where
  cmd : BitVec 4
  cal : Bool
  duty : BitVec 16
  edge : BitVec 16
  deriving DecidableEq, Repr

/-- A management segment (R125). -/
structure Seg where
  slot : BitVec 7
  bcast : Bool
  kind : BitVec 4
  first : Bool
  last : Bool
  txn : BitVec 12
  segNo : BitVec 4
  payload : List Byte
  deriving DecidableEq, Repr

/-- A downstream frame (R100, R101). `aborted`: ended by an abort block (R99). -/
structure DownFrame where
  hdr : Hdr
  recs : List CmdRec := []
  seg : Option Seg := none
  aborted : Bool := false
  mac : Mac
  deriving DecidableEq, Repr

/-- The FAULT field of a Glint (R107, R348). -/
structure GFault where
  source : BitVec 6 := 0
  severity : BitVec 3 := 0
  class0 : Bool := false
  trip : Bool := false
  fresh : Bool := false
  count : BitVec 7 := 0
  deriving DecidableEq, Repr

/-- The STATUS field of a Glint (R107). -/
structure GStatus where
  state : BitVec 4 := 0
  owner : Bool := false
  holding : Bool := false
  fallback : Bool := false
  bypassed : Bool := false
  reportLate : Bool := false
  timeFrozen : Bool := false
  calActive : Bool := false
  holdPeriods : BitVec 4 := 0
  deriving DecidableEq, Repr

/-- The MGMT field of a report: one reply fragment (R128). Types 0 idle, 1 data, 2 last data, 3 error. -/
structure Frag where
  typ : BitVec 2 := 0
  num : BitVec 6 := 0
  data : BitVec 24 := 0
  deriving DecidableEq, Repr

/-- A Glint report (R107) with its tag. -/
structure Glint where
  kind : BitVec 4 := 1
  port : Bool := false
  slot : BitVec 7 := 0
  samplePn : BitVec 16 := 0
  cv : BitVec 18 := 0
  valid : Bool := false
  tag : BitVec 3 := 0
  status : GStatus := {}
  temp0 : BitVec 16 := 0
  temp1 : BitVec 16 := 0
  temp2 : BitVec 16 := 0
  digest : BitVec 64 := 0
  fault : GFault := {}
  mgmt : Frag := {}
  mac : Mac
  deriving DecidableEq, Repr

/-- A discovery reply (R448): the Glint of a cell that answers a discovery request. -/
structure DiscReply where
  round : BitVec 16
  serial : W64
  cv : BitVec 18 := 0
  valid : Bool := false
  state : BitVec 4 := 1
  otherValid : Bool := false
  otherKeyed : Bool := false
  otherIdx : BitVec 15 := 0
  lastEpoch : W32 := 0
  rev : BitVec 16 := 0
  mac : Mac
  deriving DecidableEq, Repr

/-- A key-exchange reply (R448, R466): the chunk number, the transaction it answers, and what the chunk shows: the
result and ANCHOR_NEW of chunk 3, whether the cell signature that ends in chunk 7 verifies, and whether the
confirmation of chunk 8 is right (log entry 6, DESIGN CHOICE). -/
structure KxReply where
  slot : BitVec 7
  chunk : BitVec 7
  txn : BitVec 12
  result : BitVec 8 := 0
  anchorNew : Bool := false
  sigOk : Bool := true
  confirmOk : Bool := true
  mac : Mac
  deriving DecidableEq, Repr

/-- One entry of a cell parameter set (R510): a register or a die-table word, under a mask. -/
structure SetEntry where
  die : Bool
  pos : BitVec 8
  addr : BitVec 16
  mask : W32
  value : W32
  deriving DecidableEq, Repr

/-- One item of a Clause (R423). -/
inductive Item where
  | regWrite (off : Nat) (mask value : W32)
  | param (region addr : Nat) (body : List Byte)
  | cellSet (cell : Nat) (entries : List SetEntry) (cEst : Option W32)
  | armSet (region arm : Nat) (entries : List SetEntry) (cEst : Option W32)
  | imageSelect (image : Nat)
  | loopCmd (region loop action : Nat)
  | armEnable (region arm : Nat)
  deriving DecidableEq, Repr

/-- The LEASE frame of the Mirror link (R373, R377). -/
structure Lease where
  pn : W64
  authEpoch : W32
  mode : BitVec 4
  healthy : Bool
  yield : Bool
  txTs : W64
  h : W64
  acceptCnt : W32
  holdCnt : W32
  echoTs : W64
  deriving DecidableEq, Repr

/-- A Mirror frame other than LEASE and STATE, or the common part of one (R373). -/
structure MirrHdr where
  pn : W64
  authEpoch : W32
  mode : BitVec 4
  healthy : Bool
  yield : Bool
  txTs : W64
  mac : Mac
  deriving DecidableEq, Repr

/-- The OFFER of a Mirror key exchange (R470), its public keys and signatures by what they show:
the owner key's hash, whether the endorsement and the signature verify, and the key agreed with it. -/
structure MirrOffer where
  serial : W64
  ownerHash : BitVec 384
  endorsed : Bool
  signed : Bool
  agreed : Key
  deriving DecidableEq, Repr

/-- The arm part of a copy set (R374). -/
structure ArmCopy where
  nInt : BitVec 13
  duty : BitVec 16
  neg : Bool
  dirPrev : Bool
  pwmIdx : BitVec 16
  deriving DecidableEq, Repr

/-- One region's part of a STATE frame set: a run of map entries, arm blocks or mirrored words (R374). -/
structure StateSeg where
  region : Nat
  seg : Nat
  last : Bool
  map : List (BitVec 4)
  arms : List ArmCopy
  words : List W32
  deriving DecidableEq, Repr

/-- The address modes of R164; 0b11 is reserved. -/
inductive AMode where
  | plain | post | circ
  deriving DecidableEq, Repr

/-- One operand through an address mode: pointer, offset, mode and circular pair (R172). -/
structure Addr where
  p : BitVec 3
  o : BitVec 3
  am : AMode
  c : BitVec 2
  deriving DecidableEq, Repr

/-- Where an input operand of a Verb comes from: an output of another Verb of the activation, or a constant of the image. -/
inductive Src1 where
  | verb (v out : Nat)
  | const (w : W32)
  deriving DecidableEq, Repr

/-- A Verb of a Phrase image (R133, R135, R140): its opcode, declared cost, place in a Sentence, inputs, program, the
parameters its operation names, whether it is marked portable (R144), and its law slot in a wrapper (R214): 0 A, 1 B. -/
structure VerbDecl where
  opc : Nat
  cost : Nat
  sentence : Option (Nat × Nat) := none
  inputs : List Src1 := []
  params : List Nat := []
  prog : List W32 := []
  portable : Bool := false
  slot : Option Nat := none
  deriving DecidableEq, Repr

/-- An SRAM window of a Phrase (R175). -/
structure Win where
  base : Nat
  len : Nat
  write : Bool
  deriving DecidableEq, Repr

/-- The address context of a Phrase (R161, R162). -/
structure Ctx where
  p : List (BitVec 23) := []
  ofs : List (BitVec 24) := []
  cb : List (BitVec 23) := []
  cl : List (BitVec 17) := []
  persist : List Nat := []
  deriving DecidableEq, Repr

/-- What triggers a Phrase (R133). `sample a` with a below 4 is the sample entry of local arm a, `sample (8 + c)` that of converter c's share (R189). -/
inductive Trig where
  | sample (arm : Nat)
  | glint
  | sv (sub : Nat)
  | goose (sub : Nat)
  | timer (every ofs : Nat)
  | doorbell
  | completion (phrase : Nat)
  deriving DecidableEq, Repr

/-- A Phrase of an image (R133). `control`: a library arm or converter Phrase (R191, R200); `loops`: the loops it holds; `wrapWords`: the
address of its handover wrapper's words, `wrapSlots`: preset word, gain and loop of slots A and B (R214, log entry 27, DESIGN CHOICE); `tele`: the SRAM
addresses of its six telemetry words (R420). -/
structure Phrase where
  num : Nat
  region : Nat
  cls : Nat
  level : Nat
  home : Nat
  trig : Trig
  width : Nat := 1
  maxAct : Nat := 1
  deadline : Option Nat := none
  arm : Option Nat := none
  verbs : List VerbDecl := []
  windows : List Win := []
  ctx : Ctx := {}
  control : Bool := false
  loops : List Nat := []
  wrapSlots : List Nat := []
  wrapWords : Option Nat := none
  tele : List Nat := []
  deriving DecidableEq, Repr

/-- What every command descriptor of a ring carries (R416): its ring, TAG, and the FENCE and NOTIFY flags. -/
structure HostCmd where
  ring : Nat
  tag : Nat
  fence : Bool
  notify : Bool
  deriving DecidableEq, Repr

/-- A descriptor that no other row takes (R416): NOP, or one with an opcode that R416 does not list. -/
structure NopCmd where
  cmd : HostCmd
  op : Nat
  deriving DecidableEq, Repr

/-- What STN_TX has become of the egress timestamp (R81, R416): it is written into a one-step message, or returned in the completion. -/
structure TxStamp where
  oneStep : Bool
  ret : Bool
  deriving DecidableEq, Repr

/-- A measurement frame (R187): HDR, the four codes, STATUS and the CRC as received. -/
structure MeasFrame where
  hdr : BitVec 8
  codes : List (BitVec 24)
  status : BitVec 8
  crc : BitVec 16
  deriving DecidableEq, Repr

/-- One ASDU of a sampled-value frame (R202): smpCnt, smpSynch, and the value and quality of each 8-byte unit of seqData. -/
structure SvAsdu where
  cnt : BitVec 16
  synch : BitVec 8
  units : List (W32 × W32)
  deriving DecidableEq, Repr

/-- A sampled-value frame (R202) at its ingress timestamp. -/
structure SvFrame where
  mac : BitVec 48
  appid : BitVec 16
  svid : List Byte
  asdus : List SvAsdu
  ingress : Time
  deriving DecidableEq, Repr

/-- A GOOSE message (R206) at its ingress timestamp; timeAllowedtoLive in ms. -/
structure GooseMsg where
  mac : BitVec 48
  appid : BitVec 16
  gocbRef : List Byte
  datSet : List Byte
  confRev : W32
  stNum : W32
  tal : W32
  members : List W32
  ingress : Time
  deriving DecidableEq, Repr

/-- A word of Phrase state that the copy set mirrors (R374): one of region memory, or a persistent pointer of a Phrase. -/
inductive MirrWord where
  | word (addr : Nat)
  | pointer (phrase i : Nat)
  deriving DecidableEq, Repr

/-- A Phrase image as IMAGE_LOAD reads it (R133, R463, R464): its Phrases, the mirrored words of each region (R374),
the channel map of each converter share (R189, log entry 29, DESIGN CHOICE),
its security version, whether its signature verifies under the owner key, and its endorsement table. -/
structure Image where
  phrases : List Phrase := []
  mirrored : List (Nat × MirrWord) := []
  convMeas : List (Nat × Nat × List Nat) := []
  svn : W64 := 0
  signed : Bool := true
  endorse : List (W64 × Bool) := []
  deriving DecidableEq, Repr

/-- The mirrored words of a region, in image order (R374). -/
def Image.mirroredOf (i : Image) (r : Nat) : List MirrWord := (i.mirrored.filter fun p => p.1 == r).map Prod.snd

/-- One die entry of a CFG_WRITE or CFG_ECHO frame (R282). -/
structure CfgEntry where
  on : BitVec 8 := 0
  off : BitVec 8 := 0
  vg : BitVec 8 := 0
  iso : Bool := false
  deriving DecidableEq, Repr

/-- The identity of a gate matrix, the payload of its IDENT frames (R286). -/
structure Ident where
  gmc : BitVec 8 := 0
  dies : BitVec 8 := 0
  dtMin : BitVec 16 := 0
  tPd : BitVec 16 := 0
  vendor : BitVec 16 := 0
  serial : W64 := 0
  iEdge : BitVec 16 := 0
  deriving DecidableEq, Repr

/-- A sense record of one die (R293). -/
structure SenseRec where
  t : BitVec 12 := 0
  s : BitVec 12 := 0
  valid : Bool := false
  gateFlt : Bool := false
  desat : Bool := false
  iso : Bool := false
  deriving DecidableEq, Repr

end Sys2Proof
end

