-- ==== Sys2Proof/Syntax.lean ====
section
/-! DEFINITION. The commands of the block: one constructor per row of spec/opcode_table.json. Regions are 0 to 7,
trees 0 to 31 and slots 0 to 127 of a region; `c` is a global cell index (R45); `q` is quarter nanoseconds after the counter (R77). -/

namespace Sys2Proof

/-- One command. -/
inductive Instr where
  /-- REGISTER_WRITE (R19). A write to a Basath or Elsum register that has no row of its own sets its RW fields, clears W1C bits or counters and is discarded for RO, RWC and RSV bits. `part`: an Elsum, or none for the unit, here and in REGISTER_LOW_WORD_READ. -/
  | registerWrite (part : Option Nat) (a : Nat) (v : W32)
  /-- REGISTER_LOW_WORD_READ (R484). A read of the lowest word of a multi-word register captures every word, and later reads of its other words return the captured values. -/
  | registerLowWordRead (part : Option Nat) (a : Nat)
  /-- TIME_NS_READ (R58). A read of the low word of TIME_NS captures all 96 bits of the time counter for the following reads of the high word and TIME_FRAC. -/
  | timeNsRead
  /-- TIME_INCR_WRITE (R60). A write of the high word of TIME_INCR sets the counter rate from the next REFCLK edge, or is refused and sets INCR_REFUSED if the value is outside ±500 ppm. -/
  | timeIncrWrite (hi : W32)
  /-- TIME_STEP_WRITE (R62). A write of the high word of TIME_STEP arms a step of the time counter, which applies at the next REFCLK edge in M0–M4 or waits for a carrying Beacon in M5–M11. -/
  | timeStepWrite (hi : W32)
  /-- REFCLK_LOSS (R59). REFCLK absent for more than 1 µs stops the counter, raises REFCLK_LOSS and sets TIME_STAT.DISCONT. -/
  | refclkLoss
  /-- REFCLK_RETURN (R59). On the return of REFCLK the time counter resumes from the value it held. -/
  | refclkReturn
  /-- EPOCH (R67). The counter reaches the next epoch on the grid, PN advances by 1, and the period's scheduled actions start. -/
  | epoch
  /-- PERIOD_BEACON_LAUNCH (R110). At epoch minus BEACON_LEAD every tree port launches the period Beacon for the next period, with its command records, management segment and tag, and the unit sends its LEASE frame. -/
  | periodBeaconLaunch
  /-- ENUMERATION_BEACON_LAUNCH (R445). A tree in enumeration launches an enumeration Beacon each period, and a request Beacon carrying one management segment of kind 6, 7 or 8 every STRIDE periods. -/
  | enumerationBeaconLaunch (r t : Nat)
  /-- GLIMMER_BEACON_LAUNCH (R69). In M4 each tree port launches a Glimmer Beacon on every whole millisecond of the counter. -/
  | glimmerBeaconLaunch
  /-- BLOCK_BEACON_LAUNCH (R27). A block decision reaching a tree port launches a block Beacon as soon as the lane allows, ahead of any period Beacon. -/
  | blockBeaconLaunch (r t : Nat)
  /-- MANAGEMENT_FRAME_LAUNCH (R127). A tree port sends a pending management segment in a management frame in a downstream gap, if the frame ends before the period Beacon's launch. -/
  | managementFrameLaunch (r t : Nat)
  /-- PPS_OUT_PULSE (R90). PPS_OUT rises when the counter passes a whole second plus OFFSET. -/
  | ppsOutPulse
  /-- PPS_OUT_PULSE_END (R90). PPS_OUT falls when the pulse has lasted PPS_OUT_CFG.WIDTH. -/
  | ppsOutPulseEnd
  /-- PPS_IN_EDGE (R91). A rising edge on PPS_IN is timestamped into PPS_IN_TS and posted to the event ring. -/
  | ppsInEdge (q : Nat)
  /-- PPS_LOST (R91). No PPS_IN edge within 1,100 ms of the previous one sets TIME_STAT.PPS_LOST and raises PPS_LOST. -/
  | ppsLost
  /-- TIME_EVT_INPUT_EDGE (R92). A rising edge on TIME_EVT0 or TIME_EVT1 is timestamped and posted, or counted in TEVT_LOST if closer than 1 µs to the previous edge. `n`: 0 or 1. -/
  | timeEvtInputEdge (n q : Nat)
  /-- TEVT_OUT_TIME_WRITE (R92). A write of the high word of TEVT_OUT_TIME2 or TEVT_OUT_TIME3 arms an output pulse, or sets TEVT_LATE if the time has passed. `n`: 2 or 3. -/
  | tevtOutTimeWrite (n : Nat) (hi : W32)
  /-- TEVT_OUT_PULSE (R92). TIME_EVT2 or TIME_EVT3 produces a pulse of TEVT_OUT_CFG.WIDTH at its armed counter value. `n`: 2 or 3. -/
  | tevtOutPulse (n : Nat)
  /-- PERIOD_BEACON_ACCEPT (R104). An Elsum receives a period Beacon, checks tag, TREE_ID and PN, makes its records pending and disciplines its time from it. `p`: 0 port A, 1 port B; `q`: to byte 0; `v`: from the last byte to the verified tag, 240 at most. -/
  | periodBeaconAccept (c p q v : Nat) (f : DownFrame)
  /-- BLOCK_BEACON_ACCEPT (R105). An Elsum accepting a block Beacon turns every position off within 150 ns and voids its pending records. -/
  | blockBeaconAccept (c p q v : Nat) (f : DownFrame)
  /-- ENUMERATION_BEACON_ACCEPT (R445). An Elsum accepts an enumeration Beacon under the enumeration key and handles its management segment. -/
  | enumerationBeaconAccept (c p q v : Nat) (f : DownFrame)
  /-- GLIMMER_BEACON_ACCEPT (R408). An Elsum in Glimmer accepts a Glimmer Beacon, disciplines its time, keeps its owner and sends alert markers if it has woken. -/
  | glimmerBeaconAccept (c p q v : Nat) (f : DownFrame)
  /-- MANAGEMENT_FRAME_ACCEPT (R104). An Elsum accepts a management frame by its tag and (PN, SEQ) and takes its segment. -/
  | managementFrameAccept (c p q v : Nat) (f : DownFrame)
  /-- GLINT_LAUNCH (R89). An Elsum launches its Glint on both ports at slot start minus EQ, with VALID = 0 and REPORT_LATE if the report was not ready. `late`: the report was not complete 100 ns before its instant. -/
  | glintLaunch (c : Nat) (late : Bool)
  /-- ALERT_MARKER_LAUNCH (R114). An Elsum with a pending class-0 fault launches an alert marker on both ports at window start plus 18 ns minus EQ. Window `m` of this period, or of the next one. -/
  | alertMarkerLaunch (c m : Nat) (next : Bool)
  /-- GLINT_RECEIVE (R118). A tree port receives a Glint burst, checks window and tag, computes its arrival offset and passes the report to the rank keeper, fault logic and management. -/
  | glintReceive (r t q : Nat) (g : Glint)
  /-- ALERT_DECLARE (R115). After an alert window closes the tree port declares an alert if it saw enough light, and raises ALERT with the window-start timestamp. `m`: the window; `light`: quarter nanoseconds of light in it that belong to no verified burst. -/
  | alertDeclare (r t m light : Nat)
  /-- GLINT_MISS (R131). A slot without an accepted Glint for MISS_N consecutive reporting periods raises GLINT_MISS, and the rank keeper predicts the cell. -/
  | glintMiss (r t j : Nat)
  /-- TREE_LOST (R130). No accepted Glint from any slot for LOST_N periods puts the tree into LOST and raises TREE_LOST. -/
  | treeLost (r t : Nat)
  /-- TREE_TX_FAULT (R130). A transmit PLL unlock or module transmit fault puts the tree port into FAILED, turns its lane off and raises TREE_TX_FAIL. -/
  | treeTxFault (r t : Nat)
  /-- TREE_CMD_RESET (R130). A write of TREE_CMD.RESET returns a FAILED tree port to IDLE. -/
  | treeCmdReset (r t : Nat)
  /-- TREE_CMD_RECOVER (R455). A write of TREE_CMD.RECOVER on a LOST tree, where permitted, starts a re-enumeration of that tree alone. -/
  | treeCmdRecover (r t : Nat)
  /-- MGMT_TIMEOUT (R128). An ending fragment not received TMO periods after the LAST segment makes the port resend the transaction or, after RETRY resends, fail it with MGMT_FAIL. -/
  | mgmtTimeout (r t j : Nat)
  /-- MGMT_REGISTER_ACCESS (R508). An Elsum executes a register-access transaction of up to 10 reads and masked writes when its LAST segment verifies. -/
  | mgmtRegisterAccess (c p : Nat)
  /-- MGMT_MEMORY_WRITE (R509). An Elsum executes a memory-write transaction into the patch window, and refuses other addresses. -/
  | mgmtMemoryWrite (c p : Nat)
  /-- MGMT_MEMORY_READ (R509). An Elsum returns up to 1,024 bytes of cell memory, or fails with ADDRESS outside the listed regions. -/
  | mgmtMemoryRead (c p : Nat)
  /-- MGMT_PARAMETER_SET (R510). An Elsum checks a received parameter set against every refusal rule and stages it under its Clause identifier, or refuses it whole. -/
  | mgmtParameterSet (c p : Nat)
  /-- MGMT_CRC_QUERY (R510). An Elsum replies with the CRC-32 of the set held under the queried Clause identifier, or with NO_SET. -/
  | mgmtCrcQuery (c p : Nat)
  /-- RANGING_REQUEST (R116). An Elsum timestamps the Beacon carrying a ranging request and returns TURN in its next Glint, or a ranging Glint in M5. -/
  | rangingRequest (c p : Nat)
  /-- RERANGE_HOLD_MESSAGE (R121). A re-range hold message freezes the cell's time loop and reverses its recent phase corrections. -/
  | rerangeHoldMessage (c p : Nat)
  /-- RERANGE_RESULT_MESSAGE (R119). A re-range result message gives the cell new DS_DELAY and EQ to apply at a named epoch. -/
  | rerangeResultMessage (c p : Nat)
  /-- DISC_REQ (R447). A cell without a slot on the port answers the discovery request whose index matches its hash, or on FLUSH discards that port's slot, delays and key. -/
  | discReq (c p : Nat)
  /-- ASSIGN (R450). A cell takes a slot assignment, or refuses it with CABLE or MISMATCH and parks itself. -/
  | assign (c p : Nat)
  /-- PARK (R446). A parked cell stays silent on that port until the next FLUSH. -/
  | park (c p : Nat)
  /-- OFFER (R466). A cell receives the parts of a key-exchange OFFER and checks anchor, endorsement and Basath signature. What the offer shows: the owner key's hash, the endorsement, the signature, the identity it names. -/
  | kxOffer (c p : Nat) (hash : BitVec 384) (endorsed signed same : Bool)
  /-- POLL (R467). A cell answers a key-exchange POLL with the requested chunk, or with chunk 0x7E if it is not ready. -/
  | kxPoll (c p : Nat) (ready : Bool)
  /-- DONE (R467). A cell unwraps the tree key from the DONE segment, returns its confirmation and writes a new anchor if needed. The wrapped K_T, whether it unwraps, whether Basath's confirmation is right. -/
  | kxDone (c p : Nat) (key : Key) (opens confirmed : Bool)
  /-- TRIGGER_POST (R134). A triggering entry posted to the dispatcher starts an activation of a Phrase, or is dropped or held by its class rules. region, trigger, entry words, whether the host enables the control Phrases in M11 -/
  | triggerPost (r : Nat) (t : Trig) (entry : List W32) (test : Bool)
  /-- TAKE (R138). An engine that finished a Verb blocks until the dispatcher grants it the first Verb in its search order. region, engine -/
  | take (r e : Nat)
  /-- STEAL (R143). An engine blocked for STEAL_DELAY takes the head of a level 1–7 list of another cluster of its region. region, engine -/
  | steal (r e : Nat)
  /-- CROSS_REGION_STEAL (R144). An engine blocked for XSTEAL_DELAY takes a portable level 4–7 Verb of another region die. region, engine -/
  | crossRegionSteal (r e : Nat)
  /-- VERB_COMPLETE (R140). An engine signals completion of a Verb, and its results are released in Sentence order. region, engine, quarter nanoseconds to the completion -/
  | verbComplete (r e q : Nat)
  /-- STEAL_LOST (R145). No result from a cross-region thief within 2 µs makes the Verb ready again at its home and raises STEAL_LOST. home region -/
  | stealLost (h : Nat)
  /-- CLASS1_DEADLINE (R150). At the class-1 deadline the dispatcher ends unreleased activations, the rank keeper freezes its snapshot, and STATE frames start. region; the Phrase whose own declared deadline this is -/
  | class1Deadline (r : Nat) (phrase : Option Nat)
  /-- SNAPSHOT_COMPLETE (R239). The snapshot is complete in its buffer, with orders, observer table and calibration choices, within 1,000 ns of the freeze. region -/
  | snapshotComplete (r : Nat)
  /-- GAUGE_MEASURE (R151). Once per period the dispatcher measures each cluster's speed gauge and writes DISP_GAUGE.RATIO, raising CORE_SLOW on two low periods. region, speed of each cluster, completed calibration Verbs -/
  | gaugeMeasure (r : Nat) (speeds : List Nat) (cal : List (Nat × Nat × Nat))
  /-- DISP_SLACK_READ (R152). A read of DISP_SLACK.MIN returns the smallest slack since the last read and resets the field to +32,767. region -/
  | dispSlackRead (r : Nat)
  /-- FETCH (R135). The FETCH Verb copies up to 8 words of a ready entry into operands. region, engine -/
  | verbFetch (r e : Nat)
  /-- MAC (R168). The MAC Verb sums n products in an accumulator and extracts the result at s = 30. region, engine -/
  | verbMac (r e : Nat)
  /-- BIQ (R196). The BIQ Verb computes one second-order section in transposed direct form II. region, engine -/
  | verbBiq (r e : Nat)
  /-- INT (R199). The INT Verb integrates with clamp and anti-windup against LIM_DIR. region, engine -/
  | verbInt (r e : Nat)
  /-- LIM (R199). The LIM Verb applies rate and magnitude limits and writes LIM_DIR into the arm's loop blocks. region, engine -/
  | verbLim (r e : Nat)
  /-- VEC (R135). The VEC Verb applies an element-wise operation to up to 16 words. region, engine -/
  | verbVec (r e : Nat)
  /-- CMP (R135). The CMP Verb compares two operands and yields a condition. region, engine -/
  | verbCmp (r e : Nat)
  /-- CHOOSE (R135). The CHOOSE Verb selects one of two operands by a condition. region, engine -/
  | verbChoose (r e : Nat)
  /-- NLEVEL (R218). The NLEVEL Verb turns the arm reference into an insertion count, duty and polarity. region, engine -/
  | verbNlevel (r e : Nat)
  /-- RANKQ (R192). The RANKQ Verb reads N_AV, V_SUM, W_ARM and N_CFG from the frozen snapshot. region, engine -/
  | verbRankq (r e : Nat)
  /-- SELECT (R245). The SELECT Verb writes the command records and edge offsets of up to 64 cells from the snapshot. region, engine -/
  | verbSelect (r e : Nat)
  /-- SVRD (R204). The SVRD Verb reads one sampled-value ASDU of depth 0 or 1 into operands. region, engine -/
  | verbSvrd (r e : Nat)
  /-- GOOSE_PUT (R207). The GOOSE_PUT Verb updates one member of a published GOOSE dataset. region, engine -/
  | verbGoosePut (r e : Nat)
  /-- BLOCK_REQ (R158). The BLOCK_REQ Verb, with a true condition, raises PHRASE_BLOCK for its named arm or converter at completion. region, engine -/
  | verbBlockReq (r e : Nat)
  /-- PROG (R179). The PROG Verb runs a datapath program of up to 64 instructions within its declared cost. region, engine -/
  | verbProg (r e : Nat)
  /-- NOP (R165). The NOP instruction does nothing. -/
  | dpNop (r e : Nat)
  /-- MOV (R165). The MOV instruction copies S to D. -/
  | dpMov (r e : Nat) (d a : BitVec 4)
  /-- LDI (R165). The LDI instruction loads a sign-extended 18-bit immediate. -/
  | dpLdi (r e : Nat) (d : BitVec 4) (imm : BitVec 18)
  /-- LDIH (R165). The LDIH instruction loads the upper 14 bits of D from the immediate. -/
  | dpLdih (r e : Nat) (d : BitVec 4) (imm : BitVec 14)
  /-- LD (R172). The LD instruction loads a word from region SRAM through its address mode. -/
  | dpLd (r e : Nat) (d : BitVec 4) (x : Addr) (disp : BitVec 8)
  /-- ST (R177). The ST instruction holds a store as a result, written to SRAM at release. -/
  | dpSt (r e : Nat) (a : BitVec 4) (x : Addr) (disp : BitVec 8)
  /-- ADD (R170). The ADD instruction adds modulo 2^32 and sets V on signed wrap. -/
  | dpAdd (r e : Nat) (d a b : BitVec 4)
  /-- SUB (R170). The SUB instruction subtracts modulo 2^32 and sets V on signed wrap. -/
  | dpSub (r e : Nat) (d a b : BitVec 4)
  /-- ADDS (R170). The ADDS instruction adds with clamping and sets WSAT on a clamp. -/
  | dpAdds (r e : Nat) (d a b : BitVec 4)
  /-- SUBS (R170). The SUBS instruction subtracts with clamping and sets WSAT on a clamp. -/
  | dpSubs (r e : Nat) (d a b : BitVec 4)
  /-- MUL (R165). The MUL instruction multiplies Q8.24 by Q2.30 to Q8.24, truncated and clamped. -/
  | dpMul (r e : Nat) (d a b : BitVec 4)
  /-- ABS (R165). The ABS instruction takes the clamped absolute value of S. -/
  | dpAbs (r e : Nat) (d a : BitVec 4)
  /-- NEG (R165). The NEG instruction negates S with clamping. -/
  | dpNeg (r e : Nat) (d a : BitVec 4)
  /-- MIN (R165). The MIN instruction takes the smaller of S and T. -/
  | dpMin (r e : Nat) (d a b : BitVec 4)
  /-- MAX (R165). The MAX instruction takes the larger of S and T. -/
  | dpMax (r e : Nat) (d a b : BitVec 4)
  /-- ASH (R165). The ASH instruction shifts S by SH, clamping left shifts and truncating right shifts. -/
  | dpAsh (r e : Nat) (d a : BitVec 4) (sh : BitVec 6)
  /-- AND (R165). The AND instruction forms the bitwise and of S and T. -/
  | dpAnd (r e : Nat) (d a b : BitVec 4)
  /-- OR (R165). The OR instruction forms the bitwise or of S and T. -/
  | dpOr (r e : Nat) (d a b : BitVec 4)
  /-- XOR (R165). The XOR instruction forms the bitwise exclusive or of S and T. -/
  | dpXor (r e : Nat) (d a b : BitVec 4)
  /-- CSEL (R165). The CSEL instruction selects S or T by a condition. -/
  | dpCsel (r e : Nat) (d a b : BitVec 4) (cond : BitVec 3)
  /-- CMP_INSTRUCTION (R170). The CMP instruction compares S with T exactly and sets N and Z. -/
  | dpCmp (r e : Nat) (a b : BitVec 4)
  /-- CLRA (R167). The CLRA instruction clears an accumulator and its clamp flag. -/
  | dpClra (r e : Nat) (acc : Bool)
  /-- MACR (R166). The MACR instruction accumulates a register product with exact clamping. -/
  | dpMacr (r e : Nat) (acc : Bool) (a b sh : BitVec 4) (minus : Bool)
  /-- MACM (R174). The MACM instruction loads two operands through their address modes and accumulates their product. -/
  | dpMacm (r e : Nat) (acc : Bool) (x c : Addr) (sh : BitVec 4) (minus : Bool)
  /-- ACCW (R166). The ACCW instruction adds a scaled word to an accumulator. -/
  | dpAccw (r e : Nat) (acc : Bool) (a sh : BitVec 4)
  /-- EXT (R169). The EXT instruction extracts a word from an accumulator at s, truncating and clamping. -/
  | dpExt (r e : Nat) (d : BitVec 4) (acc : Bool) (sh : BitVec 7)
  /-- EXPA (R171). The EXPA instruction counts the redundant sign bits of an accumulator. -/
  | dpExpa (r e : Nat) (d : BitVec 4) (acc : Bool)
  /-- NORMA (R171). The NORMA instruction shifts an accumulator by a signed count. -/
  | dpNorma (r e : Nat) (acc : Bool) (a : BitVec 4)
  /-- EXP (R171). The EXP instruction counts the redundant sign bits of S. -/
  | dpExp (r e : Nat) (d a : BitVec 4)
  /-- NORM (R171). The NORM instruction shifts S by the signed value of T, clamping an over-long left shift. -/
  | dpNorm (r e : Nat) (d a b : BitVec 4)
  /-- BR (R179). The BR instruction continues forward at TARGET if its condition holds. -/
  | dpBr (r e : Nat) (cond : BitVec 3) (target : BitVec 6)
  /-- LOOP (R179). The LOOP instruction runs its body COUNT times. -/
  | dpLoop (r e : Nat) (count target : BitVec 6)
  /-- OUT (R165). The OUT instruction sets an output operand. -/
  | dpOut (r e : Nat) (n : BitVec 3) (a : BitVec 4)
  /-- END (R179). The END instruction ends the Verb. -/
  | dpEnd (r e : Nat)
  /-- MEAS_FRAME_RECEIVE (R188). A measurement lane receives a frame, drops it on a CRC failure or rate violation, and otherwise accepts it. region, lane, quarter nanoseconds to byte 0 and from it to the completed check -/
  | measFrameReceive (r l q d : Nat) (f : MeasFrame)
  /-- MEAS_LATCH (R189). At epoch plus MEAS_LATCH the region latches every channel, marks stale channels and posts the sample entries. region, whether the host enables the control Phrases in M11 -/
  | measLatch (r : Nat) (test : Bool)
  /-- LOOP_OPEN (R209). A LOOP_CMD write with action OPEN requests that the loop open at the next epoch. region, loop -/
  | loopOpen (r l : Nat)
  /-- LOOP_CLOSE_KEEP (R210). A LOOP_CMD write with action CLOSE_KEEP requests that the loop close with its states kept, or is refused under R213. region, loop -/
  | loopCloseKeep (r l : Nat)
  /-- LOOP_CLOSE_CLEAR (R210). A LOOP_CMD write with action CLOSE_CLEAR requests that the loop's states be cleared and the loop closed, or is refused under R213. region, loop -/
  | loopCloseClear (r l : Nat)
  /-- LOOP_STATE_APPLY (R209). At the first epoch after a LOOP_CMD write the last requested loop state applies. region -/
  | loopStateApply (r : Nat)
  /-- SV_FRAME_RECEIVE (R203). Die 0 matches a sampled-value frame to a subscription, assigns sample times and stores its ASDUs. -/
  | svFrameReceive (f : SvFrame)
  /-- SV_LOST (R203). A stream without a frame for LOSS_N samples raises SV_LOST. stream -/
  | svLost (n : Nat)
  /-- GOOSE_RECEIVE (R206). Die 0 matches a GOOSE message, renews its deadline and, on a new stNum, triggers the subscribing Phrases. -/
  | gooseReceive (m : GooseMsg)
  /-- RT_HOLD_EXPIRY (R391). The ride-through member FALSE for MODE_RT.HOLD periods in M9 makes the warden request M7. -/
  | rtHoldExpiry
  /-- GOOSE_TAL (R206). A subscription's arrival deadline passing raises GOOSE_TAL and marks the dataset expired. subscription -/
  | gooseTal (n : Nat)
  /-- GOOSE_CHANGE_SEND (R207). GOOSE_PUT results of a period are sent as one change with a new stNum at the next epoch plus STN_GOOSE.OFS. published dataset -/
  | gooseChangeSend (n : Nat)
  /-- GOOSE_RETRANSMIT (R207). A published dataset is resent at intervals doubling from GOOSE_T1 up to GOOSE_T0. published dataset -/
  | gooseRetransmit (n : Nat)
  /-- COMMAND_DEADLINE (R365). At epoch minus 200 ns an Elsum updates its lease, takes any claim, chooses its command source and makes its hysteretic decision. `pos`, `neg`: the levels of IDIR_POS and IDIR_NEG. -/
  | commandDeadline (c : Nat) (pos neg : Bool)
  /-- CELL_EPOCH (R256). At each epoch in cell time the Elsum reloads the pending command, anchors its carrier and latches its CV sample. -/
  | cellEpoch (c : Nat)
  /-- GATE_EDGE (R265). At a requested edge the outgoing position goes off and the incoming position's dead time starts, after minimum-pulse rules. `g`: 0 the pair P1/P2, 1 P3/P4. -/
  | gateEdge (c g : Nat)
  /-- DEAD_TIME_EXPIRY (R265). DT after an edge the incoming position goes on, unless its conduction would be zero or less. -/
  | deadTimeExpiry (c g : Nat)
  /-- CARRIER_PEAK (R264). At each carrier peak the carrier loads PWM_TDUTY for the next carrier period in Maintenance. `g`: the pair of positions whose register it is. -/
  | carrierPeak (c g : Nat)
  /-- CARRIER_VALLEY (R262). At a carrier valley the carrier takes its duty from the command in force. -/
  | carrierValley (c : Nat)
  /-- BYP_SW_CONF_CLOSE (R255). BYP_SW_CONF showing closure sets STATUS.BYPASSED. -/
  | bypSwConfClose (c : Nat)
  /-- BYP_FIRE_PULSE_END (R307). A bypass firing pulse ends after BYP_CFG.FIRE_W. -/
  | bypFirePulseEnd (c : Nat)
  /-- BYP_REFIRE (R307). No confirmation CONF_TMO after a firing fires again, up to REFIRE times, and then raises BYP_FAIL. -/
  | bypRefire (c : Nat)
  /-- GATE_FB_TIMEOUT (R274). Gate feedback that disagrees with its command TMO after an edge is counted, raising GATE_FB after N edges or at once if stuck on. -/
  | gateFbTimeout (c p : Nat) (on : Bool)
  /-- DBG_HALT (R275). A write of DBG_CTL.HALT in Maintenance freezes the timed domain, and elsewhere is refused. -/
  | dbgHalt (c : Nat)
  /-- DBG_RESUME (R276). A write of DBG_CTL.RESUME continues the timed domain and performs edges that fell due during the halt. `len`: the length of the halt in quarter nanoseconds. -/
  | dbgResume (c len : Nat)
  /-- IDENT_REQ (R282). A gate matrix receiving IDENT_REQ answers with an IDENT frame. `p`: position 0 P1 to 3 P4, here and in the rows of the links. -/
  | identReq (c p : Nat)
  /-- CFG_WRITE (R284). A gate matrix stores a CFG_WRITE in its shadow set and answers with CFG_ECHO within 5 µs. `ok`: the CRC of the frame, here and in the rows that follow. -/
  | cfgWrite (c p q : Nat) (ok : Bool) (seq first : Nat) (l : List CfgEntry)
  /-- CFG_READ (R282). A gate matrix answers CFG_READ with the entries it holds in a CFG_ECHO. -/
  | cfgRead (c p q : Nat) (ok : Bool) (seq first n : Nat)
  /-- KEEP (R283). A gate matrix receives a KEEP frame that keeps the link alive. -/
  | keep (c p q : Nat)
  /-- MATRIX_SHADOW_APPLY (R284). A matrix makes its shadow set active at the first gate-command rising edge at least 200 ns after the CFG_WRITE. -/
  | matrixShadowApply (c p : Nat)
  /-- GML_ENABLE_LOW (R280). GMLn_EN going low makes the matrix hold every die of its position off. -/
  | gmlEnableLow (c p : Nat)
  /-- DESAT_TURN_OFF (R305). A matrix turns a die off within 2 µs of overcurrent and reports it in the die's record. -/
  | desatTurnOff (c p d : Nat)
  /-- IDENT (R283). An Elsum receives IDENT, checks it and either brings the link up or resumes a kept configuration. -/
  | gmlIdent (c p q : Nat) (ok : Bool) (seq : Nat) (x : Ident)
  /-- SENSE (R293). An Elsum takes a SENSE frame's die records, raises DIE_SENSE or DIE_HOT and runs share trims and isolation checks. -/
  | gmlSense (c p q : Nat) (ok : Bool) (seq first : Nat) (l : List SenseRec)
  /-- EDGE (R296). An Elsum accumulates the delays of an EDGE frame and adjusts timing trims after EVENTS measurements. -/
  | gmlEdge (c p q : Nat) (ok : Bool) (seq : Nat) (off : Bool) (g : Nat) (amp : BitVec 16) (l : List (BitVec 8)) (age : Nat)
  /-- CFG_ECHO (R285). An Elsum compares the echoed CRC with what it sent and confirms the update or resends it. -/
  | gmlCfgEcho (c p q : Nat) (ok : Bool) (seq first crc : Nat)
  /-- FAULT (R282). A FAULT frame with any bit set raises MATRIX_FAULT. `b`: byte 0 of the payload. -/
  | gmlFault (c p q : Nat) (ok : Bool) (b : Nat)
  /-- CFG_ECHO_TIMEOUT (R285). No echo within 10 µs resends the CFG_WRITE, and after RETRY resends raises GML_CFG_ERR. -/
  | cfgEchoTimeout (c p : Nat)
  /-- GML_KEEP_DUE (R283). An enabled link idle for 2 µs gets a KEEP frame. -/
  | gmlKeepDue (c p : Nat)
  /-- GML_DOWN (R283). No valid frame for GML_CFG.TMO takes the link down, stops trims and raises GML_DOWN. -/
  | gmlDown (c p : Nat)
  /-- IDENT_REQ_RETRY (R283). While a link is down or coming up the Elsum sends IDENT_REQ every 20 µs. -/
  | identReqRetry (c p : Nat)
  /-- AUX_PG_FALL (R308). AUX_PG falling starts the supply-loss sequence. -/
  | auxPgFall (c q : Nat)
  /-- AUX_LOSS (R308). AUX_PG low for 1 µs raises AUX_LOSS, turns every position off and, at severity 4 or more, fires the bypass. -/
  | auxLoss (c : Nat)
  /-- HOLDUP_REPORT_END (R308). HOLDUP.REPORT after AUX_PG falls the Elsum stops reporting, turns its optics off and enters off-hold. -/
  | holdupReportEnd (c : Nat)
  /-- RES_LOW_N_FALL (R308). RES_LOW_N falling makes the Elsum stop everything except holding GMLn_EN low. -/
  | resLowNFall (c : Nat)
  /-- AUX_LOSS_CLEAR (R308). AUX_PG high for 10 ms makes AUX_LOSS inactive. -/
  | auxLossClear (c q : Nat)
  /-- CV_RESULT (R314). The decimator completes a result, which is corrected, tagged and written to CV_RES. `raw`, `ovl`: the raw result and overload; `bad`: a condition of R318; `late`: quarters after the grid point, below 200. -/
  | cvResult (c late raw : Nat) (ovl bad : Bool)
  /-- CV_FAULT_TIMEOUT (R318). No result within 2 intervals, or a failed clock or reference, tags results FAULT and raises CV_FAULT. `limits`: the modulator clock or the reference has left its limits. -/
  | cvFaultTimeout (c : Nat) (limits : Bool)
  /-- AUX_CONVERSION_COMPLETE (R327). An auxiliary conversion completes and writes AUX_RES, with OVR if the previous result was unread. -/
  | auxConversionComplete (c code : Nat) (ok : Bool)
  /-- AUX_TRIG_GO (R329). A write of AUX_TRIG.GO triggers a scan, held one deep while a scan runs. -/
  | auxTrigGo (c : Nat)
  /-- AUX_SCAN_TIMER (R329). With TRIG = 2 a scan is triggered every AUX_SCAN.INT µs of cell time. -/
  | auxScanTimer (c : Nat)
  /-- AUX_URGENT_REQUEST (R330). A protection event issues an urgent conversion that aborts a running scan conversion. `e`: 0 AUX_PG falling, 1 an overvoltage trip, 2 GATE_FB. -/
  | auxUrgentRequest (c e : Nat)
  /-- AUX_RES_READ (R328). A read of AUX_RES by the sequencer, or by management with DIRECT = 1, marks the result read. -/
  | auxResRead (c : Nat)
  /-- FAULT_RAISE (R336). A collector raises a source at a collection tick, captures it, posts its record and executes the reaction of its severity. `level`, `k`: 0 cell k, 1 tree k mod 32 of region k div 32, 2 region k, 3 chip; `ext`: external sources that changed. -/
  | faultRaise (level k : Nat) (ext : List (Nat × Bool))
  /-- QUIET_TIME_EXPIRY (R357). The quiet timer reaching QUIET_TIME makes the warden request M6. -/
  | quietTimeExpiry
  /-- CAPTURE_WINDOW_END (R344). The end of a recovery window or RWIN period returns capture to normal and sets sticky bits of active sources. none: the unit's recovery window. -/
  | captureWindowEnd (cell : Option Nat)
  /-- CFLT_REC_UNLATCH (R358). A write of CFLT_REC.UNLATCH clears the recovery latch and starts the quiet timer. -/
  | cfltRecUnlatch
  /-- TRIP_OUT_CLEAR (R352). A write of CFLT_TRIPOUT.CLRn deasserts TRIP_OUTn if no source at SEVn or above is active. -/
  | tripOutClear (n : Nat)
  /-- FLT_FIRST_CLEAR (R344). Writing 1 to FLT_FIRST.VALID clears the first-latch and arms it again. As FAULT_RAISE. -/
  | fltFirstClear (level k : Nat)
  /-- TRIP_IN_CHANGE (R352). A TRIP_INn level held for FILT changes the TRIP_INn source. `low`: the level held for FILT. -/
  | tripInChange (n q : Nat) (low : Bool)
  /-- CELL_FAULT_RELEASE (R348). An Elsum releases its own off-state after the source has been inactive for FLT_CFG.REL periods. -/
  | cellFaultRelease (c src : Nat)
  /-- ALERT_ACK (R350). A write of FLT_CLR.ALERT_ACK stops the cell's alert markers and clears CLASS0. -/
  | alertAck (c : Nat)
  /-- OVERVOLTAGE_TRIP (R351). The divider input rising above the threshold turns every position off, lowers GMLn_EN and starts the bypass. -/
  | overvoltageTrip (c q : Nat)
  /-- OVERVOLTAGE_RELEASE (R351). The input below threshold minus hysteresis for 1 µs makes OVERVOLTAGE inactive. -/
  | overvoltageRelease (c q : Nat)
  /-- BLOCKNET_FAULT (R347). A break or a marker lost for 1 µs on the block network raises BLOCKNET_FAULT. -/
  | blocknetFault (r : Nat) (active : Bool)
  /-- LEASE_RECEIVE (R377). A unit receives the partner's LEASE frame and uses it for peer offset, PN alignment, claims, yields and conflicts. `heard`, `hq`: when the partner heard the frame it echoes, in its own time: nanoseconds and quarters of one. -/
  | leaseReceive (q : Nat) (l : Lease) (m : Mac) (heard : W64) (hq : BitVec 2)
  /-- STATE_RECEIVE (R375). A unit receives and verifies a STATE frame of the owner's copy set. -/
  | stateReceive (q : Nat) (h : MirrHdr) (g : StateSeg)
  /-- MIRROR_COPY_APPLY (R375). At epoch plus APPLY a complete copy overwrites the mirrored words, or the period is counted in COPY_MISS. -/
  | mirrorCopyApply
  /-- TRIP_RECEIVE (R378). A standby receiving a TRIP frame starts to claim. -/
  | tripReceive (q : Nat) (h : MirrHdr)
  /-- YIELD_REQ_RECEIVE (R379). A healthy owner receiving YIELD_REQ from a standby in M8 agrees a handover. PN of the header: the epoch it names. -/
  | yieldReqReceive (q : Nat) (h : MirrHdr)
  /-- HANDOVER_ACK_RECEIVE (R382). The owner receiving HANDOVER_ACK confirms the planned handover. PN of the header: the epoch it names. -/
  | handoverAckReceive (q : Nat) (h : MirrHdr)
  /-- HANDOVER_ABANDON (R382). No HANDOVER_ACK by epoch h − 2 abandons the planned handover. -/
  | handoverAbandon
  /-- PEER_LOST (R378). No LEASE frame for LOSS_N launches raises PEER_LOST and starts a claim. -/
  | peerLost
  /-- CLAIM_TIMEOUT (R378). No Glint showing ownership within CLAIM_TMO returns the claimant to M8 and counts the refusal. -/
  | claimTimeout
  /-- MIRR_CMD_HANDOVER (R382). A write of MIRR_CMD with HANDOVER = h asks the owner for a planned handover at epoch h. -/
  | mirrCmdHandover (h : BitVec 56)
  /-- MIRR_CMD_REQ_YIELD (R382). A write of MIRR_CMD.REQ_YIELD on the standby sends a YIELD_REQ naming h = PN + 4. -/
  | mirrCmdReqYield
  /-- MIRR_CMD_CLAIM (R378). A write of MIRR_CMD.CLAIM makes the standby start to claim whatever AUTO is. -/
  | mirrCmdClaim
  /-- ORPHAN_TX (R370). No downstream frame on either port for ORPHAN_TX stops the cell's Glints, markers and transmitters. -/
  | orphanTx (c : Nat)
  /-- MIRROR_LANES_ALIGNED (R470). Alignment of all Mirror lanes starts the Mirror key exchange, or holds the link down on a unit clash. -/
  | mirrorLanesAligned (peerB : Bool)
  /-- MIRROR_OFFER_RECEIVE (R470). A unit checks the partner's Mirror OFFER and sends its CONFIRM. -/
  | mirrorOfferReceive (o : MirrOffer) (m : Mac)
  /-- MIRROR_CONFIRM_RECEIVE (R470). A verified partner CONFIRM puts K_M in place and sets LINK_UP. -/
  | mirrorConfirmReceive (right : Bool) (m : Mac)
  /-- MIRROR_CONFIRM_TIMEOUT (R470). No partner CONFIRM within 10 ms ends the key-exchange attempt. -/
  | mirrorConfirmTimeout
  /-- MIRROR_RETRY (R470). 100 ms after a failed attempt the unit starts the Mirror key exchange again. -/
  | mirrorRetry
  /-- MIRROR_LINK_DOWN (R373). Loss of lane alignment takes the Mirror link down and makes MIRROR_DOWN active. -/
  | mirrorLinkDown
  /-- MODE_CMD_TARGET (R386). A write of MODE_CMD.TARGET makes a host mode request that is judged against the transition table. -/
  | modeCmdTarget (target : Nat)
  /-- MODE_CMD_FULL_RESET (R386). A write of MODE_CMD.FULL_RESET starts a full reset into M0. -/
  | modeCmdFullReset
  /-- MODE_CHANGE_EFFECT (R387). A granted transition takes effect at its epoch, Beacon launch or tick. -/
  | modeChangeEffect
  /-- DESCENT (R394). In M6 or M10, after IDLE_DLY with no grant, the unit descends to the lowest permitted power state. -/
  | descent
  /-- DESCENT_RETRY (R398). RETRY_INT after a refused warden descent, the warden requests it again. -/
  | descentRetry
  /-- WAKE_EVENT (R395). An enabled wake event brings the unit out of its power state or abandons an entry at its abort point. -/
  | wakeEvent
  /-- LAT_TOL_WRITE (R395). A write of LAT_TOL below the current exit latency wakes the unit and clears WAKE_STAT.HELD. -/
  | latTolWrite (v : W32)
  /-- IMAGE_RESTORE_COMPLETE (R400). The image is restored from MRAM and verified on exit from M3, or the unit stays in M3 on failure. `ok`: the image verifies. -/
  | imageRestoreComplete (ok : Bool)
  /-- RESUME_TIMEOUT (R401). A slot not answering within RESUME_TMO keeps the unit in M5 and sends the tree to enumeration. -/
  | resumeTimeout
  /-- AVS_EVALUATE (R404). Every AVS_CFG.INT the AVS loop sets a new core target from the gauge ratio. -/
  | avsEvaluate
  /-- AVS_ACK (R403). A regulator's SlaveAck and VDone acknowledge an AVSBus request, and the rail counts as at its new value. `rail`: 0 core, 1 SerDes. -/
  | avsAck (rail : Nat)
  /-- AVS_ACK_TIMEOUT (R403). No acknowledgement within ACK_TMO resends the request, and after RETRY attempts raises AVS_NACK. -/
  | avsAckTimeout (rail : Nat)
  /-- GAUGE_RECALIBRATE (R405). Every AVS_CAL.INT, or after a large core change, the warden posts calibration Verbs to adjust DISP_GAUGE_K. `mv`: what Read Voltage returns for the core rail. -/
  | gaugeRecalibrate (mv : Nat)
  /-- GLIMMER_LANE_CHECK (R406). Every PWR_GLIM.INT in M4 the region powers its lanes and compares channels with their Glimmer windows. -/
  | glimmerLaneCheck (r : Nat)
  /-- GLIMMER_CELL_SAMPLE (R408). Every GLIM_CFG.INT a Glimmer cell samples its voltage and wakes fully if a sample is outside its window. The 8 raw results with overload. -/
  | glimmerCellSample (c : Nat) (l : List (Nat × Bool))
  /-- GLIMMER_OWNER_LOSS (R408). No Glimmer Beacon from its owner for 3 ms leaves a Glimmer cell without an owner. -/
  | glimmerOwnerLoss (c : Nat)
  /-- DOORBELL_READ (R414). At epoch plus HOST_DB.OFS, or every POLL_INT, Basath reads the doorbell page and fetches new commands. IDX words of the page; 0 complete, 1 outstanding until the next falls due, 2 failed -/
  | doorbellRead (idx : List (Nat × Nat)) (res : Nat)
  /-- RING_CFG_WRITE (R412). A write of RING_CFG enables or configures a ring, or is discarded for an enabled ring. -/
  | ringCfgWrite (v : W32)
  /-- MSIX_MODERATION_EXPIRY (R415). A vector's moderation timer reaching MOD issues its MSI-X message. vector -/
  | msixModerationExpiry (v : Nat)
  /-- MSIX_UNMASK (R415). Unmasking a vector with its PBA bit set issues its pending message. vector -/
  | msixUnmask (v : Nat)
  /-- TRACE_DELIVER (R421). A buffered trace record is written to the trace ring when a descriptor is free. region -/
  | traceDeliver (r : Nat)
  /-- STN_FRAME_RECEIVE (R419). A station-port frame is timestamped and delivered to its receive ring, or dropped if the ring is full. port, quarter nanoseconds, the frame, subscribed, addressed to the port, FCS right -/
  | stnFrameReceive (p q : Nat) (frame : List Byte) (sub mine fcs : Bool)
  /-- STN_FRAME_TRANSMIT (R86). A station-port frame is transmitted, a timed frame at its launch time or late by its LATE policy, and its completion written. port -/
  | stnFrameTransmit (p : Nat) (timed : Bool)
  /-- PARAM_WRITE (R416). The PARAM_WRITE command writes a region SRAM block from host memory, unless refused. region, address, buffer -/
  | paramWrite (c : HostCmd) (r ad : Nat) (data : Option (List Byte))
  /-- PARAM_READ (R416). The PARAM_READ command copies region SRAM or MRAM to host memory. region, address, length -/
  | paramRead (c : HostCmd) (r ad len : Nat)
  /-- NOP_COMMAND (R416). The NOP command completes without effect. Its opcode is 0x01; one that R416 does not list completes with BAD_COMMAND. -/
  | nopCommand (c : NopCmd)
  /-- IMAGE_LOAD (R416). The IMAGE_LOAD command verifies an image and makes it the image in force in M1, or the candidate otherwise. `im`: what the buffer holds, none where its read fails. -/
  | imageLoad (c : HostCmd) (im : Option Image)
  /-- CELL_REG (R416). The CELL_REG command reads or writes an Elsum register through a management transaction. -/
  | cellReg (c : HostCmd) (cell : Nat) (write : Bool) (addr : Nat) (value : W32)
  /-- CELL_MEM (R416). The CELL_MEM command reads or writes cell memory through a management transaction. -/
  | cellMem (c : HostCmd) (cell addr len : Nat) (data : Option (List Byte)) (write : Bool)
  /-- STN_TX (R86). The STN_TX command queues a frame for a station port, timed or untimed, or refuses it. port, what the buffer holds, launch time, LATE policy, what becomes of the egress timestamp -/
  | stnTx (c : HostCmd) (p : Nat) (frame : Option (List Byte)) (launch : Option Nat) (late : Bool) (ts : TxStamp)
  /-- CLAUSE_STAGE (R423). The CLAUSE_STAGE command adds items from a host buffer to the staged Clause. `items`: what the buffer holds, none where its read fails. -/
  | clauseStage (c : HostCmd) (items : Option (List Item))
  /-- CLAUSE_CHECK (R425). The CLAUSE_CHECK command checks the staged Clause and returns the first failure or the earliest epoch. -/
  | clauseCheck (c : HostCmd)
  /-- CLAUSE_ARM (R426). The CLAUSE_ARM command arms the checked Clause for an epoch and starts delivering its cell sets. -/
  | clauseArm (c : HostCmd) (e : Nat)
  /-- CLAUSE_DISCARD (R424). The CLAUSE_DISCARD command removes the staged Clause. -/
  | clauseDiscard (c : HostCmd)
  /-- CLAUSE_ABANDON (R428). The CLAUSE_ABANDON command abandons the armed Clause before its commit point with HOST_ABANDON. -/
  | clauseAbandon (c : HostCmd) (id : Nat)
  /-- CLAUSE_COMMIT (R428). At the class-1 deadline of period e − 1 the Clause is applied if confirmed and re-checked, or abandoned. -/
  | clauseCommit
  /-- CLAUSE_APPLY (R430). At epoch e the unit applies the Clause's registers, parameters, image select, arm enables and loop commands in order. -/
  | clauseApply
  /-- CLAUSE_CLOSE (R429). At epoch e + 16 Basath posts a closed outcome counting cells that were holding at e. -/
  | clauseClose
  /-- CELL_SET_APPLY (R429). An Elsum applies its staged set at the epoch of the first owner Beacon carrying APPLY with its identifier. -/
  | cellSetApply (c : Nat)
  /-- CELL_SET_EXPIRY (R429). An Elsum discards a staged set for which no outcome has arrived by epoch e + 16. -/
  | cellSetExpiry (c : Nat)
  /-- HOST_WEDGE (R432). A link-down, PERST_N, Bus Master Enable cleared, D3hot or repeated DMA failure wedges the host function. -/
  | hostWedge (cause : Nat)
  /-- PERST_N_ASSERT (R526). PERST_N asserted resets only the PCIe core, and after reset exit wedges the function. -/
  | perstNAssert
  /-- SYS_RESET_N_RISE (R436). SYS_RESET_N rising samples the straps and starts reset exit. -/
  | sysResetNRise (unit boot : Nat)
  /-- FULL_RESET (R526). SYS_RESET_N low for 1 µs or more puts the unit into M0 and turns off its transmitters. -/
  | fullReset
  /-- WARDEN_ROM_COMPLETE (R437). The warden ROM finishes its fuse, MRAM and identity-key checks and requests M1, or leaves the unit in M0 with BOOT_STAT.ERR. `err`: 0, or the ERR code of the check that failed. -/
  | wardenRomComplete (err : Nat)
  /-- BOOT_IMAGE_LOAD (R438). The stored image is loaded and verified and the warden requests M2, or the unit waits in M1 with ERR = 5. `im`: the stored image, if there is one. -/
  | bootImageLoad (im : Option Image)
  /-- SELFTEST_COMPLETE (R441). The self-tests of every die complete and set SELFTEST_STAT.PASS or FAIL. `fails`: (region, mask of the failed tests). -/
  | selftestComplete (fails : List (Nat × Nat))
  /-- DISCOVERY_REPLY (R449). Basath looks up a discovery reply's SERIAL in the cell map and assigns or parks the cell. -/
  | discoveryReply (r t q : Nat) (d : DiscReply)
  /-- KEY_EXCHANGE_REPLY (R466). Basath takes a key-exchange reply chunk and verifies the cell signature and confirmation. -/
  | keyExchangeReply (r t q : Nat) (k : KxReply)
  /-- TREE_SWITCH (R453). A tree with every slot complete and R112 met switches to period Beacons. -/
  | treeSwitch (r t : Nat)
  /-- ENUM_TIMEOUT (R454). A tree not switched ENUM_CFG.TMO after M5 entry sets STALL and logs TIMEOUT for its incomplete slots. -/
  | enumTimeout (r t : Nat)
  /-- CELL_RESET_EXIT (R444). An Elsum leaves cell reset when AUX_PG and RESET_N are high, restores MRAM state and brings up its links. `patch`: 1 where a staged patch verifies, 2 where it does not. -/
  | cellResetExit (c patch : Nat)
  /-- ELSUM_RESET_N (R525). RESET_N low turns every position off, holds GMLn_EN low and releases BYP_SW_CMD. -/
  | elsumResetN (c : Nat)
  /-- SEC_CTL_COMMIT (R462). A write of SEC_CTL.COMMIT sets OWNER_SET and makes SEC_OWNER_HASH read-only. -/
  | secCtlCommit
  /-- SEC_CTL_SVN_RAISE (R463). A write of SEC_CTL.SVN_RAISE sets SEC_SVN_MIN to the SVN of the image in force. -/
  | secCtlSvnRaise
  /-- SEC_CHAL (R472). The SEC_CHAL instruction returns a 64-byte unlock challenge. -/
  | secChal (part : Option Nat)
  /-- SEC_RESP (R472). The SEC_RESP instruction checks a signed response and, if valid, erases the secrets and unlocks the TAP. -/
  | secResp (part : Option Nat) (ok : Bool)
  /-- EXTEST (R471). The EXTEST instructions drive the boundary cells while reset is held, with Elsum gate and bypass outputs held off. `part`: an Elsum, or none for the unit, here and in MRAM_REFRESH. -/
  | extest (part : Option Nat) (sel : Bool)
  /-- JTAG_CELL_REG (R512). Update-DR of the CELL_REG instruction performs one Elsum register access in Maintenance. `len`: how long a halt has lasted, in quarter nanoseconds. -/
  | jtagCellReg (c : Nat) (write : Bool) (a : Nat) (data : W32) (len : Nat)
  /-- SEC_TAMPER (R474). A Basath supply, clock or temperature glitch zeroises the key store and raises SEC_TAMPER. -/
  | secTamper
  /-- ELSUM_TAMPER (R474). An Elsum supply or TCXO glitch zeroises its key store and resets the cell. -/
  | elsumTamper (c : Nat)
  /-- MRAM_REFRESH (R479). Every 30 days of operation each part rewrites its security block, calibration block and stored image. -/
  | mramRefresh (part : Option Nat)
  /-- DIE_0_WATCHDOG (R387). Expiry of the die-0 watchdog takes the unit from any mode to M0. -/
  | die0Watchdog
  /-- GATE_FEEDBACK_ON (R274). A gate feedback input that shows a position on while its gate command has been off for longer than TMO raises GATE_FB at once, without counting. -/
  | gateFeedbackOn (c p q : Nat)
  /-- PORT_MODULE_FAULT (R522). Every 1 ms the cell sequencer reads each optical module's transmit-fault flag over OPTA or OPTB, and a set flag is taken as loss of that port. The transmit-fault flag as read. -/
  | portModuleFault (c p : Nat) (fault : Bool)
  deriving DecidableEq, Repr

end Sys2Proof
end

