-- ==== Sys2Proof/Decode.lean ====
section
/-! DEFINITION. The command that a word of the opcode table's bits spells. No row of the table gives bits. -/

namespace Sys2Proof

/-- The rows of the opcode table that give bits, each with its width, mask and pattern, and the command it spells: none does. -/
def bitRows : List (Nat × Nat × Nat × Instr) := []

/-- The command that the `nbits` bits of `w` spell. -/
def decodeTableWord (nbits w : Nat) : Option Instr :=
  (bitRows.find? fun x => x.1 == nbits && Nat.land w x.2.1 == x.2.2.1).map fun x => x.2.2.2

end Sys2Proof
end

