-- ==== Sys2Proof/Config.lean ====
section
/-! DEFINITION. The values the manual leaves open: opaque constants, so that nothing in Lean can say what they are. -/

namespace Sys2Proof

/-- A value that the manual leaves open. It is applied to the counter `State.free`, which each use
advances, so that no two uses are related (log entry 3, DESIGN CHOICE). -/
opaque Config.freeValue : Nat → BitVec 64

/-- What the manual does not state of an access to one region-SRAM word whose bank holds no
retained contents after M3 (R402), per address (log entry 3, DESIGN CHOICE). -/
opaque Config.lostByte : Nat → BitVec 8

/-- A key drawn from the true random number generator or agreed in a key exchange (R461, R467, R470). It is
applied to the counter `State.free` (log entry 3, DESIGN CHOICE). -/
opaque Config.freeKey : Nat → BitVec 256

/-- The Elsum junction temperature, in 0.0625 °C, that the code of auxiliary channel 30 stands for: Elsum's factory constants (R332) are
not in the manual (log entry 3, DESIGN CHOICE). -/
opaque Config.tjOf : Nat → BitVec 16

/-- How much of a time error the loop of a cell takes away at one Beacon, of its time constant, the error and its frequency correction: R73 gives the
loop no law (log entry 34, DESIGN CHOICE). -/
opaque Config.loopPhase : Nat → Int → Int → Nat
/-- The frequency correction of a cell's loop after a Beacon, in 2^-32, of the same (log entry 34, DESIGN CHOICE). -/
opaque Config.loopFreq : Nat → Int → Int → Int

/-- The scrambler register of a lane when its n-th frame begins: it depends on all that the lane has carried (R97; log entry 86, DESIGN CHOICE). -/
opaque Config.scrambler : Nat → Nat → BitVec 58

/-- Where SERIAL stands in the security block of a unit's MRAM; R475 has a read return it and R476 does not place it (log entry 80, DESIGN CHOICE). -/
opaque Config.unitSerialAt : Nat
/-- Where the owner hash stands in that block. -/
opaque Config.ownerHashAt : Nat
/-- Where SEC_SVN_MIN stands in that block. -/
opaque Config.svnMinAt : Nat
/-- Where SERIAL stands in the security block of a cell's MRAM (R475, R477; log entry 80, DESIGN CHOICE). -/
opaque Config.cellSerialAt : Nat
/-- Where the anchor stands in that block. -/
opaque Config.anchorAt : Nat

end Sys2Proof
end

