-- ==== Sys2Proof/Machine/Bits.lean ====
section
/-! DEFINITION. Bit fields, sign extension, byte order, fixed-point rounding and the CRCs of R541. -/

namespace Sys2Proof.Machine

/-- Bits [lo + w - 1 : lo] of a number. -/
def bits (v lo w : Nat) : Nat := v / 2 ^ lo % 2 ^ w

/-- A number with its bits [lo + w - 1 : lo] replaced by `x`. -/
def setBits (v lo w x : Nat) : Nat :=
  v % 2 ^ lo + (x % 2 ^ w) * 2 ^ lo + v / 2 ^ (lo + w) * 2 ^ (lo + w)

/-- The two's-complement value of a w-bit field (R14). -/
def sext (w v : Nat) : Int :=
  if v % 2 ^ w < 2 ^ (w - 1) then (v % 2 ^ w : Nat) else (v % 2 ^ w : Nat) - (2 ^ w : Nat)

/-- The w-bit two's-complement field of an integer. -/
def unsext (w : Nat) (x : Int) : Nat := (x % (2 ^ w : Nat)).toNat

/-- An integer limited to [lo, hi]. -/
def clampI (lo hi x : Int) : Int := if x < lo then lo else if hi < x then hi else x

/-- A natural number limited to [lo, hi]. -/
def clampN (lo hi x : Nat) : Nat := if x < lo then lo else if hi < x then hi else x

/-- A counter field of w bits that stops at its maximum (R506). -/
def satInc (w v : Nat) : Nat := if v + 1 < 2 ^ w then v + 1 else 2 ^ w - 1

/-- The bytes of a field, little-endian (R17). -/
def leBytes : Nat → Nat → List Byte
  | 0, _ => []
  | n + 1, v => BitVec.ofNat 8 v :: leBytes n (v / 256)

/-- The value of little-endian bytes (R17). -/
def leVal : List Byte → Nat
  | [] => 0
  | b :: t => b.toNat + 256 * leVal t

/-- The value of `n` little-endian bytes from offset `o` of a byte list; bytes past its end count as 0. -/
def leAt (l : List Byte) (o n : Nat) : Nat := leVal ((l.drop o).take n)

/-- One bit of a CRC-16 step: polynomial 0x1021, most significant bit first (R541). -/
def crc16Bit (c : Nat) (b : Bool) : Nat :=
  let top := c.testBit 15
  let sh := c * 2 % 65536
  if top != b then Nat.xor sh 0x1021 else sh

/-- CRC-16 with polynomial 0x1021 from the register value `c` (R541). -/
def crc16From (c : Nat) (l : List Byte) : Nat :=
  l.foldl (fun c b => [7, 6, 5, 4, 3, 2, 1, 0].foldl (fun c i => crc16Bit c (b.getLsbD i)) c) c

/-- The CRC-16 of R541: register starts at 0xFFFF. -/
def crc16 (l : List Byte) : Nat := crc16From 0xFFFF l

/-- One bit of the reflected CRC-32 step, least significant bit first (R541). -/
def crc32Bit (c : Nat) : Nat :=
  if c.testBit 0 then Nat.xor (c / 2) 0xEDB88320 else c / 2

/-- The CRC-32 register after the bytes `l`, from the register value `c`. -/
def crc32From (c : Nat) (l : List Byte) : Nat :=
  l.foldl (fun c b => [0, 1, 2, 3, 4, 5, 6, 7].foldl (fun c _ => crc32Bit c) (Nat.xor c b.toNat)) c

/-- The CRC-32 of R541: the IEEE 802.3 frame check sequence. -/
def crc32 (l : List Byte) : Nat := Nat.xor (crc32From 0xFFFFFFFF l) 0xFFFFFFFF

/-- Bit `i` of a mask. -/
def maskBit (m i : Nat) : Bool := m.testBit i

/-- A mask with bit `i` set. -/
def setBit (m i : Nat) : Nat := Nat.lor m (2 ^ i)

/-- A mask with bit `i` clear. -/
def clrBit (m i : Nat) : Nat := if m.testBit i then m - 2 ^ i else m

/-- 1 for true. -/
def b2n (b : Bool) : Nat := if b then 1 else 0

/-- The ceiling of a division. -/
def ceilDiv (a b : Nat) : Nat := (a + b - 1) / b

end Sys2Proof.Machine
end

