-- ==== Sys2Proof/Machine/RegMap.lean ====
section
/-! DEFINITION. The register map: every described field of the Basath and Elsum register tables
(R481 to R500, R505, R513 to R516), each with its place, its access code (R19) and its reset value.
A reset value the tables give as a dash, "From MRAM", "Strap" or "Factory" is the model's (log entry 2, DESIGN CHOICE). -/

namespace Sys2Proof.Machine

/-- The access codes of R19. `w1cBits` is a W1C field whose bits are independent (log entry 5, DEDUCED);
`w1c` is a single W1C bit or a counter (R485). No table of the manual uses W1S. -/
inductive Acc where
  | ro | rw | rwc | w1c | w1cBits | wo
  deriving DecidableEq, Repr

/-- One field: the bit address of its bit 0, its width, its access code and its reset value. -/
structure Fld where
  lsb : Nat
  width : Nat
  acc : Acc
  rst : Nat
  deriving DecidableEq, Repr

/-! Chip-level registers of die 0 (R481, R488-R494): bit address in BAR0. -/

/-- R488 -/ def Reg.CHIP_ID_DEVICE : Fld := ⟨0, 16, .ro, 3080⟩
/-- R488 -/ def Reg.CHIP_ID_REV : Fld := ⟨16, 8, .ro, 176⟩
/-- R488 -/ def Reg.CHIP_ID_DIES : Fld := ⟨24, 4, .ro, 8⟩
/-- R488 -/ def Reg.HOST_CFG_CMD_MAX : Fld := ⟨32, 9, .rw, 64⟩
/-- R488 -/ def Reg.HOST_CFG_FAIL_N : Fld := ⟨44, 4, .rw, 3⟩
/-- R488 -/ def Reg.HOST_STAT_DB_SKIP : Fld := ⟨64, 16, .w1c, 0⟩
/-- R488 -/ def Reg.HOST_STAT_CFG_ERR : Fld := ⟨80, 1, .w1c, 0⟩
/-- R488 -/ def Reg.HOST_STAT_WEDGED : Fld := ⟨95, 1, .ro, 0⟩
/-- R488 -/ def Reg.RX_CFG_OTHER : Fld := ⟨96, 1, .rw, 0⟩
/-- R488 -/ def Reg.HOST_DB_BASE : Fld := ⟨140, 52, .rw, 0⟩
/-- R488 -/ def Reg.HOST_DB_OFS : Fld := ⟨192, 16, .rw, 0⟩
/-- R488 -/ def Reg.HOST_DB_POLL_INT : Fld := ⟨208, 14, .rw, 100⟩
/-- R488 -/ def Reg.RING_SEL_N : Fld := ⟨256, 6, .rw, 0⟩
/-- R488 -/ def Reg.RING_BASE_BASE : Fld := ⟨332, 52, .rw, 0⟩
/-- R488 -/ def Reg.RING_BUF_BUF : Fld := ⟨396, 52, .rw, 0⟩
/-- R488 -/ def Reg.RING_CFG_KIND : Fld := ⟨448, 3, .rw, 0⟩
/-- R488 -/ def Reg.RING_CFG_LOG2 : Fld := ⟨452, 4, .rw, 6⟩
/-- R488 -/ def Reg.RING_CFG_VEC : Fld := ⟨456, 6, .rw, 0⟩
/-- R488 -/ def Reg.RING_CFG_MOD : Fld := ⟨462, 10, .rw, 0⟩
/-- R488 -/ def Reg.RING_CFG_CPL : Fld := ⟨472, 6, .rw, 0⟩
/-- R488 -/ def Reg.RING_CFG_PORT : Fld := ⟨478, 1, .rw, 0⟩
/-- R488 -/ def Reg.RING_CFG_EN : Fld := ⟨479, 1, .rw, 0⟩
/-- R488 -/ def Reg.RING_STAT_LOST : Fld := ⟨480, 16, .w1c, 0⟩
/-- R488 -/ def Reg.TELEM_SEL_CLASS : Fld := ⟨512, 2, .rw, 0⟩
/-- R488 -/ def Reg.TELEM_SEL_TS : Fld := ⟨514, 1, .rw, 0⟩
/-- R488 -/ def Reg.TELEM_SEL_REGIONS : Fld := ⟨520, 8, .rw, 255⟩
/-- R488 -/ def Reg.TELEM_SEL_DIV : Fld := ⟨528, 10, .rw, 64⟩
/-- R489 -/ def Reg.TIME_NS_NS : Fld := ⟨32768, 64, .ro, 0⟩
/-- R489 -/ def Reg.TIME_FRAC_FRAC : Fld := ⟨32832, 32, .ro, 0⟩
/-- R489 -/ def Reg.TIME_INCR_INCR : Fld := ⟨32896, 40, .rw, 34359738368⟩
/-- R489 -/ def Reg.TIME_STEP_STEP : Fld := ⟨32960, 64, .wo, 0⟩
/-- R489 -/ def Reg.TIME_CTL_STEP_MAX_RUN : Fld := ⟨33024, 10, .rw, 100⟩
/-- R489 -/ def Reg.TIME_CTL_PEER_TOL : Fld := ⟨33040, 10, .rw, 50⟩
/-- R489 -/ def Reg.TIME_CTL_TYLEK : Fld := ⟨33055, 1, .rw, 0⟩
/-- R489 -/ def Reg.TIME_STAT_DISCONT : Fld := ⟨33056, 1, .w1c, 0⟩
/-- R489 -/ def Reg.TIME_STAT_INCR_REFUSED : Fld := ⟨33057, 1, .w1c, 0⟩
/-- R489 -/ def Reg.TIME_STAT_STEP_ARMED : Fld := ⟨33058, 1, .ro, 0⟩
/-- R489 -/ def Reg.TIME_STAT_STEP_REFUSED : Fld := ⟨33059, 1, .w1c, 0⟩
/-- R489 -/ def Reg.TIME_STAT_PEER_VALID : Fld := ⟨33060, 1, .ro, 0⟩
/-- R489 -/ def Reg.TIME_STAT_PPS_LOST : Fld := ⟨33061, 1, .w1c, 0⟩
/-- R489 -/ def Reg.TIME_STAT_TEVT_LATE : Fld := ⟨33062, 1, .w1c, 0⟩
/-- R489 -/ def Reg.TIME_STAT_TEVT_LOST : Fld := ⟨33072, 8, .w1c, 0⟩
/-- R489 -/ def Reg.TIME_PEER_OFS_OFS : Fld := ⟨33088, 32, .ro, 0⟩
/-- R489 -/ def Reg.CTRL_PERIOD_NS : Fld := ⟨33120, 16, .rwc, 10000⟩
/-- R489 -/ def Reg.EPOCH_PHASE_PHASE : Fld := ⟨33152, 16, .rwc, 0⟩
/-- R489 -/ def Reg.BEACON_LEAD_LEAD : Fld := ⟨33184, 15, .rwc, 2000⟩
/-- R489 -/ def Reg.TIME_PN_PN : Fld := ⟨33216, 64, .ro, 0⟩
/-- R489 -/ def Reg.PPS_OUT_CFG_OFFSET : Fld := ⟨33280, 13, .rw, 0⟩
/-- R489 -/ def Reg.PPS_OUT_CFG_EN : Fld := ⟨33311, 1, .rw, 0⟩
/-- R489 -/ def Reg.PPS_OUT_CFG_WIDTH : Fld := ⟨33312, 19, .rw, 100000⟩
/-- R489 -/ def Reg.PPS_IN_CFG_EN : Fld := ⟨33344, 1, .rw, 0⟩
/-- R489 -/ def Reg.PPS_IN_TS_TS : Fld := ⟨33408, 96, .ro, 0⟩
/-- R489 -/ def Reg.TEVT_TS0_TS : Fld := ⟨33536, 96, .ro, 0⟩
/-- R489 -/ def Reg.TEVT_TS1_TS : Fld := ⟨33664, 96, .ro, 0⟩
/-- R489 -/ def Reg.TEVT_OUT_CFG_WIDTH : Fld := ⟨33760, 17, .rw, 125⟩
/-- R489 -/ def Reg.TEVT_OUT_TIME2_TIME : Fld := ⟨33792, 64, .rw, 0⟩
/-- R489 -/ def Reg.TEVT_OUT_TIME3_TIME : Fld := ⟨33856, 64, .rw, 0⟩
/-- R490 -/ def Reg.STN_LAT0_TX_ADJ : Fld := ⟨65536, 16, .rw, 0⟩
/-- R490 -/ def Reg.STN_LAT1_TX_ADJ : Fld := ⟨65568, 16, .rw, 0⟩
/-- R490 -/ def Reg.STN_LAT0_RX_ADJ : Fld := ⟨65552, 16, .rw, 0⟩
/-- R490 -/ def Reg.STN_LAT1_RX_ADJ : Fld := ⟨65584, 16, .rw, 0⟩
/-- R490 -/ def Reg.STN_GOOSE_OFS : Fld := ⟨65600, 16, .rw, 0⟩
/-- R490 -/ def Reg.STN_TAB_BASE_BASE : Fld := ⟨65632, 23, .rwc, 262144⟩
/-- R490 -/ def Reg.SV_SEL_N : Fld := ⟨65664, 5, .rw, 0⟩
/-- R490 -/ def Reg.SV_CFG_EN : Fld := ⟨65696, 1, .rw, 0⟩
/-- R490 -/ def Reg.SV_CFG_LOSS_N : Fld := ⟨65704, 8, .rw, 3⟩
/-- R490 -/ def Reg.SV_RATE_RATE : Fld := ⟨65728, 17, .rw, 4800⟩
/-- R490 -/ def Reg.SV_LAT_LAT : Fld := ⟨65760, 24, .rw, 0⟩
/-- R490 -/ def Reg.SV_STAT_GAP : Fld := ⟨65792, 16, .w1c, 0⟩
/-- R490 -/ def Reg.SV_STAT_LOST : Fld := ⟨65808, 1, .ro, 0⟩
/-- R490 -/ def Reg.GOOSE_SEL_N : Fld := ⟨65824, 3, .rw, 0⟩
/-- R490 -/ def Reg.GOOSE_T1_T1 : Fld := ⟨65856, 17, .rw, 1000⟩
/-- R490 -/ def Reg.GOOSE_T0_T0 : Fld := ⟨65888, 16, .rw, 1000⟩
/-- R491 -/ def Reg.MIRR_AUTH_EPOCH : Fld := ⟨98304, 32, .ro, 0⟩
/-- R491 -/ def Reg.MIRR_CFG_AUTO : Fld := ⟨98368, 1, .rw, 1⟩
/-- R491 -/ def Reg.MIRR_CFG_LOSS_N : Fld := ⟨98372, 4, .rw, 1⟩
/-- R491 -/ def Reg.MIRR_CFG_CLAIM_N : Fld := ⟨98376, 4, .rw, 2⟩
/-- R491 -/ def Reg.MIRR_CFG_MISS_N : Fld := ⟨98380, 4, .rw, 3⟩
/-- R491 -/ def Reg.MIRR_CFG_CLAIM_TMO : Fld := ⟨98384, 8, .rw, 8⟩
/-- R491 -/ def Reg.MIRR_CFG_APPLY : Fld := ⟨98400, 16, .rwc, 4000⟩
/-- R491 -/ def Reg.MIRR_CMD_HANDOVER : Fld := ⟨98432, 56, .wo, 0⟩
/-- R491 -/ def Reg.MIRR_CMD_REQ_YIELD : Fld := ⟨98488, 1, .wo, 0⟩
/-- R491 -/ def Reg.MIRR_CMD_CLAIM : Fld := ⟨98489, 1, .wo, 0⟩
/-- R491 -/ def Reg.MIRR_STAT_LINK_UP : Fld := ⟨98496, 1, .ro, 0⟩
/-- R491 -/ def Reg.MIRR_STAT_CMD_ERR : Fld := ⟨98497, 1, .w1c, 0⟩
/-- R491 -/ def Reg.MIRR_STAT_COPY_MISS : Fld := ⟨98528, 16, .w1c, 0⟩
/-- R491 -/ def Reg.MIRR_STAT_CLAIM_REFUSED : Fld := ⟨98544, 16, .w1c, 0⟩
/-- R491 -/ def Reg.MIRR_LAT_LAT : Fld := ⟨98560, 16, .ro, 0⟩
/-- R492 -/ def Reg.MODE_CMD_TARGET : Fld := ⟨131072, 4, .wo, 0⟩
/-- R492 -/ def Reg.MODE_CMD_FULL_RESET : Fld := ⟨131103, 1, .wo, 0⟩
/-- R492 -/ def Reg.MODE_STAT_MODE : Fld := ⟨131104, 4, .ro, 0⟩
/-- R492 -/ def Reg.MODE_STAT_PSTATE : Fld := ⟨131108, 2, .ro, 0⟩
/-- R492 -/ def Reg.MODE_STAT_RESULT : Fld := ⟨131112, 3, .ro, 0⟩
/-- R492 -/ def Reg.MODE_STAT_PWR_BUSY : Fld := ⟨131116, 1, .ro, 0⟩
/-- R492 -/ def Reg.MODE_STAT_DEGRADED : Fld := ⟨131117, 1, .ro, 0⟩
/-- R492 -/ def Reg.MODE_RT_EN : Fld := ⟨131136, 1, .rw, 0⟩
/-- R492 -/ def Reg.MODE_RT_SUB : Fld := ⟨131140, 4, .rw, 0⟩
/-- R492 -/ def Reg.MODE_RT_MEMBER : Fld := ⟨131144, 5, .rw, 0⟩
/-- R492 -/ def Reg.MODE_RT_HOLD : Fld := ⟨131152, 16, .rw, 1000⟩
/-- R492 -/ def Reg.LAT_TOL_TOL : Fld := ⟨131168, 32, .rw, 0⟩
/-- R492 -/ def Reg.PWR_CFG_GLIM_EN : Fld := ⟨131200, 1, .rw, 0⟩
/-- R492 -/ def Reg.PWR_CFG_DORM_EN : Fld := ⟨131201, 1, .rw, 0⟩
/-- R492 -/ def Reg.PWR_CFG_RESUME_TMO : Fld := ⟨131208, 7, .rw, 3⟩
/-- R492 -/ def Reg.PWR_CFG_IDLE_DLY : Fld := ⟨131216, 16, .rw, 1⟩
/-- R492 -/ def Reg.PWR_CFG_RETRY_INT : Fld := ⟨131232, 16, .rw, 10⟩
/-- R492 -/ def Reg.PWR_STAT_REFUSED_BY : Fld := ⟨131264, 11, .ro, 0⟩
/-- R492 -/ def Reg.PWR_STAT_ERR : Fld := ⟨131295, 1, .w1c, 0⟩
/-- R492 -/ def Reg.WAKE_CFG_EN : Fld := ⟨131297, 6, .rw, 63⟩
/-- R492 -/ def Reg.WAKE_CFG_SEV : Fld := ⟨131304, 3, .rw, 5⟩
/-- R492 -/ def Reg.WAKE_STAT_CAUSE : Fld := ⟨131328, 3, .ro, 0⟩
/-- R492 -/ def Reg.WAKE_STAT_HELD : Fld := ⟨131336, 1, .ro, 0⟩
/-- R492 -/ def Reg.AVS_CFG_CLK : Fld := ⟨131392, 5, .rw, 10⟩
/-- R492 -/ def Reg.AVS_CFG_POLL : Fld := ⟨131397, 1, .rw, 0⟩
/-- R492 -/ def Reg.AVS_CFG_RETRY : Fld := ⟨131400, 3, .rw, 2⟩
/-- R492 -/ def Reg.AVS_CFG_ACK_TMO : Fld := ⟨131408, 14, .rw, 1000⟩
/-- R492 -/ def Reg.AVS_CFG_RLO : Fld := ⟨131424, 16, .rw, 17203⟩
/-- R492 -/ def Reg.AVS_CFG_RHI : Fld := ⟨131440, 16, .rw, 18841⟩
/-- R492 -/ def Reg.AVS_CFG_INT : Fld := ⟨131456, 10, .rw, 100⟩
/-- R492 -/ def Reg.AVS_CFG_STEP : Fld := ⟨131472, 5, .rw, 5⟩
/-- R492 -/ def Reg.AVS_CFG_MARGIN : Fld := ⟨131480, 6, .rw, 10⟩
/-- R492 -/ def Reg.AVS_LIM_MIN : Fld := ⟨131488, 10, .rw, 600⟩
/-- R492 -/ def Reg.AVS_LIM_MAX : Fld := ⟨131504, 10, .rw, 900⟩
/-- R492 -/ def Reg.AVS_TGT_GLIM : Fld := ⟨131520, 10, .rw, 660⟩
/-- R492 -/ def Reg.AVS_TGT_DORM : Fld := ⟨131536, 10, .rw, 600⟩
/-- R492 -/ def Reg.AVS_TGT_SERDES : Fld := ⟨131552, 10, .rw, 850⟩
/-- R492 -/ def Reg.AVS_TGT_SER_DORM : Fld := ⟨131568, 10, .rw, 700⟩
/-- R492 -/ def Reg.AVS_STAT_CORE : Fld := ⟨131584, 10, .ro, 800⟩
/-- R492 -/ def Reg.AVS_STAT_SER : Fld := ⟨131600, 10, .ro, 850⟩
/-- R492 -/ def Reg.AVS_STAT_NACK : Fld := ⟨131615, 1, .ro, 0⟩
/-- R492 -/ def Reg.AVS_CAL_INT : Fld := ⟨131616, 12, .rw, 60⟩
/-- R492 -/ def Reg.BOOT_STAT_UNIT : Fld := ⟨131648, 1, .ro, 0⟩
/-- R492 -/ def Reg.BOOT_STAT_BOOT : Fld := ⟨131649, 2, .ro, 0⟩
/-- R492 -/ def Reg.BOOT_STAT_ERR : Fld := ⟨131652, 3, .ro, 0⟩
/-- R492 -/ def Reg.BOOT_STAT_UNIT_CLASH : Fld := ⟨131656, 1, .ro, 0⟩
/-- R492 -/ def Reg.BOOT_CTL_OWNER : Fld := ⟨131680, 1, .rw, 0⟩
/-- R492 -/ def Reg.SELFTEST_STAT_FAIL : Fld := ⟨131712, 11, .ro, 0⟩
/-- R492 -/ def Reg.SELFTEST_STAT_REGION : Fld := ⟨131728, 3, .ro, 0⟩
/-- R492 -/ def Reg.SELFTEST_STAT_PASS : Fld := ⟨131743, 1, .ro, 0⟩
/-- R492 -/ def Reg.ENUM_CFG_SPREAD : Fld := ⟨131776, 7, .rw, 32⟩
/-- R492 -/ def Reg.ENUM_CFG_OFS_N : Fld := ⟨131784, 6, .rw, 40⟩
/-- R492 -/ def Reg.ENUM_CFG_TRY : Fld := ⟨131792, 3, .rw, 3⟩
/-- R492 -/ def Reg.ENUM_CFG_ADDR_MAX : Fld := ⟨131795, 13, .rw, 1024⟩
/-- R492 -/ def Reg.ENUM_CFG_TMO : Fld := ⟨131808, 20, .rw, 5000⟩
/-- R492 -/ def Reg.CONV_ARMS0_ARMS : Fld := ⟨131840, 32, .rwc, 0⟩
/-- R492 -/ def Reg.CONV_ARMS1_ARMS : Fld := ⟨131872, 32, .rwc, 0⟩
/-- R492 -/ def Reg.CONV_ARMS2_ARMS : Fld := ⟨131904, 32, .rwc, 0⟩
/-- R492 -/ def Reg.CONV_ARMS3_ARMS : Fld := ⟨131936, 32, .rwc, 0⟩
/-- R492 -/ def Reg.CONV_ARMS4_ARMS : Fld := ⟨131968, 32, .rwc, 0⟩
/-- R492 -/ def Reg.CONV_ARMS5_ARMS : Fld := ⟨132000, 32, .rwc, 0⟩
/-- R492 -/ def Reg.CONV_ARMS6_ARMS : Fld := ⟨132032, 32, .rwc, 0⟩
/-- R492 -/ def Reg.CONV_ARMS7_ARMS : Fld := ⟨132064, 32, .rwc, 0⟩
/-- R493 -/ def Reg.CFLT_SEV_S0 : Fld := ⟨163840, 3, .rw, 7⟩
/-- R493 -/ def Reg.CFLT_SEV_S1 : Fld := ⟨163844, 3, .rw, 7⟩
/-- R493 -/ def Reg.CFLT_SEV_S2 : Fld := ⟨163848, 3, .rw, 6⟩
/-- R493 -/ def Reg.CFLT_SEV_S3 : Fld := ⟨163852, 3, .rw, 3⟩
/-- R493 -/ def Reg.CFLT_SEV_S4 : Fld := ⟨163856, 3, .rw, 2⟩
/-- R493 -/ def Reg.CFLT_SEV_S5 : Fld := ⟨163860, 3, .rw, 2⟩
/-- R493 -/ def Reg.CFLT_SEV_S6 : Fld := ⟨163864, 3, .rw, 3⟩
/-- R493 -/ def Reg.CFLT_SEV_S7 : Fld := ⟨163868, 3, .rw, 3⟩
/-- R493 -/ def Reg.CFLT_SEV_S8 : Fld := ⟨163872, 3, .rw, 6⟩
/-- R493 -/ def Reg.CFLT_SEV_S9 : Fld := ⟨163876, 3, .rw, 6⟩
/-- R493 -/ def Reg.CFLT_SEV_S10 : Fld := ⟨163880, 3, .rw, 6⟩
/-- R493 -/ def Reg.CFLT_SEV_S11 : Fld := ⟨163884, 3, .rw, 6⟩
/-- R493 -/ def Reg.CFLT_SEV_S12 : Fld := ⟨163888, 3, .rw, 3⟩
/-- R493 -/ def Reg.CFLT_SEV_S13 : Fld := ⟨163892, 3, .rw, 3⟩
/-- R493 -/ def Reg.CFLT_SEV_S14 : Fld := ⟨163896, 3, .rw, 6⟩
/-- R493 -/ def Reg.CFLT_SEV_S15 : Fld := ⟨163900, 3, .rw, 3⟩
/-- R493 -/ def Reg.CFLT_SEV_S16 : Fld := ⟨163904, 3, .rw, 2⟩
/-- R493 -/ def Reg.CFLT_SEV_S17 : Fld := ⟨163908, 3, .rw, 7⟩
/-- R493 -/ def Reg.CFLT_SEV_S18 : Fld := ⟨163912, 3, .rw, 2⟩
/-- R493 -/ def Reg.CFLT_STICKY0 : Fld := ⟨164096, 32, .w1cBits, 0⟩
/-- R493 -/ def Reg.CFLT_STICKY1 : Fld := ⟨164128, 32, .w1cBits, 0⟩
/-- R493 -/ def Reg.CFLT_STICKY2 : Fld := ⟨164160, 32, .w1cBits, 0⟩
/-- R493 -/ def Reg.CFLT_STICKY3 : Fld := ⟨164192, 32, .w1cBits, 0⟩
/-- R493 -/ def Reg.CFLT_ACT0 : Fld := ⟨164224, 32, .ro, 0⟩
/-- R493 -/ def Reg.CFLT_ACT1 : Fld := ⟨164256, 32, .ro, 0⟩
/-- R493 -/ def Reg.CFLT_ACT2 : Fld := ⟨164288, 32, .ro, 0⟩
/-- R493 -/ def Reg.CFLT_ACT3 : Fld := ⟨164320, 32, .ro, 0⟩
/-- R345 -/ def Reg.CFLT_FIRST_SOURCE : Fld := ⟨164352, 8, .ro, 0⟩
/-- R345 -/ def Reg.CFLT_FIRST_LEVEL : Fld := ⟨164360, 2, .ro, 0⟩
/-- R345 -/ def Reg.CFLT_FIRST_SEVERITY : Fld := ⟨164362, 3, .ro, 0⟩
/-- R345 -/ def Reg.CFLT_FIRST_VALID : Fld := ⟨164383, 1, .w1c, 0⟩
/-- R493 -/ def Reg.CFLT_FIRST_TS_NS : Fld := ⟨164416, 64, .ro, 0⟩
/-- R493 -/ def Reg.CFLT_STAT_OVF : Fld := ⟨164480, 1, .w1c, 0⟩
/-- R493 -/ def Reg.CFLT_STAT_EV_LOST : Fld := ⟨164496, 16, .w1c, 0⟩
/-- R493 -/ def Reg.CFLT_TRIPIN_FILT : Fld := ⟨164544, 7, .rw, 12⟩
/-- R493 -/ def Reg.CFLT_TRIPIN_CONV0 : Fld := ⟨164576, 8, .rwc, 0⟩
/-- R493 -/ def Reg.CFLT_TRIPIN_CONV1 : Fld := ⟨164584, 8, .rwc, 0⟩
/-- R493 -/ def Reg.CFLT_TRIPIN_CONV2 : Fld := ⟨164592, 8, .rwc, 0⟩
/-- R493 -/ def Reg.CFLT_TRIPIN_CONV3 : Fld := ⟨164600, 8, .rwc, 0⟩
/-- R493 -/ def Reg.CFLT_TRIPOUT_SEV0 : Fld := ⟨164608, 3, .rw, 7⟩
/-- R493 -/ def Reg.CFLT_TRIPOUT_SEV1 : Fld := ⟨164612, 3, .rw, 7⟩
/-- R493 -/ def Reg.CFLT_TRIPOUT_SEV2 : Fld := ⟨164616, 3, .rw, 7⟩
/-- R493 -/ def Reg.CFLT_TRIPOUT_SEV3 : Fld := ⟨164620, 3, .rw, 7⟩
/-- R493 -/ def Reg.CFLT_TRIPOUT_CLR : Fld := ⟨164624, 4, .wo, 0⟩
/-- R493 -/ def Reg.CFLT_TRIPOUT_ASSERTED : Fld := ⟨164632, 4, .ro, 0⟩
/-- R493 -/ def Reg.CFLT_REC_QUIET_TIME : Fld := ⟨164672, 16, .rw, 100⟩
/-- R493 -/ def Reg.CFLT_REC_THR : Fld := ⟨164688, 3, .rw, 5⟩
/-- R493 -/ def Reg.CFLT_REC_REC_LIMIT : Fld := ⟨164692, 4, .rw, 3⟩
/-- R493 -/ def Reg.CFLT_REC_REC_WINDOW : Fld := ⟨164704, 17, .rw, 60⟩
/-- R493 -/ def Reg.CFLT_REC_UNLATCH : Fld := ⟨164735, 1, .wo, 0⟩
/-- R493 -/ def Reg.CFLT_REC_STAT_REC_COUNT : Fld := ⟨164736, 16, .w1c, 0⟩
/-- R493 -/ def Reg.CFLT_REC_STAT_LATCHED : Fld := ⟨164767, 1, .ro, 0⟩
/-- R494 -/ def Reg.SEC_OWNER_HASH0 : Fld := ⟨196608, 32, .rw, 0⟩
/-- R494 -/ def Reg.SEC_OWNER_HASH1 : Fld := ⟨196640, 32, .rw, 0⟩
/-- R494 -/ def Reg.SEC_OWNER_HASH2 : Fld := ⟨196672, 32, .rw, 0⟩
/-- R494 -/ def Reg.SEC_OWNER_HASH3 : Fld := ⟨196704, 32, .rw, 0⟩
/-- R494 -/ def Reg.SEC_OWNER_HASH4 : Fld := ⟨196736, 32, .rw, 0⟩
/-- R494 -/ def Reg.SEC_OWNER_HASH5 : Fld := ⟨196768, 32, .rw, 0⟩
/-- R494 -/ def Reg.SEC_OWNER_HASH6 : Fld := ⟨196800, 32, .rw, 0⟩
/-- R494 -/ def Reg.SEC_OWNER_HASH7 : Fld := ⟨196832, 32, .rw, 0⟩
/-- R494 -/ def Reg.SEC_OWNER_HASH8 : Fld := ⟨196864, 32, .rw, 0⟩
/-- R494 -/ def Reg.SEC_OWNER_HASH9 : Fld := ⟨196896, 32, .rw, 0⟩
/-- R494 -/ def Reg.SEC_OWNER_HASH10 : Fld := ⟨196928, 32, .rw, 0⟩
/-- R494 -/ def Reg.SEC_OWNER_HASH11 : Fld := ⟨196960, 32, .rw, 0⟩
/-- R494 -/ def Reg.SEC_CTL_COMMIT : Fld := ⟨196992, 1, .wo, 0⟩
/-- R494 -/ def Reg.SEC_CTL_SVN_RAISE : Fld := ⟨196993, 1, .wo, 0⟩
/-- R494 -/ def Reg.SEC_STAT_OWNER_SET : Fld := ⟨197024, 1, .ro, 0⟩
/-- R494 -/ def Reg.SEC_STAT_ENDORSED : Fld := ⟨197025, 1, .ro, 0⟩
/-- R494 -/ def Reg.SEC_STAT_PATCH_ERR : Fld := ⟨197026, 1, .ro, 0⟩
/-- R494 -/ def Reg.SEC_STAT_UNLOCKED : Fld := ⟨197027, 1, .ro, 0⟩
/-- R494 -/ def Reg.SEC_SVN_MIN_SVN : Fld := ⟨197056, 64, .ro, 0⟩
/-- R494 -/ def Reg.SEC_SERIAL_SERIAL : Fld := ⟨197120, 64, .ro, 0⟩
/-- R494 -/ def Reg.CLAUSE_STAT_STAGED : Fld := ⟨229376, 1, .ro, 0⟩
/-- R494 -/ def Reg.CLAUSE_STAT_CHECKED : Fld := ⟨229377, 1, .ro, 0⟩
/-- R494 -/ def Reg.CLAUSE_STAT_ARMED : Fld := ⟨229378, 1, .ro, 0⟩
/-- R494 -/ def Reg.CLAUSE_STAT_ID : Fld := ⟨229392, 12, .ro, 0⟩
/-- R494 -/ def Reg.CLAUSE_STAT_EPOCH : Fld := ⟨229440, 64, .ro, 0⟩
/-- R494 -/ def Reg.CLAUSE_STAT_EST : Fld := ⟨229504, 64, .ro, 0⟩

/-- Part of the table of fields. -/
def Reg.table0 : List Fld :=
  [Reg.CHIP_ID_DEVICE, Reg.CHIP_ID_REV, Reg.CHIP_ID_DIES, Reg.HOST_CFG_CMD_MAX, Reg.HOST_CFG_FAIL_N, Reg.HOST_STAT_DB_SKIP, Reg.HOST_STAT_CFG_ERR, Reg.HOST_STAT_WEDGED, Reg.RX_CFG_OTHER, Reg.HOST_DB_BASE, Reg.HOST_DB_OFS, Reg.HOST_DB_POLL_INT, Reg.RING_SEL_N, Reg.RING_BASE_BASE, Reg.RING_BUF_BUF, Reg.RING_CFG_KIND, Reg.RING_CFG_LOG2, Reg.RING_CFG_VEC, Reg.RING_CFG_MOD, Reg.RING_CFG_CPL, Reg.RING_CFG_PORT, Reg.RING_CFG_EN, Reg.RING_STAT_LOST, Reg.TELEM_SEL_CLASS]
/-- Part of the table of fields. -/
def Reg.table1 : List Fld :=
  [Reg.TELEM_SEL_TS, Reg.TELEM_SEL_REGIONS, Reg.TELEM_SEL_DIV, Reg.TIME_NS_NS, Reg.TIME_FRAC_FRAC, Reg.TIME_INCR_INCR, Reg.TIME_STEP_STEP, Reg.TIME_CTL_STEP_MAX_RUN, Reg.TIME_CTL_PEER_TOL, Reg.TIME_CTL_TYLEK, Reg.TIME_STAT_DISCONT, Reg.TIME_STAT_INCR_REFUSED, Reg.TIME_STAT_STEP_ARMED, Reg.TIME_STAT_STEP_REFUSED, Reg.TIME_STAT_PEER_VALID, Reg.TIME_STAT_PPS_LOST, Reg.TIME_STAT_TEVT_LATE, Reg.TIME_STAT_TEVT_LOST, Reg.TIME_PEER_OFS_OFS, Reg.CTRL_PERIOD_NS, Reg.EPOCH_PHASE_PHASE, Reg.BEACON_LEAD_LEAD, Reg.TIME_PN_PN, Reg.PPS_OUT_CFG_OFFSET]
/-- Part of the table of fields. -/
def Reg.table2 : List Fld :=
  [Reg.PPS_OUT_CFG_EN, Reg.PPS_OUT_CFG_WIDTH, Reg.PPS_IN_CFG_EN, Reg.PPS_IN_TS_TS, Reg.TEVT_TS0_TS, Reg.TEVT_TS1_TS, Reg.TEVT_OUT_CFG_WIDTH, Reg.TEVT_OUT_TIME2_TIME, Reg.TEVT_OUT_TIME3_TIME, Reg.STN_LAT0_TX_ADJ, Reg.STN_LAT1_TX_ADJ, Reg.STN_LAT0_RX_ADJ, Reg.STN_LAT1_RX_ADJ, Reg.STN_GOOSE_OFS, Reg.STN_TAB_BASE_BASE, Reg.SV_SEL_N, Reg.SV_CFG_EN, Reg.SV_CFG_LOSS_N, Reg.SV_RATE_RATE, Reg.SV_LAT_LAT, Reg.SV_STAT_GAP, Reg.SV_STAT_LOST, Reg.GOOSE_SEL_N, Reg.GOOSE_T1_T1]
/-- Part of the table of fields. -/
def Reg.table3 : List Fld :=
  [Reg.GOOSE_T0_T0, Reg.MIRR_AUTH_EPOCH, Reg.MIRR_CFG_AUTO, Reg.MIRR_CFG_LOSS_N, Reg.MIRR_CFG_CLAIM_N, Reg.MIRR_CFG_MISS_N, Reg.MIRR_CFG_CLAIM_TMO, Reg.MIRR_CFG_APPLY, Reg.MIRR_CMD_HANDOVER, Reg.MIRR_CMD_REQ_YIELD, Reg.MIRR_CMD_CLAIM, Reg.MIRR_STAT_LINK_UP, Reg.MIRR_STAT_CMD_ERR, Reg.MIRR_STAT_COPY_MISS, Reg.MIRR_STAT_CLAIM_REFUSED, Reg.MIRR_LAT_LAT, Reg.MODE_CMD_TARGET, Reg.MODE_CMD_FULL_RESET, Reg.MODE_STAT_MODE, Reg.MODE_STAT_PSTATE, Reg.MODE_STAT_RESULT, Reg.MODE_STAT_PWR_BUSY, Reg.MODE_STAT_DEGRADED, Reg.MODE_RT_EN]
/-- Part of the table of fields. -/
def Reg.table4 : List Fld :=
  [Reg.MODE_RT_SUB, Reg.MODE_RT_MEMBER, Reg.MODE_RT_HOLD, Reg.LAT_TOL_TOL, Reg.PWR_CFG_GLIM_EN, Reg.PWR_CFG_DORM_EN, Reg.PWR_CFG_RESUME_TMO, Reg.PWR_CFG_IDLE_DLY, Reg.PWR_CFG_RETRY_INT, Reg.PWR_STAT_REFUSED_BY, Reg.PWR_STAT_ERR, Reg.WAKE_CFG_EN, Reg.WAKE_CFG_SEV, Reg.WAKE_STAT_CAUSE, Reg.WAKE_STAT_HELD, Reg.AVS_CFG_CLK, Reg.AVS_CFG_POLL, Reg.AVS_CFG_RETRY, Reg.AVS_CFG_ACK_TMO, Reg.AVS_CFG_RLO, Reg.AVS_CFG_RHI, Reg.AVS_CFG_INT, Reg.AVS_CFG_STEP, Reg.AVS_CFG_MARGIN]
/-- Part of the table of fields. -/
def Reg.table5 : List Fld :=
  [Reg.AVS_LIM_MIN, Reg.AVS_LIM_MAX, Reg.AVS_TGT_GLIM, Reg.AVS_TGT_DORM, Reg.AVS_TGT_SERDES, Reg.AVS_TGT_SER_DORM, Reg.AVS_STAT_CORE, Reg.AVS_STAT_SER, Reg.AVS_STAT_NACK, Reg.AVS_CAL_INT, Reg.BOOT_STAT_UNIT, Reg.BOOT_STAT_BOOT, Reg.BOOT_STAT_ERR, Reg.BOOT_STAT_UNIT_CLASH, Reg.BOOT_CTL_OWNER, Reg.SELFTEST_STAT_FAIL, Reg.SELFTEST_STAT_REGION, Reg.SELFTEST_STAT_PASS, Reg.ENUM_CFG_SPREAD, Reg.ENUM_CFG_OFS_N, Reg.ENUM_CFG_TRY, Reg.ENUM_CFG_ADDR_MAX, Reg.ENUM_CFG_TMO, Reg.CONV_ARMS0_ARMS]
/-- Part of the table of fields. -/
def Reg.table6 : List Fld :=
  [Reg.CONV_ARMS1_ARMS, Reg.CONV_ARMS2_ARMS, Reg.CONV_ARMS3_ARMS, Reg.CONV_ARMS4_ARMS, Reg.CONV_ARMS5_ARMS, Reg.CONV_ARMS6_ARMS, Reg.CONV_ARMS7_ARMS, Reg.CFLT_SEV_S0, Reg.CFLT_SEV_S1, Reg.CFLT_SEV_S2, Reg.CFLT_SEV_S3, Reg.CFLT_SEV_S4, Reg.CFLT_SEV_S5, Reg.CFLT_SEV_S6, Reg.CFLT_SEV_S7, Reg.CFLT_SEV_S8, Reg.CFLT_SEV_S9, Reg.CFLT_SEV_S10, Reg.CFLT_SEV_S11, Reg.CFLT_SEV_S12, Reg.CFLT_SEV_S13, Reg.CFLT_SEV_S14, Reg.CFLT_SEV_S15, Reg.CFLT_SEV_S16]
/-- Part of the table of fields. -/
def Reg.table7 : List Fld :=
  [Reg.CFLT_SEV_S17, Reg.CFLT_SEV_S18, Reg.CFLT_STICKY0, Reg.CFLT_STICKY1, Reg.CFLT_STICKY2, Reg.CFLT_STICKY3, Reg.CFLT_ACT0, Reg.CFLT_ACT1, Reg.CFLT_ACT2, Reg.CFLT_ACT3, Reg.CFLT_FIRST_SOURCE, Reg.CFLT_FIRST_LEVEL, Reg.CFLT_FIRST_SEVERITY, Reg.CFLT_FIRST_VALID, Reg.CFLT_FIRST_TS_NS, Reg.CFLT_STAT_OVF, Reg.CFLT_STAT_EV_LOST, Reg.CFLT_TRIPIN_FILT, Reg.CFLT_TRIPIN_CONV0, Reg.CFLT_TRIPIN_CONV1, Reg.CFLT_TRIPIN_CONV2, Reg.CFLT_TRIPIN_CONV3, Reg.CFLT_TRIPOUT_SEV0, Reg.CFLT_TRIPOUT_SEV1]
/-- Part of the table of fields. -/
def Reg.table8 : List Fld :=
  [Reg.CFLT_TRIPOUT_SEV2, Reg.CFLT_TRIPOUT_SEV3, Reg.CFLT_TRIPOUT_CLR, Reg.CFLT_TRIPOUT_ASSERTED, Reg.CFLT_REC_QUIET_TIME, Reg.CFLT_REC_THR, Reg.CFLT_REC_REC_LIMIT, Reg.CFLT_REC_REC_WINDOW, Reg.CFLT_REC_UNLATCH, Reg.CFLT_REC_STAT_REC_COUNT, Reg.CFLT_REC_STAT_LATCHED, Reg.SEC_OWNER_HASH0, Reg.SEC_OWNER_HASH1, Reg.SEC_OWNER_HASH2, Reg.SEC_OWNER_HASH3, Reg.SEC_OWNER_HASH4, Reg.SEC_OWNER_HASH5, Reg.SEC_OWNER_HASH6, Reg.SEC_OWNER_HASH7, Reg.SEC_OWNER_HASH8, Reg.SEC_OWNER_HASH9, Reg.SEC_OWNER_HASH10, Reg.SEC_OWNER_HASH11, Reg.SEC_CTL_COMMIT]
/-- Part of the table of fields. -/
def Reg.table9 : List Fld :=
  [Reg.SEC_CTL_SVN_RAISE, Reg.SEC_STAT_OWNER_SET, Reg.SEC_STAT_ENDORSED, Reg.SEC_STAT_PATCH_ERR, Reg.SEC_STAT_UNLOCKED, Reg.SEC_SVN_MIN_SVN, Reg.SEC_SERIAL_SERIAL, Reg.CLAUSE_STAT_STAGED, Reg.CLAUSE_STAT_CHECKED, Reg.CLAUSE_STAT_ARMED, Reg.CLAUSE_STAT_ID, Reg.CLAUSE_STAT_EPOCH, Reg.CLAUSE_STAT_EST]
/-- Every described field of this block. -/
def Reg.table : List Fld :=
  Reg.table0 ++
  Reg.table1 ++
  Reg.table2 ++
  Reg.table3 ++
  Reg.table4 ++
  Reg.table5 ++
  Reg.table6 ++
  Reg.table7 ++
  Reg.table8 ++
  Reg.table9

/-- The registers of more than one word (byte offset, number of words), R21 and R484. -/
def Reg.multi : List (Nat × Nat) :=
  [(16, 3), (40, 2), (48, 2), (4096, 2), (4112, 2), (4120, 2), (4152, 2), (4160, 2), (4176, 3), (4192, 3), (4208, 3), (4224, 2), (4232, 2), (12296, 2), (12304, 2), (12312, 2), (16400, 2), (16424, 3), (16440, 2), (16472, 2), (20552, 2), (20568, 2), (20584, 2), (24632, 2), (24640, 2), (28672, 6)]

/-! Region registers (R482, R495, R498-R500): bit address relative to the region base G. -/

/-- R495 -/ def Rgn.RGN_ID_DIE : Fld := ⟨0, 3, .ro, 0⟩
/-- R495 -/ def Rgn.RGN_ID_PRINCIPAL : Fld := ⟨8, 1, .ro, 0⟩
/-- R495 -/ def Rgn.LOOP_BASE_BASE : Fld := ⟨32, 23, .rwc, 65536⟩
/-- R495 -/ def Rgn.LOOP_CMD_LOOP : Fld := ⟨64, 6, .wo, 0⟩
/-- R495 -/ def Rgn.LOOP_CMD_ACTION : Fld := ⟨72, 2, .wo, 0⟩
/-- R495 -/ def Rgn.LOOP_STAT_REFUSED : Fld := ⟨96, 1, .w1c, 0⟩
/-- R495 -/ def Rgn.LOOP_STATE0_CLOSED : Fld := ⟨128, 32, .ro, 0⟩
/-- R495 -/ def Rgn.LOOP_STATE1_CLOSED : Fld := ⟨160, 32, .ro, 0⟩
/-- R495 -/ def Rgn.ENUM_STAT_LOG_HEAD : Fld := ⟨192, 10, .ro, 0⟩
/-- R495 -/ def Rgn.ENUM_TREE0_PHASE : Fld := ⟨256, 2, .ro, 0⟩
/-- R495 -/ def Rgn.ENUM_TREE1_PHASE : Fld := ⟨288, 2, .ro, 0⟩
/-- R495 -/ def Rgn.ENUM_TREE2_PHASE : Fld := ⟨320, 2, .ro, 0⟩
/-- R495 -/ def Rgn.ENUM_TREE3_PHASE : Fld := ⟨352, 2, .ro, 0⟩
/-- R495 -/ def Rgn.ENUM_TREE4_PHASE : Fld := ⟨384, 2, .ro, 0⟩
/-- R495 -/ def Rgn.ENUM_TREE5_PHASE : Fld := ⟨416, 2, .ro, 0⟩
/-- R495 -/ def Rgn.ENUM_TREE6_PHASE : Fld := ⟨448, 2, .ro, 0⟩
/-- R495 -/ def Rgn.ENUM_TREE7_PHASE : Fld := ⟨480, 2, .ro, 0⟩
/-- R495 -/ def Rgn.ENUM_TREE8_PHASE : Fld := ⟨512, 2, .ro, 0⟩
/-- R495 -/ def Rgn.ENUM_TREE9_PHASE : Fld := ⟨544, 2, .ro, 0⟩
/-- R495 -/ def Rgn.ENUM_TREE10_PHASE : Fld := ⟨576, 2, .ro, 0⟩
/-- R495 -/ def Rgn.ENUM_TREE11_PHASE : Fld := ⟨608, 2, .ro, 0⟩
/-- R495 -/ def Rgn.ENUM_TREE12_PHASE : Fld := ⟨640, 2, .ro, 0⟩
/-- R495 -/ def Rgn.ENUM_TREE13_PHASE : Fld := ⟨672, 2, .ro, 0⟩
/-- R495 -/ def Rgn.ENUM_TREE14_PHASE : Fld := ⟨704, 2, .ro, 0⟩
/-- R495 -/ def Rgn.ENUM_TREE15_PHASE : Fld := ⟨736, 2, .ro, 0⟩
/-- R495 -/ def Rgn.ENUM_TREE16_PHASE : Fld := ⟨768, 2, .ro, 0⟩
/-- R495 -/ def Rgn.ENUM_TREE17_PHASE : Fld := ⟨800, 2, .ro, 0⟩
/-- R495 -/ def Rgn.ENUM_TREE18_PHASE : Fld := ⟨832, 2, .ro, 0⟩
/-- R495 -/ def Rgn.ENUM_TREE19_PHASE : Fld := ⟨864, 2, .ro, 0⟩
/-- R495 -/ def Rgn.ENUM_TREE20_PHASE : Fld := ⟨896, 2, .ro, 0⟩
/-- R495 -/ def Rgn.ENUM_TREE21_PHASE : Fld := ⟨928, 2, .ro, 0⟩
/-- R495 -/ def Rgn.ENUM_TREE22_PHASE : Fld := ⟨960, 2, .ro, 0⟩
/-- R495 -/ def Rgn.ENUM_TREE23_PHASE : Fld := ⟨992, 2, .ro, 0⟩
/-- R495 -/ def Rgn.ENUM_TREE24_PHASE : Fld := ⟨1024, 2, .ro, 0⟩
/-- R495 -/ def Rgn.ENUM_TREE25_PHASE : Fld := ⟨1056, 2, .ro, 0⟩
/-- R495 -/ def Rgn.ENUM_TREE26_PHASE : Fld := ⟨1088, 2, .ro, 0⟩
/-- R495 -/ def Rgn.ENUM_TREE27_PHASE : Fld := ⟨1120, 2, .ro, 0⟩
/-- R495 -/ def Rgn.ENUM_TREE28_PHASE : Fld := ⟨1152, 2, .ro, 0⟩
/-- R495 -/ def Rgn.ENUM_TREE29_PHASE : Fld := ⟨1184, 2, .ro, 0⟩
/-- R495 -/ def Rgn.ENUM_TREE30_PHASE : Fld := ⟨1216, 2, .ro, 0⟩
/-- R495 -/ def Rgn.ENUM_TREE31_PHASE : Fld := ⟨1248, 2, .ro, 0⟩
/-- R495 -/ def Rgn.ENUM_TREE0_DONE : Fld := ⟨264, 8, .ro, 0⟩
/-- R495 -/ def Rgn.ENUM_TREE1_DONE : Fld := ⟨296, 8, .ro, 0⟩
/-- R495 -/ def Rgn.ENUM_TREE2_DONE : Fld := ⟨328, 8, .ro, 0⟩
/-- R495 -/ def Rgn.ENUM_TREE3_DONE : Fld := ⟨360, 8, .ro, 0⟩
/-- R495 -/ def Rgn.ENUM_TREE4_DONE : Fld := ⟨392, 8, .ro, 0⟩
/-- R495 -/ def Rgn.ENUM_TREE5_DONE : Fld := ⟨424, 8, .ro, 0⟩
/-- R495 -/ def Rgn.ENUM_TREE6_DONE : Fld := ⟨456, 8, .ro, 0⟩
/-- R495 -/ def Rgn.ENUM_TREE7_DONE : Fld := ⟨488, 8, .ro, 0⟩
/-- R495 -/ def Rgn.ENUM_TREE8_DONE : Fld := ⟨520, 8, .ro, 0⟩
/-- R495 -/ def Rgn.ENUM_TREE9_DONE : Fld := ⟨552, 8, .ro, 0⟩
/-- R495 -/ def Rgn.ENUM_TREE10_DONE : Fld := ⟨584, 8, .ro, 0⟩
/-- R495 -/ def Rgn.ENUM_TREE11_DONE : Fld := ⟨616, 8, .ro, 0⟩
/-- R495 -/ def Rgn.ENUM_TREE12_DONE : Fld := ⟨648, 8, .ro, 0⟩
/-- R495 -/ def Rgn.ENUM_TREE13_DONE : Fld := ⟨680, 8, .ro, 0⟩
/-- R495 -/ def Rgn.ENUM_TREE14_DONE : Fld := ⟨712, 8, .ro, 0⟩
/-- R495 -/ def Rgn.ENUM_TREE15_DONE : Fld := ⟨744, 8, .ro, 0⟩
/-- R495 -/ def Rgn.ENUM_TREE16_DONE : Fld := ⟨776, 8, .ro, 0⟩
/-- R495 -/ def Rgn.ENUM_TREE17_DONE : Fld := ⟨808, 8, .ro, 0⟩
/-- R495 -/ def Rgn.ENUM_TREE18_DONE : Fld := ⟨840, 8, .ro, 0⟩
/-- R495 -/ def Rgn.ENUM_TREE19_DONE : Fld := ⟨872, 8, .ro, 0⟩
/-- R495 -/ def Rgn.ENUM_TREE20_DONE : Fld := ⟨904, 8, .ro, 0⟩
/-- R495 -/ def Rgn.ENUM_TREE21_DONE : Fld := ⟨936, 8, .ro, 0⟩
/-- R495 -/ def Rgn.ENUM_TREE22_DONE : Fld := ⟨968, 8, .ro, 0⟩
/-- R495 -/ def Rgn.ENUM_TREE23_DONE : Fld := ⟨1000, 8, .ro, 0⟩
/-- R495 -/ def Rgn.ENUM_TREE24_DONE : Fld := ⟨1032, 8, .ro, 0⟩
/-- R495 -/ def Rgn.ENUM_TREE25_DONE : Fld := ⟨1064, 8, .ro, 0⟩
/-- R495 -/ def Rgn.ENUM_TREE26_DONE : Fld := ⟨1096, 8, .ro, 0⟩
/-- R495 -/ def Rgn.ENUM_TREE27_DONE : Fld := ⟨1128, 8, .ro, 0⟩
/-- R495 -/ def Rgn.ENUM_TREE28_DONE : Fld := ⟨1160, 8, .ro, 0⟩
/-- R495 -/ def Rgn.ENUM_TREE29_DONE : Fld := ⟨1192, 8, .ro, 0⟩
/-- R495 -/ def Rgn.ENUM_TREE30_DONE : Fld := ⟨1224, 8, .ro, 0⟩
/-- R495 -/ def Rgn.ENUM_TREE31_DONE : Fld := ⟨1256, 8, .ro, 0⟩
/-- R495 -/ def Rgn.ENUM_TREE0_STALL : Fld := ⟨272, 1, .ro, 0⟩
/-- R495 -/ def Rgn.ENUM_TREE1_STALL : Fld := ⟨304, 1, .ro, 0⟩
/-- R495 -/ def Rgn.ENUM_TREE2_STALL : Fld := ⟨336, 1, .ro, 0⟩
/-- R495 -/ def Rgn.ENUM_TREE3_STALL : Fld := ⟨368, 1, .ro, 0⟩
/-- R495 -/ def Rgn.ENUM_TREE4_STALL : Fld := ⟨400, 1, .ro, 0⟩
/-- R495 -/ def Rgn.ENUM_TREE5_STALL : Fld := ⟨432, 1, .ro, 0⟩
/-- R495 -/ def Rgn.ENUM_TREE6_STALL : Fld := ⟨464, 1, .ro, 0⟩
/-- R495 -/ def Rgn.ENUM_TREE7_STALL : Fld := ⟨496, 1, .ro, 0⟩
/-- R495 -/ def Rgn.ENUM_TREE8_STALL : Fld := ⟨528, 1, .ro, 0⟩
/-- R495 -/ def Rgn.ENUM_TREE9_STALL : Fld := ⟨560, 1, .ro, 0⟩
/-- R495 -/ def Rgn.ENUM_TREE10_STALL : Fld := ⟨592, 1, .ro, 0⟩
/-- R495 -/ def Rgn.ENUM_TREE11_STALL : Fld := ⟨624, 1, .ro, 0⟩
/-- R495 -/ def Rgn.ENUM_TREE12_STALL : Fld := ⟨656, 1, .ro, 0⟩
/-- R495 -/ def Rgn.ENUM_TREE13_STALL : Fld := ⟨688, 1, .ro, 0⟩
/-- R495 -/ def Rgn.ENUM_TREE14_STALL : Fld := ⟨720, 1, .ro, 0⟩
/-- R495 -/ def Rgn.ENUM_TREE15_STALL : Fld := ⟨752, 1, .ro, 0⟩
/-- R495 -/ def Rgn.ENUM_TREE16_STALL : Fld := ⟨784, 1, .ro, 0⟩
/-- R495 -/ def Rgn.ENUM_TREE17_STALL : Fld := ⟨816, 1, .ro, 0⟩
/-- R495 -/ def Rgn.ENUM_TREE18_STALL : Fld := ⟨848, 1, .ro, 0⟩
/-- R495 -/ def Rgn.ENUM_TREE19_STALL : Fld := ⟨880, 1, .ro, 0⟩
/-- R495 -/ def Rgn.ENUM_TREE20_STALL : Fld := ⟨912, 1, .ro, 0⟩
/-- R495 -/ def Rgn.ENUM_TREE21_STALL : Fld := ⟨944, 1, .ro, 0⟩
/-- R495 -/ def Rgn.ENUM_TREE22_STALL : Fld := ⟨976, 1, .ro, 0⟩
/-- R495 -/ def Rgn.ENUM_TREE23_STALL : Fld := ⟨1008, 1, .ro, 0⟩
/-- R495 -/ def Rgn.ENUM_TREE24_STALL : Fld := ⟨1040, 1, .ro, 0⟩
/-- R495 -/ def Rgn.ENUM_TREE25_STALL : Fld := ⟨1072, 1, .ro, 0⟩
/-- R495 -/ def Rgn.ENUM_TREE26_STALL : Fld := ⟨1104, 1, .ro, 0⟩
/-- R495 -/ def Rgn.ENUM_TREE27_STALL : Fld := ⟨1136, 1, .ro, 0⟩
/-- R495 -/ def Rgn.ENUM_TREE28_STALL : Fld := ⟨1168, 1, .ro, 0⟩
/-- R495 -/ def Rgn.ENUM_TREE29_STALL : Fld := ⟨1200, 1, .ro, 0⟩
/-- R495 -/ def Rgn.ENUM_TREE30_STALL : Fld := ⟨1232, 1, .ro, 0⟩
/-- R495 -/ def Rgn.ENUM_TREE31_STALL : Fld := ⟨1264, 1, .ro, 0⟩
/-- R498 -/ def Rgn.DISP_CFG_STEAL_DELAY : Fld := ⟨98304, 10, .rw, 50⟩
/-- R498 -/ def Rgn.DISP_CFG_XSTEAL_DELAY : Fld := ⟨98314, 14, .rw, 1000⟩
/-- R498 -/ def Rgn.DISP_CFG_STEAL_EN : Fld := ⟨98328, 2, .rw, 3⟩
/-- R498 -/ def Rgn.DISP_DL_REPEAT_N : Fld := ⟨98336, 4, .rw, 3⟩
/-- R498 -/ def Rgn.DISP_GAUGE_RATIO : Fld := ⟨98368, 16, .ro, 0⟩
/-- R498 -/ def Rgn.DISP_SLACK_MIN : Fld := ⟨98400, 16, .ro, 32767⟩
/-- R498 -/ def Rgn.DISP_STAT_TRIG_DROP : Fld := ⟨98432, 16, .w1c, 0⟩
/-- R498 -/ def Rgn.DISP_STAT_ROB_WAIT : Fld := ⟨98448, 16, .w1c, 0⟩
/-- R498 -/ def Rgn.TRACE_CFG_EN : Fld := ⟨98464, 1, .rw, 0⟩
/-- R498 -/ def Rgn.TRACE_CFG_EVENTS : Fld := ⟨98472, 5, .rw, 31⟩
/-- R498 -/ def Rgn.TRACE_CFG_LEVELS : Fld := ⟨98480, 8, .rw, 255⟩
/-- R498 -/ def Rgn.TRACE_CFG_CLUSTERS : Fld := ⟨98488, 8, .rw, 255⟩
/-- R498 -/ def Rgn.TRACE_STAT_LOST : Fld := ⟨98496, 16, .w1c, 0⟩
/-- R498 -/ def Rgn.ENG_STAT_SAT_VERBS : Fld := ⟨98560, 16, .w1c, 0⟩
/-- R498 -/ def Rgn.ENG_STAT_WSAT_VERBS : Fld := ⟨98576, 16, .w1c, 0⟩
/-- R498 -/ def Rgn.ENG_STAT_ADDR_ERRS : Fld := ⟨98592, 16, .w1c, 0⟩
/-- R498 -/ def Rgn.DISP_GAUGE_K0_K : Fld := ⟨98816, 16, .ro, 16384⟩
/-- R498 -/ def Rgn.DISP_GAUGE_K1_K : Fld := ⟨98848, 16, .ro, 16384⟩
/-- R498 -/ def Rgn.DISP_GAUGE_K2_K : Fld := ⟨98880, 16, .ro, 16384⟩
/-- R498 -/ def Rgn.DISP_GAUGE_K3_K : Fld := ⟨98912, 16, .ro, 16384⟩
/-- R498 -/ def Rgn.DISP_GAUGE_K4_K : Fld := ⟨98944, 16, .ro, 16384⟩
/-- R498 -/ def Rgn.DISP_GAUGE_K5_K : Fld := ⟨98976, 16, .ro, 16384⟩
/-- R498 -/ def Rgn.DISP_GAUGE_K6_K : Fld := ⟨99008, 16, .ro, 16384⟩
/-- R498 -/ def Rgn.DISP_GAUGE_K7_K : Fld := ⟨99040, 16, .ro, 16384⟩
/-- R499 -/ def Rgn.RANK_BASE_BASE : Fld := ⟨131072, 23, .rwc, 2097152⟩
/-- R499 -/ def Rgn.RANK_CFG_PRED_MAX : Fld := ⟨131104, 8, .rwc, 16⟩
/-- R499 -/ def Rgn.RANK_CEST_TC : Fld := ⟨131136, 5, .rw, 10⟩
/-- R499 -/ def Rgn.RANK_CEST_REJ : Fld := ⟨131144, 3, .rw, 2⟩
/-- R499 -/ def Rgn.RANK_CEST_TOL : Fld := ⟨131148, 6, .rw, 10⟩
/-- R499 -/ def Rgn.RANK_CEST_DV : Fld := ⟨131156, 12, .rw, 256⟩
/-- R499 -/ def Rgn.RANK_STAT_OLD : Fld := ⟨131200, 16, .w1c, 0⟩
/-- R499 -/ def Rgn.RANK_STAT_INVALID : Fld := ⟨131216, 16, .w1c, 0⟩
/-- R499 -/ def Rgn.RANK_STAT_CEST_REJ : Fld := ⟨131232, 16, .w1c, 0⟩
/-- R499 -/ def Rgn.RANK_STAT_CAL_DONE : Fld := ⟨131248, 16, .w1c, 0⟩
/-- R499 -/ def Rgn.ENUM_MAP_BASE_BASE : Fld := ⟨229376, 23, .rwc, 1048576⟩
/-- R499 -/ def Rgn.CELL_ID_BASE_BASE : Fld := ⟨229408, 23, .rwc, 4194304⟩
/-- R499 -/ def Rgn.PWR_RET_BANKS : Fld := ⟨229440, 16, .rw, 65535⟩
/-- R499 -/ def Rgn.MEM_STAT_SRAM_CORR : Fld := ⟨229472, 16, .w1c, 0⟩
/-- R499 -/ def Rgn.MEM_STAT_MRAM_ERR : Fld := ⟨229488, 16, .w1c, 0⟩
/-- R499 -/ def Rgn.MEAS_LATCH_LATCH : Fld := ⟨196608, 16, .rwc, 6000⟩
/-- R499 -/ def Rgn.MEAS_CFG_MAX_AGE : Fld := ⟨196640, 14, .rw, 1000⟩
/-- R499 -/ def Rgn.MEAS_CFG_STALE_N : Fld := ⟨196656, 4, .rw, 3⟩
/-- R499 -/ def Rgn.MEAS_TAB_BASE_BASE : Fld := ⟨196672, 23, .rwc, 61440⟩
/-- R499 -/ def Rgn.PWR_GLIM_INT : Fld := ⟨196736, 10, .rw, 10⟩
/-- R499 -/ def Rgn.PWR_GLIM_LANES : Fld := ⟨196752, 8, .rw, 255⟩
/-- R499 -/ def Rgn.PWR_GLIM_MISS_WAKE : Fld := ⟨196767, 1, .rw, 1⟩
/-- R499 -/ def Rgn.PWR_GLIM_MASK : Fld := ⟨196768, 32, .rw, 0⟩
/-- R499 -/ def Rgn.MEAS_STAT0_CRC_ERR : Fld := ⟨196864, 16, .w1c, 0⟩
/-- R499 -/ def Rgn.MEAS_STAT1_CRC_ERR : Fld := ⟨196896, 16, .w1c, 0⟩
/-- R499 -/ def Rgn.MEAS_STAT2_CRC_ERR : Fld := ⟨196928, 16, .w1c, 0⟩
/-- R499 -/ def Rgn.MEAS_STAT3_CRC_ERR : Fld := ⟨196960, 16, .w1c, 0⟩
/-- R499 -/ def Rgn.MEAS_STAT4_CRC_ERR : Fld := ⟨196992, 16, .w1c, 0⟩
/-- R499 -/ def Rgn.MEAS_STAT5_CRC_ERR : Fld := ⟨197024, 16, .w1c, 0⟩
/-- R499 -/ def Rgn.MEAS_STAT6_CRC_ERR : Fld := ⟨197056, 16, .w1c, 0⟩
/-- R499 -/ def Rgn.MEAS_STAT7_CRC_ERR : Fld := ⟨197088, 16, .w1c, 0⟩
/-- R499 -/ def Rgn.MEAS_STAT0_RATE_DROP : Fld := ⟨196880, 16, .w1c, 0⟩
/-- R499 -/ def Rgn.MEAS_STAT1_RATE_DROP : Fld := ⟨196912, 16, .w1c, 0⟩
/-- R499 -/ def Rgn.MEAS_STAT2_RATE_DROP : Fld := ⟨196944, 16, .w1c, 0⟩
/-- R499 -/ def Rgn.MEAS_STAT3_RATE_DROP : Fld := ⟨196976, 16, .w1c, 0⟩
/-- R499 -/ def Rgn.MEAS_STAT4_RATE_DROP : Fld := ⟨197008, 16, .w1c, 0⟩
/-- R499 -/ def Rgn.MEAS_STAT5_RATE_DROP : Fld := ⟨197040, 16, .w1c, 0⟩
/-- R499 -/ def Rgn.MEAS_STAT6_RATE_DROP : Fld := ⟨197072, 16, .w1c, 0⟩
/-- R499 -/ def Rgn.MEAS_STAT7_RATE_DROP : Fld := ⟨197104, 16, .w1c, 0⟩
/-- R500 -/ def Rgn.FLT_SEV_S0 : Fld := ⟨163840, 3, .rw, 3⟩
/-- R500 -/ def Rgn.FLT_SEV_S1 : Fld := ⟨163844, 3, .rw, 2⟩
/-- R500 -/ def Rgn.FLT_SEV_S2 : Fld := ⟨163848, 3, .rw, 5⟩
/-- R500 -/ def Rgn.FLT_SEV_S3 : Fld := ⟨163852, 3, .rw, 3⟩
/-- R500 -/ def Rgn.FLT_SEV_S4 : Fld := ⟨163856, 3, .rw, 3⟩
/-- R500 -/ def Rgn.FLT_SEV_S5 : Fld := ⟨163860, 3, .rw, 1⟩
/-- R500 -/ def Rgn.FLT_SEV_S6 : Fld := ⟨163864, 3, .rw, 3⟩
/-- R500 -/ def Rgn.FLT_SEV_S7 : Fld := ⟨163868, 3, .rw, 5⟩
/-- R500 -/ def Rgn.FLT_SEV_S8 : Fld := ⟨163872, 3, .rw, 2⟩
/-- R500 -/ def Rgn.FLT_SEV_S9 : Fld := ⟨163876, 3, .rw, 1⟩
/-- R500 -/ def Rgn.FLT_SEV_S10 : Fld := ⟨163880, 3, .rw, 3⟩
/-- R500 -/ def Rgn.FLT_SEV_S11 : Fld := ⟨163884, 3, .rw, 3⟩
/-- R500 -/ def Rgn.FLT_SEV_S12 : Fld := ⟨163888, 3, .rw, 3⟩
/-- R500 -/ def Rgn.FLT_SEV_S13 : Fld := ⟨163892, 3, .rw, 2⟩
/-- R500 -/ def Rgn.FLT_SEV_S14 : Fld := ⟨163896, 3, .rw, 1⟩
/-- R500 -/ def Rgn.FLT_SEV_S15 : Fld := ⟨163900, 3, .rw, 2⟩
/-- R500 -/ def Rgn.FLT_SEV_S16 : Fld := ⟨163904, 3, .rw, 2⟩
/-- R500 -/ def Rgn.FLT_SEV_S17 : Fld := ⟨163908, 3, .rw, 5⟩
/-- R500 -/ def Rgn.FLT_SEV_S18 : Fld := ⟨163912, 3, .rw, 2⟩
/-- R500 -/ def Rgn.FLT_SEV_S19 : Fld := ⟨163916, 3, .rw, 1⟩
/-- R500 -/ def Rgn.FLT_SEV_S20 : Fld := ⟨163920, 3, .rw, 6⟩
/-- R500 -/ def Rgn.FLT_SEV_S21 : Fld := ⟨163924, 3, .rw, 2⟩
/-- R500 -/ def Rgn.FLT_SEV_S22 : Fld := ⟨163928, 3, .rw, 6⟩
/-- R500 -/ def Rgn.FLT_SEV_S23 : Fld := ⟨163932, 3, .rw, 3⟩
/-- R500 -/ def Rgn.FLT_SEV_S24 : Fld := ⟨163936, 3, .rw, 6⟩
/-- R500 -/ def Rgn.FLT_SEV_S25 : Fld := ⟨163940, 3, .rw, 5⟩
/-- R500 -/ def Rgn.FLT_SEV_S26 : Fld := ⟨163944, 3, .rw, 7⟩
/-- R500 -/ def Rgn.FLT_STICKY0 : Fld := ⟨164096, 32, .w1cBits, 0⟩
/-- R500 -/ def Rgn.FLT_STICKY1 : Fld := ⟨164128, 32, .w1cBits, 0⟩
/-- R500 -/ def Rgn.FLT_STICKY2 : Fld := ⟨164160, 32, .w1cBits, 0⟩
/-- R500 -/ def Rgn.FLT_STICKY3 : Fld := ⟨164192, 32, .w1cBits, 0⟩
/-- R500 -/ def Rgn.FLT_STICKY4 : Fld := ⟨164224, 32, .w1cBits, 0⟩
/-- R500 -/ def Rgn.FLT_STICKY5 : Fld := ⟨164256, 32, .w1cBits, 0⟩
/-- R500 -/ def Rgn.FLT_STICKY6 : Fld := ⟨164288, 32, .w1cBits, 0⟩
/-- R500 -/ def Rgn.FLT_STICKY7 : Fld := ⟨164320, 32, .w1cBits, 0⟩
/-- R500 -/ def Rgn.FLT_ACT0 : Fld := ⟨164352, 32, .ro, 0⟩
/-- R500 -/ def Rgn.FLT_ACT1 : Fld := ⟨164384, 32, .ro, 0⟩
/-- R500 -/ def Rgn.FLT_ACT2 : Fld := ⟨164416, 32, .ro, 0⟩
/-- R500 -/ def Rgn.FLT_ACT3 : Fld := ⟨164448, 32, .ro, 0⟩
/-- R500 -/ def Rgn.FLT_ACT4 : Fld := ⟨164480, 32, .ro, 0⟩
/-- R500 -/ def Rgn.FLT_ACT5 : Fld := ⟨164512, 32, .ro, 0⟩
/-- R500 -/ def Rgn.FLT_ACT6 : Fld := ⟨164544, 32, .ro, 0⟩
/-- R500 -/ def Rgn.FLT_ACT7 : Fld := ⟨164576, 32, .ro, 0⟩
/-- R345 -/ def Rgn.FLT_FIRST_SOURCE : Fld := ⟨164608, 8, .ro, 0⟩
/-- R345 -/ def Rgn.FLT_FIRST_LEVEL : Fld := ⟨164616, 2, .ro, 0⟩
/-- R345 -/ def Rgn.FLT_FIRST_SEVERITY : Fld := ⟨164618, 3, .ro, 0⟩
/-- R345 -/ def Rgn.FLT_FIRST_TREE : Fld := ⟨164621, 5, .ro, 0⟩
/-- R345 -/ def Rgn.FLT_FIRST_SLOT : Fld := ⟨164626, 7, .ro, 0⟩
/-- R345 -/ def Rgn.FLT_FIRST_IDX_VALID : Fld := ⟨164633, 1, .ro, 0⟩
/-- R345 -/ def Rgn.FLT_FIRST_SLOT_VALID : Fld := ⟨164634, 1, .ro, 0⟩
/-- R345 -/ def Rgn.FLT_FIRST_VALID : Fld := ⟨164639, 1, .w1c, 0⟩
/-- R500 -/ def Rgn.FLT_FIRST_TS_NS : Fld := ⟨164672, 64, .ro, 0⟩
/-- R500 -/ def Rgn.FLT_STAT_OVF : Fld := ⟨164736, 1, .w1c, 0⟩
/-- R500 -/ def Rgn.FLT_TJ_WARN : Fld := ⟨164768, 8, .rw, 105⟩
/-- R500 -/ def Rgn.FLT_TJ_CRIT : Fld := ⟨164776, 8, .rw, 115⟩

/-- Part of the table of fields. -/
def Rgn.table0 : List Fld :=
  [Rgn.RGN_ID_DIE, Rgn.RGN_ID_PRINCIPAL, Rgn.LOOP_BASE_BASE, Rgn.LOOP_CMD_LOOP, Rgn.LOOP_CMD_ACTION, Rgn.LOOP_STAT_REFUSED, Rgn.LOOP_STATE0_CLOSED, Rgn.LOOP_STATE1_CLOSED, Rgn.ENUM_STAT_LOG_HEAD, Rgn.ENUM_TREE0_PHASE, Rgn.ENUM_TREE1_PHASE, Rgn.ENUM_TREE2_PHASE, Rgn.ENUM_TREE3_PHASE, Rgn.ENUM_TREE4_PHASE, Rgn.ENUM_TREE5_PHASE, Rgn.ENUM_TREE6_PHASE, Rgn.ENUM_TREE7_PHASE, Rgn.ENUM_TREE8_PHASE, Rgn.ENUM_TREE9_PHASE, Rgn.ENUM_TREE10_PHASE, Rgn.ENUM_TREE11_PHASE, Rgn.ENUM_TREE12_PHASE, Rgn.ENUM_TREE13_PHASE, Rgn.ENUM_TREE14_PHASE]
/-- Part of the table of fields. -/
def Rgn.table1 : List Fld :=
  [Rgn.ENUM_TREE15_PHASE, Rgn.ENUM_TREE16_PHASE, Rgn.ENUM_TREE17_PHASE, Rgn.ENUM_TREE18_PHASE, Rgn.ENUM_TREE19_PHASE, Rgn.ENUM_TREE20_PHASE, Rgn.ENUM_TREE21_PHASE, Rgn.ENUM_TREE22_PHASE, Rgn.ENUM_TREE23_PHASE, Rgn.ENUM_TREE24_PHASE, Rgn.ENUM_TREE25_PHASE, Rgn.ENUM_TREE26_PHASE, Rgn.ENUM_TREE27_PHASE, Rgn.ENUM_TREE28_PHASE, Rgn.ENUM_TREE29_PHASE, Rgn.ENUM_TREE30_PHASE, Rgn.ENUM_TREE31_PHASE, Rgn.ENUM_TREE0_DONE, Rgn.ENUM_TREE1_DONE, Rgn.ENUM_TREE2_DONE, Rgn.ENUM_TREE3_DONE, Rgn.ENUM_TREE4_DONE, Rgn.ENUM_TREE5_DONE, Rgn.ENUM_TREE6_DONE]
/-- Part of the table of fields. -/
def Rgn.table2 : List Fld :=
  [Rgn.ENUM_TREE7_DONE, Rgn.ENUM_TREE8_DONE, Rgn.ENUM_TREE9_DONE, Rgn.ENUM_TREE10_DONE, Rgn.ENUM_TREE11_DONE, Rgn.ENUM_TREE12_DONE, Rgn.ENUM_TREE13_DONE, Rgn.ENUM_TREE14_DONE, Rgn.ENUM_TREE15_DONE, Rgn.ENUM_TREE16_DONE, Rgn.ENUM_TREE17_DONE, Rgn.ENUM_TREE18_DONE, Rgn.ENUM_TREE19_DONE, Rgn.ENUM_TREE20_DONE, Rgn.ENUM_TREE21_DONE, Rgn.ENUM_TREE22_DONE, Rgn.ENUM_TREE23_DONE, Rgn.ENUM_TREE24_DONE, Rgn.ENUM_TREE25_DONE, Rgn.ENUM_TREE26_DONE, Rgn.ENUM_TREE27_DONE, Rgn.ENUM_TREE28_DONE, Rgn.ENUM_TREE29_DONE, Rgn.ENUM_TREE30_DONE]
/-- Part of the table of fields. -/
def Rgn.table3 : List Fld :=
  [Rgn.ENUM_TREE31_DONE, Rgn.ENUM_TREE0_STALL, Rgn.ENUM_TREE1_STALL, Rgn.ENUM_TREE2_STALL, Rgn.ENUM_TREE3_STALL, Rgn.ENUM_TREE4_STALL, Rgn.ENUM_TREE5_STALL, Rgn.ENUM_TREE6_STALL, Rgn.ENUM_TREE7_STALL, Rgn.ENUM_TREE8_STALL, Rgn.ENUM_TREE9_STALL, Rgn.ENUM_TREE10_STALL, Rgn.ENUM_TREE11_STALL, Rgn.ENUM_TREE12_STALL, Rgn.ENUM_TREE13_STALL, Rgn.ENUM_TREE14_STALL, Rgn.ENUM_TREE15_STALL, Rgn.ENUM_TREE16_STALL, Rgn.ENUM_TREE17_STALL, Rgn.ENUM_TREE18_STALL, Rgn.ENUM_TREE19_STALL, Rgn.ENUM_TREE20_STALL, Rgn.ENUM_TREE21_STALL, Rgn.ENUM_TREE22_STALL]
/-- Part of the table of fields. -/
def Rgn.table4 : List Fld :=
  [Rgn.ENUM_TREE23_STALL, Rgn.ENUM_TREE24_STALL, Rgn.ENUM_TREE25_STALL, Rgn.ENUM_TREE26_STALL, Rgn.ENUM_TREE27_STALL, Rgn.ENUM_TREE28_STALL, Rgn.ENUM_TREE29_STALL, Rgn.ENUM_TREE30_STALL, Rgn.ENUM_TREE31_STALL, Rgn.DISP_CFG_STEAL_DELAY, Rgn.DISP_CFG_XSTEAL_DELAY, Rgn.DISP_CFG_STEAL_EN, Rgn.DISP_DL_REPEAT_N, Rgn.DISP_GAUGE_RATIO, Rgn.DISP_SLACK_MIN, Rgn.DISP_STAT_TRIG_DROP, Rgn.DISP_STAT_ROB_WAIT, Rgn.TRACE_CFG_EN, Rgn.TRACE_CFG_EVENTS, Rgn.TRACE_CFG_LEVELS, Rgn.TRACE_CFG_CLUSTERS, Rgn.TRACE_STAT_LOST, Rgn.ENG_STAT_SAT_VERBS, Rgn.ENG_STAT_WSAT_VERBS]
/-- Part of the table of fields. -/
def Rgn.table5 : List Fld :=
  [Rgn.ENG_STAT_ADDR_ERRS, Rgn.DISP_GAUGE_K0_K, Rgn.DISP_GAUGE_K1_K, Rgn.DISP_GAUGE_K2_K, Rgn.DISP_GAUGE_K3_K, Rgn.DISP_GAUGE_K4_K, Rgn.DISP_GAUGE_K5_K, Rgn.DISP_GAUGE_K6_K, Rgn.DISP_GAUGE_K7_K, Rgn.RANK_BASE_BASE, Rgn.RANK_CFG_PRED_MAX, Rgn.RANK_CEST_TC, Rgn.RANK_CEST_REJ, Rgn.RANK_CEST_TOL, Rgn.RANK_CEST_DV, Rgn.RANK_STAT_OLD, Rgn.RANK_STAT_INVALID, Rgn.RANK_STAT_CEST_REJ, Rgn.RANK_STAT_CAL_DONE, Rgn.ENUM_MAP_BASE_BASE, Rgn.CELL_ID_BASE_BASE, Rgn.PWR_RET_BANKS, Rgn.MEM_STAT_SRAM_CORR, Rgn.MEM_STAT_MRAM_ERR]
/-- Part of the table of fields. -/
def Rgn.table6 : List Fld :=
  [Rgn.MEAS_LATCH_LATCH, Rgn.MEAS_CFG_MAX_AGE, Rgn.MEAS_CFG_STALE_N, Rgn.MEAS_TAB_BASE_BASE, Rgn.PWR_GLIM_INT, Rgn.PWR_GLIM_LANES, Rgn.PWR_GLIM_MISS_WAKE, Rgn.PWR_GLIM_MASK, Rgn.MEAS_STAT0_CRC_ERR, Rgn.MEAS_STAT1_CRC_ERR, Rgn.MEAS_STAT2_CRC_ERR, Rgn.MEAS_STAT3_CRC_ERR, Rgn.MEAS_STAT4_CRC_ERR, Rgn.MEAS_STAT5_CRC_ERR, Rgn.MEAS_STAT6_CRC_ERR, Rgn.MEAS_STAT7_CRC_ERR, Rgn.MEAS_STAT0_RATE_DROP, Rgn.MEAS_STAT1_RATE_DROP, Rgn.MEAS_STAT2_RATE_DROP, Rgn.MEAS_STAT3_RATE_DROP, Rgn.MEAS_STAT4_RATE_DROP, Rgn.MEAS_STAT5_RATE_DROP, Rgn.MEAS_STAT6_RATE_DROP, Rgn.MEAS_STAT7_RATE_DROP]
/-- Part of the table of fields. -/
def Rgn.table7 : List Fld :=
  [Rgn.FLT_SEV_S0, Rgn.FLT_SEV_S1, Rgn.FLT_SEV_S2, Rgn.FLT_SEV_S3, Rgn.FLT_SEV_S4, Rgn.FLT_SEV_S5, Rgn.FLT_SEV_S6, Rgn.FLT_SEV_S7, Rgn.FLT_SEV_S8, Rgn.FLT_SEV_S9, Rgn.FLT_SEV_S10, Rgn.FLT_SEV_S11, Rgn.FLT_SEV_S12, Rgn.FLT_SEV_S13, Rgn.FLT_SEV_S14, Rgn.FLT_SEV_S15, Rgn.FLT_SEV_S16, Rgn.FLT_SEV_S17, Rgn.FLT_SEV_S18, Rgn.FLT_SEV_S19, Rgn.FLT_SEV_S20, Rgn.FLT_SEV_S21, Rgn.FLT_SEV_S22, Rgn.FLT_SEV_S23]
/-- Part of the table of fields. -/
def Rgn.table8 : List Fld :=
  [Rgn.FLT_SEV_S24, Rgn.FLT_SEV_S25, Rgn.FLT_SEV_S26, Rgn.FLT_STICKY0, Rgn.FLT_STICKY1, Rgn.FLT_STICKY2, Rgn.FLT_STICKY3, Rgn.FLT_STICKY4, Rgn.FLT_STICKY5, Rgn.FLT_STICKY6, Rgn.FLT_STICKY7, Rgn.FLT_ACT0, Rgn.FLT_ACT1, Rgn.FLT_ACT2, Rgn.FLT_ACT3, Rgn.FLT_ACT4, Rgn.FLT_ACT5, Rgn.FLT_ACT6, Rgn.FLT_ACT7, Rgn.FLT_FIRST_SOURCE, Rgn.FLT_FIRST_LEVEL, Rgn.FLT_FIRST_SEVERITY, Rgn.FLT_FIRST_TREE, Rgn.FLT_FIRST_SLOT]
/-- Part of the table of fields. -/
def Rgn.table9 : List Fld :=
  [Rgn.FLT_FIRST_IDX_VALID, Rgn.FLT_FIRST_SLOT_VALID, Rgn.FLT_FIRST_VALID, Rgn.FLT_FIRST_TS_NS, Rgn.FLT_STAT_OVF, Rgn.FLT_TJ_WARN, Rgn.FLT_TJ_CRIT]
/-- Every described field of this block. -/
def Rgn.table : List Fld :=
  Rgn.table0 ++
  Rgn.table1 ++
  Rgn.table2 ++
  Rgn.table3 ++
  Rgn.table4 ++
  Rgn.table5 ++
  Rgn.table6 ++
  Rgn.table7 ++
  Rgn.table8 ++
  Rgn.table9

/-- The registers of more than one word (byte offset, number of words), R21 and R484. -/
def Rgn.multi : List (Nat × Nat) :=
  [(12320, 2), (16400, 2), (20584, 2), (24592, 2)]

/-! Tree instance (R496): bit address relative to the tree base. -/

/-- R496 -/ def Tree.TREE_CFG_EN : Fld := ⟨0, 1, .rwc, 0⟩
/-- R496 -/ def Tree.TREE_CFG_ARM : Fld := ⟨1, 2, .rwc, 0⟩
/-- R496 -/ def Tree.TREE_CFG_STATE : Fld := ⟨8, 3, .ro, 0⟩
/-- R496 -/ def Tree.TREE_SLOTS_N : Fld := ⟨32, 8, .rwc, 128⟩
/-- R496 -/ def Tree.TREE_SLOTS_START : Fld := ⟨48, 14, .rwc, 1200⟩
/-- R496 -/ def Tree.TREE_ASYM_ASYM : Fld := ⟨64, 15, .rwc, 0⟩
/-- R496 -/ def Tree.TREE_RR_DRIFT_TOL : Fld := ⟨96, 6, .rw, 5⟩
/-- R496 -/ def Tree.TREE_RR_RR_MIN : Fld := ⟨104, 5, .rw, 4⟩
/-- R496 -/ def Tree.TREE_RR_MISS_N : Fld := ⟨112, 4, .rw, 3⟩
/-- R496 -/ def Tree.TREE_RR_LOST_N : Fld := ⟨116, 4, .rw, 3⟩
/-- R496 -/ def Tree.TREE_MGMT_TMO : Fld := ⟨128, 11, .rw, 64⟩
/-- R496 -/ def Tree.TREE_MGMT_RETRY : Fld := ⟨140, 3, .rw, 3⟩
/-- R496 -/ def Tree.TREE_MGMT_EXTRA : Fld := ⟨144, 4, .rw, 4⟩
/-- R496 -/ def Tree.TREE_CMD_RESET : Fld := ⟨160, 1, .wo, 0⟩
/-- R496 -/ def Tree.TREE_CMD_RECOVER : Fld := ⟨161, 1, .wo, 0⟩
/-- R496 -/ def Tree.TREE_FLT_SEV_S0 : Fld := ⟨192, 3, .rw, 5⟩
/-- R496 -/ def Tree.TREE_FLT_SEV_S1 : Fld := ⟨196, 3, .rw, 6⟩
/-- R496 -/ def Tree.TREE_FLT_SEV_S2 : Fld := ⟨200, 3, .rw, 4⟩
/-- R496 -/ def Tree.TREE_FLT_SEV_S3 : Fld := ⟨204, 3, .rw, 5⟩
/-- R496 -/ def Tree.TREE_FLT_SEV_S4 : Fld := ⟨208, 3, .rw, 5⟩
/-- R496 -/ def Tree.TREE_FLT_SEV_S5 : Fld := ⟨212, 3, .rw, 5⟩
/-- R496 -/ def Tree.TREE_FLT_SEV_S6 : Fld := ⟨216, 3, .rw, 5⟩
/-- R496 -/ def Tree.TREE_FLT_SEV_S7 : Fld := ⟨220, 3, .rw, 3⟩
/-- R496 -/ def Tree.TREE_FLT_SEV_S8 : Fld := ⟨224, 3, .rw, 2⟩
/-- R496 -/ def Tree.TREE_FLT_SEV_S9 : Fld := ⟨228, 3, .rw, 2⟩
/-- R496 -/ def Tree.TREE_FLT_SEV_S10 : Fld := ⟨232, 3, .rw, 2⟩
/-- R496 -/ def Tree.TREE_FLT_SEV_S11 : Fld := ⟨236, 3, .rw, 2⟩
/-- R496 -/ def Tree.TREE_FLT_SEV_S12 : Fld := ⟨240, 3, .rw, 1⟩
/-- R496 -/ def Tree.TREE_FLT_SEV_S13 : Fld := ⟨244, 3, .rw, 1⟩
/-- R496 -/ def Tree.TREE_FLT_STICKY_STICKY : Fld := ⟨320, 14, .w1cBits, 0⟩
/-- R496 -/ def Tree.TREE_FLT_ACT_ACT : Fld := ⟨352, 14, .ro, 0⟩

/-- Part of the table of fields. -/
def Tree.table0 : List Fld :=
  [Tree.TREE_CFG_EN, Tree.TREE_CFG_ARM, Tree.TREE_CFG_STATE, Tree.TREE_SLOTS_N, Tree.TREE_SLOTS_START, Tree.TREE_ASYM_ASYM, Tree.TREE_RR_DRIFT_TOL, Tree.TREE_RR_RR_MIN, Tree.TREE_RR_MISS_N, Tree.TREE_RR_LOST_N, Tree.TREE_MGMT_TMO, Tree.TREE_MGMT_RETRY, Tree.TREE_MGMT_EXTRA, Tree.TREE_CMD_RESET, Tree.TREE_CMD_RECOVER, Tree.TREE_FLT_SEV_S0, Tree.TREE_FLT_SEV_S1, Tree.TREE_FLT_SEV_S2, Tree.TREE_FLT_SEV_S3, Tree.TREE_FLT_SEV_S4, Tree.TREE_FLT_SEV_S5, Tree.TREE_FLT_SEV_S6, Tree.TREE_FLT_SEV_S7, Tree.TREE_FLT_SEV_S8]
/-- Part of the table of fields. -/
def Tree.table1 : List Fld :=
  [Tree.TREE_FLT_SEV_S9, Tree.TREE_FLT_SEV_S10, Tree.TREE_FLT_SEV_S11, Tree.TREE_FLT_SEV_S12, Tree.TREE_FLT_SEV_S13, Tree.TREE_FLT_STICKY_STICKY, Tree.TREE_FLT_ACT_ACT]
/-- Every described field of this block. -/
def Tree.table : List Fld :=
  Tree.table0 ++
  Tree.table1

/-- The registers of more than one word (byte offset, number of words), R21 and R484. -/
def Tree.multi : List (Nat × Nat) :=
  []

/-! Arm instance (R497): bit address relative to the arm base. -/

/-- R497 -/ def Arm.ARM_CFG_MOD : Fld := ⟨0, 1, .rwc, 0⟩
/-- R497 -/ def Arm.ARM_CFG_FB : Fld := ⟨1, 1, .rwc, 0⟩
/-- R497 -/ def Arm.ARM_CFG_NEG_EN : Fld := ⟨2, 1, .rwc, 0⟩
/-- R497 -/ def Arm.ARM_PBASE_BASE : Fld := ⟨32, 23, .rwc, 62464⟩
/-- R497 -/ def Arm.ARM_MEAS_W0 : Fld := ⟨64, 5, .rwc, 0⟩
/-- R497 -/ def Arm.ARM_MEAS_W1 : Fld := ⟨69, 5, .rwc, 0⟩
/-- R497 -/ def Arm.ARM_MEAS_W2 : Fld := ⟨74, 5, .rwc, 0⟩
/-- R497 -/ def Arm.ARM_MEAS_W3 : Fld := ⟨79, 5, .rwc, 0⟩
/-- R497 -/ def Arm.ARM_MEAS_W4 : Fld := ⟨84, 5, .rwc, 0⟩
/-- R497 -/ def Arm.ARM_MEAS_W5 : Fld := ⟨89, 5, .rwc, 0⟩
/-- R497 -/ def Arm.ARM_MEAS_W6 : Fld := ⟨96, 5, .rwc, 0⟩
/-- R497 -/ def Arm.ARM_HOVR_TOL_TOL : Fld := ⟨128, 32, .rw, 167772⟩
/-- R497 -/ def Arm.ARM_HOVR_SLEW_SLEW : Fld := ⟨160, 32, .rw, 16777⟩
/-- R497 -/ def Arm.ARM_FF_HOLD_N : Fld := ⟨192, 10, .rw, 100⟩
/-- R497 -/ def Arm.ARM_OUT_N_INT : Fld := ⟨224, 13, .ro, 0⟩
/-- R497 -/ def Arm.ARM_OUT_NEG : Fld := ⟨239, 1, .ro, 0⟩
/-- R497 -/ def Arm.ARM_OUT_DUTY : Fld := ⟨240, 16, .ro, 0⟩
/-- R497 -/ def Arm.ARM_STAT_NCLAMP : Fld := ⟨256, 16, .w1c, 0⟩
/-- R497 -/ def Arm.ARM_STAT_FF_HOLD : Fld := ⟨272, 16, .w1c, 0⟩
/-- R497 -/ def Arm.ARM_STAT_EDGE_CAP : Fld := ⟨288, 16, .w1c, 0⟩
/-- R497 -/ def Arm.ARM_RANK_K_Q : Fld := ⟨320, 32, .rwc, 0⟩
/-- R497 -/ def Arm.ARM_RANK_C_NOM : Fld := ⟨352, 32, .rwc, 0⟩
/-- R497 -/ def Arm.ARM_RANK_I_IDX : Fld := ⟨384, 3, .rwc, 0⟩
/-- R497 -/ def Arm.ARM_RANK_TIE_Q : Fld := ⟨388, 4, .rwc, 2⟩
/-- R497 -/ def Arm.ARM_CAL_PER_ARM : Fld := ⟨416, 5, .rwc, 2⟩
/-- R497 -/ def Arm.ARM_CAL_INTERVAL : Fld := ⟨424, 5, .rwc, 20⟩
/-- R497 -/ def Arm.ARM_CAL_TMO : Fld := ⟨432, 8, .rw, 16⟩
/-- R497 -/ def Arm.ARM_SEL_SWAP_BAND : Fld := ⟨448, 16, .rwc, 64⟩
/-- R497 -/ def Arm.ARM_SEL_N_MIN : Fld := ⟨464, 13, .rw, 0⟩
/-- R497 -/ def Arm.ARM_SEL_DIR : Fld := ⟨479, 1, .ro, 0⟩
/-- R497 -/ def Arm.ARM_SEL_IDEAD : Fld := ⟨480, 32, .rwc, 167772⟩
/-- R497 -/ def Arm.ARM_EDGE_BASE : Fld := ⟨512, 12, .rwc, 0⟩
/-- R497 -/ def Arm.ARM_EDGE_STEP : Fld := ⟨528, 8, .rwc, 50⟩
/-- R497 -/ def Arm.ARM_EDGE_GROUP : Fld := ⟨544, 7, .rwc, 4⟩
/-- R497 -/ def Arm.ARM_EDGE_MAX : Fld := ⟨560, 12, .rwc, 2000⟩
/-- R354 -/ def Arm.ARM_BLK_BLOCKED : Fld := ⟨576, 1, .ro, 0⟩
/-- R354 -/ def Arm.ARM_BLK_LEVEL : Fld := ⟨577, 2, .ro, 0⟩
/-- R354 -/ def Arm.ARM_BLK_SOURCE : Fld := ⟨579, 8, .ro, 0⟩
/-- R354 -/ def Arm.ARM_BLK_MANY : Fld := ⟨587, 1, .ro, 0⟩

/-- Part of the table of fields. -/
def Arm.table0 : List Fld :=
  [Arm.ARM_CFG_MOD, Arm.ARM_CFG_FB, Arm.ARM_CFG_NEG_EN, Arm.ARM_PBASE_BASE, Arm.ARM_MEAS_W0, Arm.ARM_MEAS_W1, Arm.ARM_MEAS_W2, Arm.ARM_MEAS_W3, Arm.ARM_MEAS_W4, Arm.ARM_MEAS_W5, Arm.ARM_MEAS_W6, Arm.ARM_HOVR_TOL_TOL, Arm.ARM_HOVR_SLEW_SLEW, Arm.ARM_FF_HOLD_N, Arm.ARM_OUT_N_INT, Arm.ARM_OUT_NEG, Arm.ARM_OUT_DUTY, Arm.ARM_STAT_NCLAMP, Arm.ARM_STAT_FF_HOLD, Arm.ARM_STAT_EDGE_CAP, Arm.ARM_RANK_K_Q, Arm.ARM_RANK_C_NOM, Arm.ARM_RANK_I_IDX, Arm.ARM_RANK_TIE_Q]
/-- Part of the table of fields. -/
def Arm.table1 : List Fld :=
  [Arm.ARM_CAL_PER_ARM, Arm.ARM_CAL_INTERVAL, Arm.ARM_CAL_TMO, Arm.ARM_SEL_SWAP_BAND, Arm.ARM_SEL_N_MIN, Arm.ARM_SEL_DIR, Arm.ARM_SEL_IDEAD, Arm.ARM_EDGE_BASE, Arm.ARM_EDGE_STEP, Arm.ARM_EDGE_GROUP, Arm.ARM_EDGE_MAX, Arm.ARM_BLK_BLOCKED, Arm.ARM_BLK_LEVEL, Arm.ARM_BLK_SOURCE, Arm.ARM_BLK_MANY]
/-- Every described field of this block. -/
def Arm.table : List Fld :=
  Arm.table0 ++
  Arm.table1

/-- The registers of more than one word (byte offset, number of words), R21 and R484. -/
def Arm.multi : List (Nat × Nat) :=
  [(32, 2), (40, 3), (56, 2), (64, 2)]

/-! Elsum registers (R513-R516): bit address in the register space of one cell. -/

/-- R513 -/ def Els.CELL_ID_REV : Fld := ⟨0, 8, .ro, 161⟩
/-- R513 -/ def Els.CELL_ID_ROM : Fld := ⟨8, 8, .ro, 0⟩
/-- R513 -/ def Els.CELL_ID_PART : Fld := ⟨16, 16, .ro, 3585⟩
/-- R513 -/ def Els.GEN_STAT_STATE : Fld := ⟨32, 4, .ro, 0⟩
/-- R513 -/ def Els.GEN_STAT_HOLDING : Fld := ⟨36, 1, .ro, 0⟩
/-- R513 -/ def Els.GEN_STAT_FALLBACK : Fld := ⟨37, 1, .ro, 0⟩
/-- R513 -/ def Els.GEN_STAT_BYPASSED : Fld := ⟨38, 1, .ro, 0⟩
/-- R513 -/ def Els.GEN_STAT_CAL_ACTIVE : Fld := ⟨39, 1, .ro, 0⟩
/-- R513 -/ def Els.GEN_STAT_TIME_FROZEN : Fld := ⟨40, 1, .ro, 0⟩
/-- R513 -/ def Els.AUTH_CFG_LEASE_PERIODS : Fld := ⟨64, 4, .rwc, 3⟩
/-- R513 -/ def Els.AUTH_CFG_HOLD_LIMIT : Fld := ⟨68, 4, .rwc, 5⟩
/-- R513 -/ def Els.AUTH_CFG_ORPHAN_TX : Fld := ⟨80, 7, .rwc, 4⟩
/-- R513 -/ def Els.AUTH_STAT_OWNER : Fld := ⟨96, 2, .ro, 2⟩
/-- R513 -/ def Els.AUTH_STAT_CLAIM_REFUSED : Fld := ⟨112, 16, .w1c, 0⟩
/-- R513 -/ def Els.AUTH_STAT_EPOCH : Fld := ⟨128, 32, .ro, 0⟩
/-- R513 -/ def Els.GLIM_CFG_INT : Fld := ⟨160, 10, .rwc, 100⟩
/-- R513 -/ def Els.GLIM_CFG_LO : Fld := ⟨192, 18, .rwc, 0⟩
/-- R513 -/ def Els.GLIM_CFG_HI : Fld := ⟨224, 18, .rwc, 262143⟩
/-- R513 -/ def Els.GLIM_STAT_CODE : Fld := ⟨256, 18, .ro, 0⟩
/-- R513 -/ def Els.GLIM_STAT_TAG : Fld := ⟨275, 3, .ro, 0⟩
/-- R513 -/ def Els.CELL_TIME_TC : Fld := ⟨14336, 4, .rwc, 6⟩
/-- R513 -/ def Els.CELL_TIME_STEP_THR : Fld := ⟨14344, 8, .rwc, 20⟩
/-- R513 -/ def Els.CELL_TIME_STAT_STEPS : Fld := ⟨14368, 16, .w1c, 0⟩
/-- R513 -/ def Els.CELL_TIME_NS_NS : Fld := ⟨14400, 64, .ro, 0⟩
/-- R513 -/ def Els.CELL_TIME_E_E : Fld := ⟨14464, 32, .ro, 0⟩
/-- R513 -/ def Els.DBG_CTL_HALT : Fld := ⟨16384, 1, .wo, 0⟩
/-- R513 -/ def Els.DBG_CTL_RESUME : Fld := ⟨16385, 1, .wo, 0⟩
/-- R513 -/ def Els.DBG_STAT_HALTED : Fld := ⟨16416, 1, .ro, 0⟩
/-- R513 -/ def Els.DBG_STAT_HALT_REFUSED : Fld := ⟨16417, 1, .w1c, 0⟩
/-- R513 -/ def Els.MRAM_STAT_CORR : Fld := ⟨18432, 16, .w1c, 0⟩
/-- R513 -/ def Els.MRAM_STAT_UNCORR : Fld := ⟨18448, 16, .w1c, 0⟩
/-- R513 -/ def Els.MRAM_LOG_HEAD : Fld := ⟨18464, 13, .ro, 0⟩
/-- R513 -/ def Els.SEC_STAT_ANCHOR_SET : Fld := ⟨20480, 1, .ro, 0⟩
/-- R513 -/ def Els.SEC_STAT_KEYED_A : Fld := ⟨20481, 1, .ro, 0⟩
/-- R513 -/ def Els.SEC_STAT_KEYED_B : Fld := ⟨20482, 1, .ro, 0⟩
/-- R513 -/ def Els.SEC_STAT_PATCH_ERR : Fld := ⟨20483, 1, .ro, 0⟩
/-- R513 -/ def Els.SEC_STAT_UNLOCKED : Fld := ⟨20484, 1, .ro, 0⟩
/-- R513 -/ def Els.SEC_SERIAL_SERIAL : Fld := ⟨20544, 64, .ro, 0⟩
/-- R514 -/ def Els.CELL_SW_FB : Fld := ⟨4096, 1, .rwc, 0⟩
/-- R514 -/ def Els.PWM_CAR_RATIO : Fld := ⟨4128, 3, .rwc, 1⟩
/-- R514 -/ def Els.PWM_CAR_PHASE : Fld := ⟨4144, 16, .rwc, 0⟩
/-- R514 -/ def Els.PWM_DT_DT12 : Fld := ⟨4160, 14, .rwc, 4000⟩
/-- R514 -/ def Els.PWM_DT_DT34 : Fld := ⟨4176, 14, .rwc, 4000⟩
/-- R514 -/ def Els.PWM_MINP_MINPULSE : Fld := ⟨4192, 10, .rwc, 400⟩
/-- R514 -/ def Els.PWM_TDUTY12_DUTY : Fld := ⟨4224, 16, .rw, 0⟩
/-- R514 -/ def Els.PWM_TDUTY34_DUTY : Fld := ⟨4256, 16, .rw, 0⟩
/-- R514 -/ def Els.CELL_HYST_BAND : Fld := ⟨4288, 16, .rwc, 1024⟩
/-- R514 -/ def Els.CELL_HYST_STEP : Fld := ⟨4304, 16, .rwc, 2048⟩
/-- R514 -/ def Els.CELL_FB_EN : Fld := ⟨4320, 1, .rwc, 0⟩
/-- R514 -/ def Els.CELL_FB_N : Fld := ⟨4328, 8, .rwc, 16⟩
/-- R514 -/ def Els.CELL_FB_BAND : Fld := ⟨4336, 16, .rwc, 4096⟩
/-- R514 -/ def Els.GFB_CFG_TMO : Fld := ⟨4352, 10, .rwc, 200⟩
/-- R514 -/ def Els.GFB_CFG_N : Fld := ⟨4368, 4, .rwc, 2⟩
/-- R514 -/ def Els.PWM_STAT_DROP : Fld := ⟨4384, 16, .w1c, 0⟩
/-- R514 -/ def Els.PWM_STAT_STRETCH : Fld := ⟨4400, 16, .w1c, 0⟩
/-- R514 -/ def Els.PWM_STAT_DT_DROP : Fld := ⟨4416, 16, .w1c, 0⟩
/-- R514 -/ def Els.PWM_STAT_CMD_LATE : Fld := ⟨4432, 16, .w1c, 0⟩
/-- R514 -/ def Els.PWM_STAT_LATE_WRITE : Fld := ⟨4448, 16, .w1c, 0⟩
/-- R514 -/ def Els.PWM_STAT_RESYNC : Fld := ⟨4464, 16, .w1c, 0⟩
/-- R514 -/ def Els.GML_CFG_EN : Fld := ⟨6144, 4, .rwc, 3⟩
/-- R514 -/ def Els.GML_CFG_TMO : Fld := ⟨6152, 7, .rwc, 10⟩
/-- R514 -/ def Els.GML_CFG_RETRY : Fld := ⟨6160, 3, .rwc, 3⟩
/-- R514 -/ def Els.DIE_TRIM_EN : Fld := ⟨6176, 1, .rwc, 0⟩
/-- R514 -/ def Els.DIE_TRIM_EVENTS : Fld := ⟨6180, 4, .rwc, 8⟩
/-- R514 -/ def Els.DIE_TRIM_DB : Fld := ⟨6184, 4, .rwc, 2⟩
/-- R514 -/ def Els.DIE_TRIM_SHARE_DB : Fld := ⟨6192, 8, .rwc, 20⟩
/-- R514 -/ def Els.DIE_TRIM_IMIN : Fld := ⟨6208, 16, .rwc, 200⟩
/-- R514 -/ def Els.DIE_ISO_AUTO : Fld := ⟨6272, 1, .rwc, 0⟩
/-- R514 -/ def Els.DIE_ISO_N : Fld := ⟨6276, 4, .rwc, 3⟩
/-- R514 -/ def Els.DIE_ISO_SHARE : Fld := ⟨6280, 10, .rwc, 204⟩
/-- R514 -/ def Els.DIE_ISO_MAX : Fld := ⟨6296, 6, .rwc, 2⟩
/-- R514 -/ def Els.DIE_TEMP_WARN : Fld := ⟨6304, 8, .rwc, 150⟩
/-- R514 -/ def Els.DIE_TEMP_TMAX : Fld := ⟨6312, 8, .rwc, 175⟩
/-- R514 -/ def Els.DIE_STAT_TRIM_CHG : Fld := ⟨6336, 16, .w1c, 0⟩
/-- R514 -/ def Els.GML_STAT1_CRC_ERR : Fld := ⟨6400, 16, .w1c, 0⟩
/-- R514 -/ def Els.GML_STAT2_CRC_ERR : Fld := ⟨6432, 16, .w1c, 0⟩
/-- R514 -/ def Els.GML_STAT3_CRC_ERR : Fld := ⟨6464, 16, .w1c, 0⟩
/-- R514 -/ def Els.GML_STAT4_CRC_ERR : Fld := ⟨6496, 16, .w1c, 0⟩
/-- R514 -/ def Els.GML_STAT1_UP : Fld := ⟨6416, 1, .ro, 0⟩
/-- R514 -/ def Els.GML_STAT2_UP : Fld := ⟨6448, 1, .ro, 0⟩
/-- R514 -/ def Els.GML_STAT3_UP : Fld := ⟨6480, 1, .ro, 0⟩
/-- R514 -/ def Els.GML_STAT4_UP : Fld := ⟨6512, 1, .ro, 0⟩
/-- R515 -/ def Els.CV_CFG_OSR : Fld := ⟨8192, 9, .rwc, 40⟩
/-- R515 -/ def Els.CV_CFG_GAIN : Fld := ⟨8201, 1, .rwc, 0⟩
/-- R515 -/ def Els.CV_CFG_INSEL : Fld := ⟨8204, 2, .rwc, 0⟩
/-- R314 -/ def Els.CV_RES_CODE : Fld := ⟨8224, 18, .ro, 0⟩
/-- R314 -/ def Els.CV_RES_VALID : Fld := ⟨8242, 1, .ro, 0⟩
/-- R314 -/ def Els.CV_RES_TAG : Fld := ⟨8243, 3, .ro, 1⟩
/-- R314 -/ def Els.CV_RES_SEQ : Fld := ⟨8248, 8, .ro, 0⟩
/-- R314 -/ def Els.CV_EPOCH_CODE : Fld := ⟨8256, 18, .ro, 0⟩
/-- R314 -/ def Els.CV_EPOCH_VALID : Fld := ⟨8274, 1, .ro, 0⟩
/-- R314 -/ def Els.CV_EPOCH_TAG : Fld := ⟨8275, 3, .ro, 1⟩
/-- R314 -/ def Els.CV_EPOCH_SEQ : Fld := ⟨8280, 8, .ro, 0⟩
/-- R515 -/ def Els.CV_FILT_NAVG : Fld := ⟨8288, 4, .rwc, 1⟩
/-- R515 -/ def Els.CV_FILT_HOLD : Fld := ⟨8296, 1, .rw, 0⟩
/-- R515 -/ def Els.CV_CAL_NAVG : Fld := ⟨8320, 4, .rwc, 4⟩
/-- R515 -/ def Els.CV_CAL_OLIM : Fld := ⟨8328, 12, .rwc, 512⟩
/-- R515 -/ def Els.CV_CAL_GLIM : Fld := ⟨8344, 8, .rwc, 41⟩
/-- R515 -/ def Els.CV_CAL_OFS_OFS : Fld := ⟨8352, 18, .ro, 0⟩
/-- R515 -/ def Els.CV_CAL_GAIN_GAIN : Fld := ⟨8384, 24, .ro, 4194304⟩
/-- R515 -/ def Els.CV_STAT_OVR : Fld := ⟨8416, 1, .w1c, 0⟩
/-- R515 -/ def Els.CV_STAT_RANGE_CNT : Fld := ⟨8432, 16, .w1c, 0⟩
/-- R515 -/ def Els.CV_STAT_CAL_DONE : Fld := ⟨8448, 16, .w1c, 0⟩
/-- R515 -/ def Els.CV_STAT_CAL_FAIL : Fld := ⟨8464, 16, .w1c, 0⟩
/-- R515 -/ def Els.CV_STAT_CAL_ABANDON : Fld := ⟨8480, 16, .w1c, 0⟩
/-- R515 -/ def Els.AUX_CFG_DIRECT : Fld := ⟨8512, 1, .rw, 0⟩
/-- R327 -/ def Els.AUX_RES_CODE : Fld := ⟨8544, 12, .ro, 0⟩
/-- R327 -/ def Els.AUX_RES_VALID : Fld := ⟨8556, 1, .ro, 0⟩
/-- R327 -/ def Els.AUX_RES_URG : Fld := ⟨8557, 1, .ro, 0⟩
/-- R327 -/ def Els.AUX_RES_CHAN : Fld := ⟨8558, 5, .ro, 0⟩
/-- R327 -/ def Els.AUX_RES_OVR : Fld := ⟨8563, 1, .ro, 0⟩
/-- R327 -/ def Els.AUX_RES_SEQ : Fld := ⟨8564, 12, .ro, 0⟩
/-- R515 -/ def Els.AUX_SCAN_MASK : Fld := ⟨8576, 32, .rw, 1073741824⟩
/-- R515 -/ def Els.AUX_SCAN_TRIG : Fld := ⟨8608, 2, .rw, 1⟩
/-- R515 -/ def Els.AUX_SCAN_DIV : Fld := ⟨8616, 8, .rw, 10⟩
/-- R515 -/ def Els.AUX_SCAN_INT : Fld := ⟨8624, 16, .rw, 100⟩
/-- R515 -/ def Els.AUX_SCAN_OFS : Fld := ⟨8640, 16, .rw, 0⟩
/-- R515 -/ def Els.AUX_TRIG_GO : Fld := ⟨8672, 1, .wo, 0⟩
/-- R515 -/ def Els.AUX_URG_SRC : Fld := ⟨8704, 3, .rwc, 0⟩
/-- R515 -/ def Els.AUX_URG_CH0 : Fld := ⟨8712, 5, .rwc, 0⟩
/-- R515 -/ def Els.AUX_URG_CH1 : Fld := ⟨8720, 5, .rwc, 0⟩
/-- R515 -/ def Els.AUX_URG_CH2 : Fld := ⟨8728, 5, .rwc, 0⟩
/-- R515 -/ def Els.AUX_TEMP_CH : Fld := ⟨8736, 5, .rwc, 0⟩
/-- R515 -/ def Els.AUX_TEMP_TGAIN : Fld := ⟨8752, 16, .rwc, 0⟩
/-- R515 -/ def Els.AUX_TEMP_TOFS : Fld := ⟨8768, 16, .rwc, 0⟩
/-- R515 -/ def Els.AUX_STAT_OVR : Fld := ⟨8800, 1, .w1c, 0⟩
/-- R515 -/ def Els.AUX_STAT_TRIG_LOST : Fld := ⟨8801, 1, .w1c, 0⟩
/-- R515 -/ def Els.AUX_STAT_ABORTS : Fld := ⟨8816, 16, .w1c, 0⟩
/-- R515 -/ def Els.PROT_OV_THR : Fld := ⟨10240, 10, .rwc, 1023⟩
/-- R515 -/ def Els.PROT_OV_HYS : Fld := ⟨10256, 6, .rwc, 34⟩
/-- R515 -/ def Els.PROT_TJ_WARN : Fld := ⟨10272, 8, .rwc, 115⟩
/-- R515 -/ def Els.PROT_TJ_CRIT : Fld := ⟨10280, 8, .rwc, 125⟩
/-- R515 -/ def Els.BYP_CFG_FIRE_W : Fld := ⟨10304, 9, .rwc, 100⟩
/-- R515 -/ def Els.BYP_CFG_CONF_TMO : Fld := ⟨10320, 7, .rwc, 20⟩
/-- R515 -/ def Els.BYP_CFG_REFIRE : Fld := ⟨10328, 2, .rwc, 2⟩
/-- R515 -/ def Els.HOLDUP_REPORT : Fld := ⟨10336, 6, .rwc, 20⟩
/-- R515 -/ def Els.PROT_STAT_OVERVOLTAGE : Fld := ⟨10368, 1, .ro, 0⟩
/-- R515 -/ def Els.PROT_STAT_BYP_SW_CONF : Fld := ⟨10369, 1, .ro, 0⟩
/-- R515 -/ def Els.PROT_STAT_AUX_PG : Fld := ⟨10370, 1, .ro, 0⟩
/-- R516 -/ def Els.FLT_SEV_S0 : Fld := ⟨12288, 3, .ro, 4⟩
/-- R516 -/ def Els.FLT_SEV_S1 : Fld := ⟨12292, 3, .rwc, 4⟩
/-- R516 -/ def Els.FLT_SEV_S2 : Fld := ⟨12296, 3, .rwc, 4⟩
/-- R516 -/ def Els.FLT_SEV_S3 : Fld := ⟨12300, 3, .rwc, 4⟩
/-- R516 -/ def Els.FLT_SEV_S4 : Fld := ⟨12304, 3, .rwc, 4⟩
/-- R516 -/ def Els.FLT_SEV_S5 : Fld := ⟨12308, 3, .rwc, 4⟩
/-- R516 -/ def Els.FLT_SEV_S6 : Fld := ⟨12312, 3, .rwc, 5⟩
/-- R516 -/ def Els.FLT_SEV_S7 : Fld := ⟨12316, 3, .rwc, 3⟩
/-- R516 -/ def Els.FLT_SEV_S8 : Fld := ⟨12320, 3, .rwc, 3⟩
/-- R516 -/ def Els.FLT_SEV_S9 : Fld := ⟨12324, 3, .rwc, 3⟩
/-- R516 -/ def Els.FLT_SEV_S10 : Fld := ⟨12328, 3, .rwc, 3⟩
/-- R516 -/ def Els.FLT_SEV_S11 : Fld := ⟨12332, 3, .rwc, 3⟩
/-- R516 -/ def Els.FLT_SEV_S12 : Fld := ⟨12336, 3, .rwc, 2⟩
/-- R516 -/ def Els.FLT_SEV_S13 : Fld := ⟨12340, 3, .rwc, 2⟩
/-- R516 -/ def Els.FLT_SEV_S14 : Fld := ⟨12344, 3, .rwc, 2⟩
/-- R516 -/ def Els.FLT_SEV_S15 : Fld := ⟨12348, 3, .rwc, 2⟩
/-- R516 -/ def Els.FLT_SEV_S16 : Fld := ⟨12352, 3, .rwc, 2⟩
/-- R516 -/ def Els.FLT_SEV_S17 : Fld := ⟨12356, 3, .rwc, 1⟩
/-- R516 -/ def Els.FLT_SEV_S18 : Fld := ⟨12360, 3, .rwc, 1⟩
/-- R516 -/ def Els.FLT_SEV_S19 : Fld := ⟨12364, 3, .rwc, 2⟩
/-- R516 -/ def Els.FLT_SEV_S20 : Fld := ⟨12368, 3, .rwc, 3⟩
/-- R516 -/ def Els.FLT_SEV_S21 : Fld := ⟨12372, 3, .rwc, 2⟩
/-- R516 -/ def Els.FLT_SEV_S22 : Fld := ⟨12376, 3, .rwc, 2⟩
/-- R516 -/ def Els.FLT_SEV_S23 : Fld := ⟨12380, 3, .rwc, 1⟩
/-- R516 -/ def Els.FLT_SEV_S24 : Fld := ⟨12384, 3, .rwc, 3⟩
/-- R516 -/ def Els.FLT_SEV_S25 : Fld := ⟨12388, 3, .rwc, 4⟩
/-- R516 -/ def Els.FLT_SEV_S26 : Fld := ⟨12392, 3, .rwc, 2⟩
/-- R516 -/ def Els.FLT_SEV_S27 : Fld := ⟨12396, 3, .rwc, 3⟩
/-- R516 -/ def Els.FLT_SEV_S28 : Fld := ⟨12400, 3, .rwc, 4⟩
/-- R516 -/ def Els.FLT_SEV_S29 : Fld := ⟨12404, 3, .rwc, 1⟩
/-- R516 -/ def Els.FLT_CLS0_FIXED : Fld := ⟨12544, 2, .ro, 3⟩
/-- R516 -/ def Els.FLT_CLS0_CLS : Fld := ⟨12546, 30, .rwc, 75497489⟩
/-- R516 -/ def Els.FLT_CLS1_CLS : Fld := ⟨12576, 32, .rwc, 0⟩
/-- R516 -/ def Els.FLT_STICKY0 : Fld := ⟨12608, 32, .w1cBits, 0⟩
/-- R516 -/ def Els.FLT_STICKY1 : Fld := ⟨12640, 32, .w1cBits, 0⟩
/-- R516 -/ def Els.FLT_ACT0 : Fld := ⟨12672, 32, .ro, 0⟩
/-- R516 -/ def Els.FLT_ACT1 : Fld := ⟨12704, 32, .ro, 0⟩
/-- R516 -/ def Els.FLT_FIRST_SOURCE : Fld := ⟨12736, 6, .ro, 0⟩
/-- R516 -/ def Els.FLT_FIRST_SEVERITY : Fld := ⟨12742, 3, .ro, 0⟩
/-- R516 -/ def Els.FLT_FIRST_VALID : Fld := ⟨12767, 1, .w1c, 0⟩
/-- R516 -/ def Els.FLT_FIRST_TS_NS : Fld := ⟨12768, 64, .ro, 0⟩
/-- R516 -/ def Els.FLT_STAT_OVF : Fld := ⟨12832, 1, .w1c, 0⟩
/-- R516 -/ def Els.FLT_CFG_PORT_N : Fld := ⟨12864, 4, .rwc, 3⟩
/-- R516 -/ def Els.FLT_CFG_REL : Fld := ⟨12872, 8, .rwc, 16⟩
/-- R516 -/ def Els.FLT_CFG_RWIN : Fld := ⟨12880, 16, .rwc, 10000⟩
/-- R516 -/ def Els.FLT_CLR_ALERT_ACK : Fld := ⟨12896, 1, .wo, 0⟩

/-- Part of the table of fields. -/
def Els.table0 : List Fld :=
  [Els.CELL_ID_REV, Els.CELL_ID_ROM, Els.CELL_ID_PART, Els.GEN_STAT_STATE, Els.GEN_STAT_HOLDING, Els.GEN_STAT_FALLBACK, Els.GEN_STAT_BYPASSED, Els.GEN_STAT_CAL_ACTIVE, Els.GEN_STAT_TIME_FROZEN, Els.AUTH_CFG_LEASE_PERIODS, Els.AUTH_CFG_HOLD_LIMIT, Els.AUTH_CFG_ORPHAN_TX, Els.AUTH_STAT_OWNER, Els.AUTH_STAT_CLAIM_REFUSED, Els.AUTH_STAT_EPOCH, Els.GLIM_CFG_INT, Els.GLIM_CFG_LO, Els.GLIM_CFG_HI, Els.GLIM_STAT_CODE, Els.GLIM_STAT_TAG, Els.CELL_TIME_TC, Els.CELL_TIME_STEP_THR, Els.CELL_TIME_STAT_STEPS, Els.CELL_TIME_NS_NS]
/-- Part of the table of fields. -/
def Els.table1 : List Fld :=
  [Els.CELL_TIME_E_E, Els.DBG_CTL_HALT, Els.DBG_CTL_RESUME, Els.DBG_STAT_HALTED, Els.DBG_STAT_HALT_REFUSED, Els.MRAM_STAT_CORR, Els.MRAM_STAT_UNCORR, Els.MRAM_LOG_HEAD, Els.SEC_STAT_ANCHOR_SET, Els.SEC_STAT_KEYED_A, Els.SEC_STAT_KEYED_B, Els.SEC_STAT_PATCH_ERR, Els.SEC_STAT_UNLOCKED, Els.SEC_SERIAL_SERIAL, Els.CELL_SW_FB, Els.PWM_CAR_RATIO, Els.PWM_CAR_PHASE, Els.PWM_DT_DT12, Els.PWM_DT_DT34, Els.PWM_MINP_MINPULSE, Els.PWM_TDUTY12_DUTY, Els.PWM_TDUTY34_DUTY, Els.CELL_HYST_BAND, Els.CELL_HYST_STEP]
/-- Part of the table of fields. -/
def Els.table2 : List Fld :=
  [Els.CELL_FB_EN, Els.CELL_FB_N, Els.CELL_FB_BAND, Els.GFB_CFG_TMO, Els.GFB_CFG_N, Els.PWM_STAT_DROP, Els.PWM_STAT_STRETCH, Els.PWM_STAT_DT_DROP, Els.PWM_STAT_CMD_LATE, Els.PWM_STAT_LATE_WRITE, Els.PWM_STAT_RESYNC, Els.GML_CFG_EN, Els.GML_CFG_TMO, Els.GML_CFG_RETRY, Els.DIE_TRIM_EN, Els.DIE_TRIM_EVENTS, Els.DIE_TRIM_DB, Els.DIE_TRIM_SHARE_DB, Els.DIE_TRIM_IMIN, Els.DIE_ISO_AUTO, Els.DIE_ISO_N, Els.DIE_ISO_SHARE, Els.DIE_ISO_MAX, Els.DIE_TEMP_WARN]
/-- Part of the table of fields. -/
def Els.table3 : List Fld :=
  [Els.DIE_TEMP_TMAX, Els.DIE_STAT_TRIM_CHG, Els.GML_STAT1_CRC_ERR, Els.GML_STAT2_CRC_ERR, Els.GML_STAT3_CRC_ERR, Els.GML_STAT4_CRC_ERR, Els.GML_STAT1_UP, Els.GML_STAT2_UP, Els.GML_STAT3_UP, Els.GML_STAT4_UP, Els.CV_CFG_OSR, Els.CV_CFG_GAIN, Els.CV_CFG_INSEL, Els.CV_RES_CODE, Els.CV_RES_VALID, Els.CV_RES_TAG, Els.CV_RES_SEQ, Els.CV_EPOCH_CODE, Els.CV_EPOCH_VALID, Els.CV_EPOCH_TAG, Els.CV_EPOCH_SEQ, Els.CV_FILT_NAVG, Els.CV_FILT_HOLD, Els.CV_CAL_NAVG]
/-- Part of the table of fields. -/
def Els.table4 : List Fld :=
  [Els.CV_CAL_OLIM, Els.CV_CAL_GLIM, Els.CV_CAL_OFS_OFS, Els.CV_CAL_GAIN_GAIN, Els.CV_STAT_OVR, Els.CV_STAT_RANGE_CNT, Els.CV_STAT_CAL_DONE, Els.CV_STAT_CAL_FAIL, Els.CV_STAT_CAL_ABANDON, Els.AUX_CFG_DIRECT, Els.AUX_RES_CODE, Els.AUX_RES_VALID, Els.AUX_RES_URG, Els.AUX_RES_CHAN, Els.AUX_RES_OVR, Els.AUX_RES_SEQ, Els.AUX_SCAN_MASK, Els.AUX_SCAN_TRIG, Els.AUX_SCAN_DIV, Els.AUX_SCAN_INT, Els.AUX_SCAN_OFS, Els.AUX_TRIG_GO, Els.AUX_URG_SRC, Els.AUX_URG_CH0]
/-- Part of the table of fields. -/
def Els.table5 : List Fld :=
  [Els.AUX_URG_CH1, Els.AUX_URG_CH2, Els.AUX_TEMP_CH, Els.AUX_TEMP_TGAIN, Els.AUX_TEMP_TOFS, Els.AUX_STAT_OVR, Els.AUX_STAT_TRIG_LOST, Els.AUX_STAT_ABORTS, Els.PROT_OV_THR, Els.PROT_OV_HYS, Els.PROT_TJ_WARN, Els.PROT_TJ_CRIT, Els.BYP_CFG_FIRE_W, Els.BYP_CFG_CONF_TMO, Els.BYP_CFG_REFIRE, Els.HOLDUP_REPORT, Els.PROT_STAT_OVERVOLTAGE, Els.PROT_STAT_BYP_SW_CONF, Els.PROT_STAT_AUX_PG, Els.FLT_SEV_S0, Els.FLT_SEV_S1, Els.FLT_SEV_S2, Els.FLT_SEV_S3, Els.FLT_SEV_S4]
/-- Part of the table of fields. -/
def Els.table6 : List Fld :=
  [Els.FLT_SEV_S5, Els.FLT_SEV_S6, Els.FLT_SEV_S7, Els.FLT_SEV_S8, Els.FLT_SEV_S9, Els.FLT_SEV_S10, Els.FLT_SEV_S11, Els.FLT_SEV_S12, Els.FLT_SEV_S13, Els.FLT_SEV_S14, Els.FLT_SEV_S15, Els.FLT_SEV_S16, Els.FLT_SEV_S17, Els.FLT_SEV_S18, Els.FLT_SEV_S19, Els.FLT_SEV_S20, Els.FLT_SEV_S21, Els.FLT_SEV_S22, Els.FLT_SEV_S23, Els.FLT_SEV_S24, Els.FLT_SEV_S25, Els.FLT_SEV_S26, Els.FLT_SEV_S27, Els.FLT_SEV_S28]
/-- Part of the table of fields. -/
def Els.table7 : List Fld :=
  [Els.FLT_SEV_S29, Els.FLT_CLS0_FIXED, Els.FLT_CLS0_CLS, Els.FLT_CLS1_CLS, Els.FLT_STICKY0, Els.FLT_STICKY1, Els.FLT_ACT0, Els.FLT_ACT1, Els.FLT_FIRST_SOURCE, Els.FLT_FIRST_SEVERITY, Els.FLT_FIRST_VALID, Els.FLT_FIRST_TS_NS, Els.FLT_STAT_OVF, Els.FLT_CFG_PORT_N, Els.FLT_CFG_REL, Els.FLT_CFG_RWIN, Els.FLT_CLR_ALERT_ACK]
/-- Every described field of this block. -/
def Els.table : List Fld :=
  Els.table0 ++
  Els.table1 ++
  Els.table2 ++
  Els.table3 ++
  Els.table4 ++
  Els.table5 ++
  Els.table6 ++
  Els.table7

/-- The registers of more than one word (byte offset, number of words), R21 and R484. -/
def Els.multi : List (Nat × Nat) :=
  [(12, 2), (20, 3), (548, 3), (772, 2), (1052, 3), (1072, 3), (1092, 2), (1596, 2), (1800, 2), (2568, 2)]

/-! Elsum port instance (R513): bit address relative to the port base. -/

/-- R513 -/ def Port.PORT_ID_TREE_ID : Fld := ⟨0, 16, .ro, 0⟩
/-- R513 -/ def Port.PORT_ID_SLOT : Fld := ⟨16, 7, .ro, 0⟩
/-- R513 -/ def Port.PORT_ID_VALID : Fld := ⟨23, 1, .ro, 0⟩
/-- R513 -/ def Port.DS_DELAY_DELAY : Fld := ⟨32, 15, .rw, 0⟩
/-- R513 -/ def Port.EQ_EQ : Fld := ⟨64, 15, .rw, 0⟩
/-- R513 -/ def Port.PORT_STAT_REJ_TAG : Fld := ⟨96, 16, .w1c, 0⟩
/-- R513 -/ def Port.PORT_STAT_REJ_OTHER : Fld := ⟨112, 16, .w1c, 0⟩

/-- Part of the table of fields. -/
def Port.table0 : List Fld :=
  [Port.PORT_ID_TREE_ID, Port.PORT_ID_SLOT, Port.PORT_ID_VALID, Port.DS_DELAY_DELAY, Port.EQ_EQ, Port.PORT_STAT_REJ_TAG, Port.PORT_STAT_REJ_OTHER]
/-- Every described field of this block. -/
def Port.table : List Fld :=
  Port.table0

/-- The registers of more than one word (byte offset, number of words), R21 and R484. -/
def Port.multi : List (Nat × Nat) :=
  []

end Sys2Proof.Machine
end

