-- ==== Sys2Proof/Machine/Maps.lean ====
section
/-! DEFINITION. Finite maps by number, kept as lists with strictly rising keys: the register files, and the
state of each repeated unit (tree, region, cell, ring). -/

namespace Sys2Proof.Machine

/-- A finite map by number, keys strictly rising. -/
abbrev FMap (α : Type) := List (Nat × α)

/-- The value at a key, `d` where none is listed. -/
def fget {α : Type} (d : α) : FMap α → Nat → α
  | [], _ => d
  | (k, v) :: t, x => if k = x then v else fget d t x

/-- The map with `v` at key `x`. -/
def fset {α : Type} (x : Nat) (v : α) : FMap α → FMap α
  | [] => [(x, v)]
  | (k, w) :: t => if x < k then (x, v) :: (k, w) :: t else if x = k then (x, v) :: t else (k, w) :: fset x v t

/-- The map with nothing at key `x`. -/
def fdel {α : Type} (x : Nat) : FMap α → FMap α
  | [] => []
  | (k, w) :: t => if k = x then fdel x t else (k, w) :: fdel x t

/-- The map with the value at key `x` changed by `f`. -/
def fmod {α : Type} (d : α) (x : Nat) (f : α → α) (m : FMap α) : FMap α := fset x (f (fget d m x)) m

/-- Whether a key is listed. -/
def fhas {α : Type} : FMap α → Nat → Bool
  | [], _ => false
  | (k, _) :: t, x => if k = x then true else fhas t x

/-- Keys strictly rising. -/
def frising {α : Type} : FMap α → Bool
  | [] => true
  | [_] => true
  | (a, _) :: (b, v) :: t => decide (a < b) && frising ((b, v) :: t)

/-- A register file: values by the bit address of the field; a field not listed holds its reset value. -/
abbrev Regs := FMap Nat

/-- The value of a field. -/
def Regs.rd (m : Regs) (f : Fld) : Nat := fget f.rst m f.lsb

/-- The register file with the field at `v` (of which the field holds its own width). -/
def Regs.wr (m : Regs) (f : Fld) (v : Nat) : Regs :=
  if v % 2 ^ f.width = f.rst then fdel f.lsb m else fset f.lsb (v % 2 ^ f.width) m

/-- The same field of another instance, `off` bytes on (R482). -/
def Fld.at (f : Fld) (off : Nat) : Fld := { f with lsb := f.lsb + 8 * off }

/-- The same field of instance `n` of a windowed register (R486). -/
def Fld.win (f : Fld) (n : Nat) : Fld := { f with lsb := f.lsb + n * 2 ^ 40 }

end Sys2Proof.Machine
end

