-- ==== Sys2Proof/Machine/State.lean ====
section
/-! DEFINITION. The state of the block: everything the manual gives a Basath unit, its Elsum cells and
their gate matrices, as plain data. Values that a register shows are in the register files and nowhere else. -/

namespace Sys2Proof.Machine

/-- Why the machine stops with a fault: it never does. What the manual calls a fault is an effect on the state (R335). -/
inductive Fault where
  deriving DecidableEq, Repr

/-- Why a command is refused. -/
inductive Refusal where
  /-- The command has no meaning in this model yet. Safe: nothing is claimed of it. -/
  | notModelled (mnemonic : String)
  deriving DecidableEq, Repr

/-- Byte memory: addresses strictly rising, and no entry equal to what an unlisted address reads as, which is 0 (log entry 4, DESIGN CHOICE). -/
abbrev Memory := List Host.Cell

/-- The time counter and what it drives (R55 to R92): the counter, its value at the last edge of REFCLK (R56), and the number of 2 ns ticks in
which anything has happened, by which R20 tells one clock from the next. -/
structure TimeSt where
  ctr : Time := 0
  base : Time := 0
  tick : Nat := 0
  refclk : Bool := true
  armed : Option W64 := none
  armedAt : Nat := 0
  committed : Option (W64 × Nat) := none
  epochAt : Nat := 0
  ppsOut : Bool := false
  ppsRise : Nat := 0
  ppsSecond : Nat := 0
  ppsInLast : Option Nat := none
  tevtLast : FMap Nat := []
  tevtArm : FMap Nat := []
  tevtHigh : FMap Nat := []
  peerBad : Nat := 0
  lastGlimmer : Nat := 0
  launched : Option Nat := none
  launchNs : Nat := 0
  deriving DecidableEq, Repr

/-- A fault collector: the chip, a region, a tree of a region, or a cell (R335). -/
inductive Coll where
  | chip
  | region (r : Nat)
  | tree (r t : Nat)
  | cell (c : Nat)
  deriving DecidableEq, Repr

/-- One occurrence of a source, or one active condition: the source number, what it is scoped to, a
ceiling on its severity (R349), its timestamp where that is not the collection tick (R360), and DETAIL (R359). -/
structure Occ where
  src : Nat
  cell : Option Nat := none
  arm : Option (Nat × Nat) := none
  conv : Option Nat := none
  cap : Nat := 7
  ts : Option Time := none
  detail : Nat := 0
  deriving DecidableEq, Repr

/-- What a collector holds beside its registers: the occurrences held for the next tick, the conditions
that hold, those that were active at the tick before (R336), whether one at or above CFLT_REC.THR was (R356), the PN of each source's last record and its REPEAT count (R359). -/
structure CollSt where
  events : List Occ := []
  conds : List Occ := []
  prev : List (Nat × Nat) := []
  loud : Bool := false
  posted : FMap Nat := []
  repeats : FMap Nat := []
  deriving DecidableEq, Repr

/-- Who asks for a mode (R386). -/
inductive Requester where
  | fault | warden | host
  deriving DecidableEq, Repr

/-- When a granted transition takes effect (R387). -/
inductive Effect where
  | atOnce
  | epoch
  | launch
  | entry
  | exit
  deriving DecidableEq, Repr

/-- A mode request (R386). -/
structure ModeReq where
  who : Requester
  target : Nat
  recovery : Bool := false
  deriving DecidableEq, Repr

/-- A granted request that has not taken effect: when it does, and from which PN or counter value (R387). -/
structure Running where
  req : ModeReq
  effect : Effect
  grantedAt : Nat
  pn : Option Nat := none
  deriving DecidableEq, Repr

/-- An entry to M3 or M4 (R396): the last step completed, and the blocks stopped so far. -/
structure Entry where
  step : Nat := 1
  stopped : List Nat := []
  deriving DecidableEq, Repr

/-- Mode control, recovery, power and AVSBus (R356 to R358, R386 to R405). `atEpoch`: the mode at the last epoch (R224); `lastGrant`: the collection tick of the last
grant, and for whom (R388). `resetN`: the level of SYS_RESET_N (R526). -/
structure ModeSt where
  running : Option Running := none
  pending : Option ModeReq := none
  entry : Option Entry := none
  exitStep : Nat := 0
  quietFrom : Option Nat := none
  quietDone : Bool := false
  recTimes : List Nat := []
  recUntil : Option Nat := none
  idleFrom : Nat := 0
  wakePend : Nat := 0
  gated : Bool := false
  retryAt : Option Nat := none
  rtFalse : Nat := 0
  gaugeWait : Bool := false
  avsReq : FMap Nat := []
  avsWait : FMap Nat := []
  avsTry : FMap Nat := []
  avsSent : FMap Nat := []
  coreSlowSince : Bool := false
  coreAtGauge : Nat := 800
  calDueAt : Option Nat := none
  calMv : Nat := 0
  exitDead : Bool := false
  calFrom : Nat := 0
  evalAt : Nat := 0
  resumeFrom : Option Nat := none
  resetN : Bool := false
  mramQueue : Nat := 0
  atEpoch : Nat := 0
  lastGrant : Option (Nat × Requester) := none
  deriving DecidableEq, Repr

/-- One ring (R412 to R415): its free-running indices, the commands fetched and not started, those started
and not completed, whether a descriptor was dropped since the last one written, and the last descriptor in each slot. -/
structure RingSt where
  prod : Nat := 0
  cons : Nat := 0
  fetched : Nat := 0
  waiting : Nat := 0
  openCmds : Nat := 0
  lost : Bool := false
  slots : FMap (BitVec 256) := []
  deriving DecidableEq, Repr

/-- A completion that waits for room in its ring (R415): its ring, opcode, fields (offset, bytes, value) and whether it notifies. -/
structure CplWait where
  ring : Nat
  op : Nat
  fields : List (Nat × Nat × Nat)
  notify : Bool
  deriving DecidableEq, Repr

/-- The host interface (R410 to R432). -/
structure HostSt where
  rings : FMap RingSt := []
  msixTab : FMap Nat := []
  msixUnmasked : List Nat := []
  pba : Nat := 0
  modTimer : FMap Nat := []
  msixSent : FMap Nat := []
  readOpen : Bool := false
  fails : Nat := 0
  pollAt : Nat := 0
  cplWait : List CplWait := []
  pcieUp : Bool := true
  deriving DecidableEq, Repr

/-- A staged Clause (R423, R424). -/
structure Staged where
  items : List Item
  checked : Bool := false
  checkPn : Nat := 0
  est : Nat := 0
  underArmed : Bool := false
  deriving DecidableEq, Repr

/-- The delivery of one cell's part of an armed Clause (R427). -/
structure CellDeliv where
  cell : Nat
  confirmed : Bool := false
  tries : Nat := 0
  deriving DecidableEq, Repr

/-- An armed Clause (R426 to R428). -/
structure Armed where
  items : List Item
  id : Nat
  epoch : Nat
  armedAt : Nat
  cells : List CellDeliv := []
  committed : Bool := false
  deriving DecidableEq, Repr

/-- The outcome carried in the period Beacons (R429): the identifier, whether it is apply, and how many Beacons are left. -/
structure Outc where
  id : Nat
  apply : Bool
  left : Nat
  deriving DecidableEq, Repr

/-- An applied Clause until its closed record (R429). -/
structure Applied where
  id : Nat
  epoch : Nat
  cells : List Nat
  late : List Nat := []
  deriving DecidableEq, Repr

/-- Clauses (R423 to R431). -/
structure ClauseSt where
  staged : Option Staged := none
  armed : Option Armed := none
  applied : Option Applied := none
  outcome : Option Outc := none
  lastOutcome : Option Nat := none
  nextId : Nat := 1
  deriving DecidableEq, Repr

/-- What a management transaction was made for (R128, R350, R416, R427, R451). -/
inductive Origin where
  | host (ring tag op : Nat) (notify : Bool) (len : Nat)
  | clauseSet (cell : Nat)
  | crcQuery (cell : Nat)
  | alertAck
  | ranging
  | rangeResult
  | hold
  | enumStep
  deriving DecidableEq, Repr

/-- A management transaction of a tree port (R126 to R128): its segments, the next to send, and what has come back. -/
structure Txn where
  num : Nat
  slot : Nat
  bcast : Bool := false
  segs : List Seg
  next : Nat := 0
  sentPn : Option Nat := none
  tries : Nat := 0
  frags : Nat := 0
  reply : List Byte := []
  front : Bool := false
  origin : Origin
  deriving DecidableEq, Repr

/-- What the tree port and the rank keeper hold of one slot (R102, R116 to R122, R131, R220, R451, R452). -/
structure SlotSt where
  dsDelay : Nat := 0
  eq : Nat := 0
  ranged : Bool := false
  rtt : Int := 0
  askedAt : Option Time := none
  newDelay : Option (Nat × Nat × Nat) := none
  serial : W64 := 0
  phase : Nat := 0
  tries : Nat := 0
  kxChunk : Nat := 0
  revRom : Nat := 0
  heard : Bool := false
  miss : Nat := 0
  drift : Nat := 0
  tagFails : Nat := 0
  last : Option Glint := none
  lastAt : Time := 0
  isolated : Bool := false
  recNow : CmdRec := ⟨0, false, 0, 0⟩
  recNext : CmdRec := ⟨0, false, 0, 0⟩
  recMap : CmdRec := ⟨0, false, 0, 0⟩
  recMapPn : Option Nat := none
  staged : Option CmdRec := none
  blockedIn : Bool := false
  ownerSeen : Option Bool := none
  holdAt : Bool := false
  deriving DecidableEq, Repr

/-- A tree port (R97 to R131) and its enumeration (R443 to R456). `lastTx`: the last frame given to the lane, which a block Beacon may still hold back
(R27), `blockTx`: the last block Beacon; the provisional offset, that at the end of the last period, the drifted arrivals of the period, each in 0.01 ns
(R118, R120), the steps of the round trip by slot, and the first period of a re-range whose plan is the wider one. -/
structure TreeSt where
  key : Key := 0
  keyed : Bool := false
  slots : FMap SlotSt := []
  seq : Nat := 0
  blockDue : Bool := false
  laneFree : Nat := 0
  beaconOn : Bool := false
  extraUsed : Nat := 0
  beaconPn : Nat := 0
  lastTx : Option DownFrame := none
  lastTxAt : Time := 0
  blockTx : Option DownFrame := none
  blockTxAt : Time := 0
  txCount : Nat := 0
  laneOn : Bool := false
  lostN : Nat := 0
  rrLeft : Nat := 0
  rrApply : Bool := false
  rrRestarts : Nat := 0
  provOfs : Int := 0
  provPrev : Int := 0
  driftNow : List Int := []
  rttSteps : FMap Int := []
  rrFrom : Nat := 0
  txns : List Txn := []
  nextTxn : Nat := 0
  rrCursor : Nat := 0
  rangeCursor : Nat := 0
  firstPn : Nat := 0
  enumFrom : Nat := 0
  enumPn : Nat := 0
  enumRound : Nat := 0
  enumIdx : Nat := 0
  enumLeft : Nat := 0
  flush : Bool := false
  enumCursor : Nat := 0
  enumReq : Option Seg := none
  reqAt : Time := 0
  parks : List (Nat × Nat × Nat) := []
  lastAlert : Time := 0
  firstBeacon : Bool := true
  stopped : Bool := false
  deriving DecidableEq, Repr

/-- The Mirror link and the two units' authority (R362 to R382, R470). -/
structure MirrorSt where
  aligned : Bool := false
  peerUnit : Option Bool := none
  key : Key := 0
  keyed : Bool := false
  myAgreed : Key := 0
  offerSent : Bool := false
  confirmSent : Bool := false
  confirmAt : Nat := 0
  retryAt : Option Nat := none
  lease : Option Lease := none
  leaseAt : Time := 0
  lossCnt : Nat := 0
  heardLease : Bool := false
  holdRun : Nat := 0
  claimFrom : Option Nat := none
  yieldPend : Bool := false
  yieldLeft : Nat := 0
  handover : Option (Nat × Bool) := none
  handoverIn : Option Nat := none
  healthy : Bool := true
  auth : Bool := false
  maxLast : W32 := 0
  peerEpoch : W32 := 0
  copyPn : Nat := 0
  copySegs : List StateSeg := []
  missRun : Nat := 0
  missPn : Option Nat := none
  pnTake : Option Nat := none
  pnAligned : Bool := false
  copyDue : Option Nat := none
  copyTick : Option Nat := none
  broke : Bool := false
  lastTx : W64 := 0
  txLease : Option Lease := none
  txKinds : FMap Nat := []
  txState : List StateSeg := []
  stopped : Bool := false
  deriving DecidableEq, Repr

/-- What an arm holds beside its registers (R189 to R248, R347, R354). -/
structure ArmSt where
  blockAt : Option Nat := none
  enabledAt : Option (Nat × Nat × Nat) := none
  dirPrev : Bool := false
  calCursor : Nat := 0
  words : List (Nat × Bool) := []
  iNow : Int := 0
  iStale : Bool := true
  noEntry : Bool := true
  limPrev : W32 := 0
  uOut : W32 := 0
  outTag : Bool := false
  missed : Bool := false
  ffRun : FMap Nat := []
  deriving DecidableEq, Repr

/-- A Verb granted to an engine (R138): its home region, Phrase, activation and index, and how it was taken. -/
structure Grant where
  home : Nat
  phrase : Nat
  act : Nat
  verb : Nat
  stolen : Bool := false
  xregion : Bool := false
  since : Nat := 0
  deriving DecidableEq, Repr

/-- A result held until release (R141): a word of SRAM, a command record of a cell, an update of a published
dataset member, the released direction of an arm, its ARM_OUT, capped edges, a persistent pointer, the output of LIM, a feed-forward word
written, a handover completed, or the start of a slew. -/
inductive Result where
  | store (addr : Nat) (w : W32)
  | record (cell : Nat) (r : CmdRec)
  | goose (set member : Nat) (w : W32)
  | dir (arm : Nat) (discharge : Bool)
  | armOut (arm nInt duty : Nat) (neg clamp : Bool)
  | edgeCap (arm n : Nat)
  | pointer (phrase idx : Nat) (v : BitVec 23)
  | lim (arm : Nat) (u : W32) (tag : Bool)
  | ff (arm word : Nat) (held : Bool)
  | handover (phrase : Nat) (slew : Bool) (delta : W32) (periods : Nat)
  | slewStart (arm : Nat)
  deriving DecidableEq, Repr

/-- The registers of one engine (R161), with the instruction index, the loops entered, the stores and
outputs it holds until completion (R177, R181), and the Verb it runs. -/
structure Eng where
  run : Option Grant := none
  blocked : Bool := false
  blockedFrom : Nat := 0
  d : List W32 := List.replicate 16 0
  a0 : BitVec 72 := 0
  a1 : BitVec 72 := 0
  p : List (BitVec 23) := List.replicate 8 0
  ofs : List (BitVec 24) := List.replicate 8 0
  cb : List (BitVec 23) := List.replicate 4 0
  cl : List (BitVec 17) := List.replicate 4 0
  lc0 : BitVec 6 := 0
  lc1 : BitVec 6 := 0
  z : Bool := false
  n : Bool := false
  v : Bool := false
  accSat0 : Bool := false
  accSat1 : Bool := false
  wsat : Bool := false
  vsat : Bool := false
  addrErr : Bool := false
  ip : Nat := 0
  loops : List (Nat × Nat) := []
  stores : List (Nat × W32) := []
  outs : List (Nat × W32) := []
  res : List Result := []
  blockReq : Option (Bool × Nat) := none
  tagIn : Bool := false
  ended : Bool := false
  cancelled : Bool := false
  deriving DecidableEq, Repr

/-- One Verb of an activation: 0 waiting, 1 ready, 2 running, 3 complete, 4 released, 5 held back for a reorder-buffer context (R142), 6 held back
because its ready list is full (R139; log entry 89, DESIGN CHOICE). -/
structure VSt where
  st : Nat := 0
  outs : List (Nat × W32) := []
  tag : Bool := false
  results : List Result := []
  readyAt : Nat := 0
  deriving DecidableEq, Repr

/-- One ASDU as a region keeps it (R203, R204): its sample time in ns, and the converted members with their validity. -/
structure Asdu where
  time : Int
  words : List (W32 × Bool)
  deriving DecidableEq, Repr

/-- An activation of a Phrase (R134): its number, period and epoch, triggering entry, whether the unit was in M9 at that epoch (R224), the loop states in
force then (R208; bit l: loop l is CLOSED), the arm's reference record (R200) and the ASDU rings (R204) as they stood at the trigger, its Verbs, and the results that have passed the release port of a class-1
activation whose Sentences are not all released (R38). -/
structure Act where
  phrase : Nat
  num : Nat
  pn : Nat
  epochAt : Nat
  entry : List W32 := []
  rt : Bool := false
  loops : Nat := 0
  refs : List W32 := []
  sv : FMap (List Asdu) := []
  verbs : List VSt := []
  passed : List Result := []
  deriving DecidableEq, Repr

/-- One entry of a ready list (R139). -/
structure Ready where
  phrase : Nat
  act : Nat
  verb : Nat
  deriving DecidableEq, Repr

/-- The dispatcher of a region (R133 to R154). `held`: the class-2 triggers held pending (R134); `missRun`: for a Phrase, its misses in consecutive periods and
the PN of the last (R150); `slackTick`, `slackOld`, `slackNow`: the 2 ns tick of the last release that counts for DISP_SLACK, the field before it, and
the least slack of that tick (R152). -/
structure DispSt where
  engs : FMap Eng := []
  acts : List Act := []
  lists : FMap (List Ready) := []
  nextAct : Nat := 0
  actCount : FMap Nat := []
  held : FMap Act := []
  ptrs : FMap (BitVec 23) := []
  missRun : FMap (Nat × Nat) := []
  away : List (Nat × Grant) := []
  gaugeLow : Nat := 0
  quiesced : Bool := false
  trace : List (BitVec 128) := []
  traceLost : Bool := false
  traceCount : Nat := 0
  calPend : List Nat := []
  slackTick : Nat := 0
  slackOld : Int := 32767
  slackNow : Int := 32767
  deriving DecidableEq, Repr

/-- The term of one period (R229, R234): its PN, the arm current in Q8.24, the insertion term in units of 2^-16, and
whether the period makes an interval ineligible. -/
structure Term where
  pn : Nat
  i : Int
  ins : Int
  bad : Bool
  deriving DecidableEq, Repr

/-- What the rank keeper holds of one cell (R228 to R249): the base sample (code and epoch), C_EST, the terms since the earlier of
the base and the open interval, that interval (epoch, code), the periods that a report or a snapshot has made ineligible (R234), what the last accepted
report showed, its calibration (the freeze that marked it, the last one done), and whether a resume found it not retained (R236). -/
structure RankCell where
  base : Option (Nat × Nat) := none
  cEst : Nat := 0
  terms : List Term := []
  ivl : Option (Nat × Nat) := none
  badPns : List Nat := []
  reported : Bool := false
  bypassed : Bool := false
  sevHigh : Bool := false
  holding : Bool := false
  temp : Int := 0x7FFF
  stale : Bool := false
  drift : Bool := false
  avail : Bool := false
  vPred : Nat := 0
  calAt : Option Nat := none
  calDone : Option Nat := none
  lost : Bool := false
  deriving DecidableEq, Repr

/-- One cell of a frozen snapshot (R228, R230, R237, R240). -/
structure SnapCell where
  cell : Nat
  vPred : Nat
  vBase : Nat
  age : Nat
  cEst : Nat
  avail : Bool
  inc : Bool
  calib : Bool
  isol : Bool
  excl : Bool
  stale : Bool
  noBase : Bool
  calDue : Bool
  temp : Int
  deriving DecidableEq, Repr

/-- One arm of a frozen snapshot, its cells in arm order (R240, R241). -/
structure SnapArm where
  arm : Nat
  cells : List SnapCell
  i : Int
  dirPrev : Bool
  deriving DecidableEq, Repr

/-- A frozen snapshot of a region that is not yet in its buffers (R239). -/
structure Snap where
  pn : Nat
  arms : List SnapArm
  deriving DecidableEq, Repr

/-- An accepted frame of a lane: the instants of its byte 0 and of its completed check, in quarter nanoseconds (R188, R189). -/
structure LaneFrame where
  start : Nat
  done : Nat
  f : MeasFrame
  deriving DecidableEq, Repr

/-- A sampled-value stream (R202 to R204): the last 4 ASDUs, newest first, the last smpCnt, and the time of the last frame. -/
structure SvSt where
  ring : List Asdu := []
  cnt : Option Nat := none
  lastAt : Option Nat := none
  lost : Bool := false
  deriving DecidableEq, Repr

/-- A GOOSE subscription (R206): its dataset, last stNum, arrival deadline in quarter nanoseconds (R93), and whether it has expired. -/
structure GooseSt where
  words : List W32 := []
  stNum : Option W32 := none
  deadline : Option Nat := none
  expired : Bool := false
  deriving DecidableEq, Repr

/-- A published GOOSE dataset (R207): its members, the changes collected, each with the PN of the epoch after which it is sent, stNum, the interval
to the next message in ns, when it is due, and the last message: stNum, timeAllowedtoLive in ns, members, egress time. -/
structure PubSt where
  words : FMap W32 := []
  changes : List (Nat × FMap W32) := []
  stNum : Nat := 0
  interval : Nat := 0
  nextAt : Option Nat := none
  sent : Option (Nat × Nat × List W32 × Nat) := none
  deriving DecidableEq, Repr

/-- A frame queued on a station port (R86, R87, R416), with its check sequence. -/
structure TxFrame where
  cmd : HostCmd
  frame : List Byte
  launch : Option Nat
  late : Bool
  oneStep : Bool
  retTs : Bool
  deriving DecidableEq, Repr

/-- The station network (R78 to R89, R202 to R207). `busy`: until when the medium of a port is taken, in quarter nanoseconds; `out`: the last frame that left a
port; `pdelay`: the Pdelay_Req received on a port, with their timestamps in quarter nanoseconds (R81). -/
structure StnSt where
  sv : FMap SvSt := []
  goose : FMap GooseSt := []
  pubs : FMap PubSt := []
  tx : FMap (List TxFrame) := []
  busy : FMap Nat := []
  out : FMap (List Byte) := []
  pdelay : FMap (List (Nat × Nat)) := []
  deriving DecidableEq, Repr

/-- What a region holds beside its registers, dispatcher, arms and trees (R189, R190, R193, R209, R236, R240, R406, R476). -/
structure RgnSt where
  lanes : FMap (List LaneFrame) := []
  good : FMap W32 := []
  stale : FMap Nat := []
  glimAt : Nat := 0
  loopReq : List (Nat × Nat × Nat) := []
  refWrites : FMap W32 := []
  logPn : Nat := 0
  logN : Nat := 0
  mramCur : Nat := 0
  frozenPn : Option Nat := none
  snap : Option Snap := none
  snapIdx : FMap (List Nat) := []
  deriving DecidableEq, Repr

/-! ### Elsum cells and their gate matrices. Instants of a cell are quarter nanoseconds of its own time. -/

/-- The clock of a cell (R72 to R76, R121): cell time, whether a frame has set it, the frequency correction, the phase corrections of the
last periods with the PN each fell in, the step due at the next epoch, the steps run on consecutive Beacons, an announced step with its PN, the PN
at which a freeze reverses corrections and at which it ends, and the epochs. -/
structure CellTime where
  clock : Nat := 0
  set : Bool := false
  freq : Int := 0
  frac : Int := 0
  corr : List (Nat × Int) := []
  stepDue : Option Int := none
  stepRun : Nat := 0
  announced : Option (Nat × Int) := none
  revertPn : Option Nat := none
  thawPn : Option Nat := none
  pn : Nat := 0
  epochAt : Nat := 0
  decided : Option Nat := none
  lastRx : Option Nat := none
  deriving DecidableEq, Repr

/-- A period Beacon accepted on a port: its header, the record of the cell's slot, whether it was late (R256), and whether a block Beacon has voided it (R257). -/
structure BeaconIn where
  hdr : Hdr
  cmd : CmdRec
  late : Bool := false
  void : Bool := false
  deriving DecidableEq, Repr

/-- A management transaction open at a cell (R126); `doneAt`: when its latest segment was verified, in quarters of the cell's clock (R507). -/
structure OpenTx where
  txn : Nat
  kind : Nat
  next : Nat
  payload : List Byte
  sof : Nat := 0
  doneAt : Nat := 0
  complete : Bool := false
  deriving DecidableEq, Repr

/-- A reply being sent in fragments (R128): the bytes left, the error code, and the fragment number. -/
structure Reply where
  bytes : List Byte := []
  err : Option Nat := none
  num : Nat := 0
  deriving DecidableEq, Repr

/-- A key exchange at a cell's port (R466, R467): the OFFER parts received, the result of the checks, ANCHOR_NEW with the owner hash, and
when part 2 arrived. -/
structure KxSt where
  parts : List Nat := []
  result : Option Nat := none
  anchorNew : Bool := false
  hash : BitVec 384 := 0
  offerAt : Nat := 0
  deriving DecidableEq, Repr

/-- What a cell sends on a port. -/
inductive UpFrame where
  | report (g : Glint)
  | discovery (d : DiscReply)
  | keyExchange (k : KxReply)
  | marker
  deriving DecidableEq, Repr

/-- A tree port of a cell (R89, R104, R116, R126, R390, R446). -/
structure PortSt where
  key : Key := 0
  keyed : Bool := false
  newKey : Option Key := none
  idx : Option Nat := none
  parked : Bool := false
  lastPn : Option Nat := none
  lastBlock : Option (Nat × Nat) := none
  lastMgmt : Option (Nat × Nat) := none
  lastGlim : Option Nat := none
  beacon : Option BeaconIn := none
  heard : Bool := false
  missN : Nat := 0
  modFault : Bool := false
  liveFrom : Option Nat := none
  slotPn : Option Nat := none
  rerange : Bool := false
  tx : Option OpenTx := none
  bcast : Option OpenTx := none
  bdone : List OpenTx := []
  req : Option (Seg × Nat) := none
  reply : Option Reply := none
  askedAt : Option Nat := none
  newDelay : Option (Nat × Nat × Option Nat) := none
  kx : KxSt := {}
  sent : Option (Nat × UpFrame) := none
  sentN : Nat := 0
  deriving DecidableEq, Repr

/-- Authority at a cell (R364 to R369): the last owner's epoch, the misses, the deadlines a yield lasts, the held epochs, whether the hold
has expired (true until the first tree command), and whether it expires at the coming epoch. -/
structure CellAuth where
  lastEpoch : Nat := 0
  miss : Nat := 0
  yieldLeft : Nat := 0
  holdN : Nat := 0
  expired : Bool := true
  expireDue : Bool := false
  timePort : Nat := 0
  deriving DecidableEq, Repr

/-- A requested edge of a pair (R265, R266): its instant, the state it requests (0 both off, 1 the upper position on, 2 the lower), and the
carrier pulse it belongs to, 0 for none. -/
structure Edge where
  t : Nat
  st : Nat
  pulse : Nat := 0
  deriving DecidableEq, Repr

/-- A complementary pair: the requested state, the last requested edge, those planned, and the incoming position waiting for its dead time with the
instant it is due (R265). -/
structure PairSt where
  st : Nat := 0
  last : Nat := 0
  plan : List Edge := []
  wait : Option (Nat × Nat) := none
  deriving DecidableEq, Repr

/-- Switching at a cell (R252 to R276): the command in force, the one decided for the coming epoch, whether a command runs the hysteretic controller, its
state, the duty in force and the one decided, ARM_AVG, the consecutive ZERO epochs, fallback decided, a block in force, whether only a reset
restores switching (R255), the edge time of an ISOLATE in force (R254), the gate-command outputs, the pairs, the carrier's anchor and pulse count, the loaded TEST duties, the value each PWM_TDUTY
had before its last write with that write's tick, the tick of the last peak (R264), the tick in which the last block Beacon verified (R257), each position's last edge, and
its consecutive feedback disagreements. -/
structure CellSw where
  cmd : CmdRec := ⟨0, false, 0, 0⟩
  next : Option CmdRec := none
  hyst : Bool := false
  w : Int := 0
  duty : Nat := 0
  dutyNext : Nat := 0
  zeroRun : Nat := 0
  fbNext : Bool := false
  badCmd : Bool := false
  calNext : Bool := false
  stateNext : Option Nat := none
  blocked : Bool := false
  dead : Bool := false
  gates : FMap Bool := []
  pairs : FMap PairSt := []
  valleyAt : Nat := 0
  carDuty : Nat := 0
  pulses : Nat := 0
  tduty : FMap Nat := []
  tdutyWas : FMap (Nat × Nat) := []
  peakTick : FMap Nat := []
  blockTick : Option Nat := none
  edgeAt : FMap Nat := []
  riseAt : FMap Nat := []
  fbN : FMap Nat := []
  isoAt : Option Nat := none
  deriving DecidableEq, Repr

/-- Local protection, the bypass and the supply (R255, R307, R308, R348, R351): the off-state demands with the epochs each source has been inactive; the
bypass sequence, its firings and BYP_SW_CMD; the GMLn_EN outputs; the stage of a supply loss (0 none, 1 reporting, 2 off-hold, 3 stopped); the input pins, the current direction, and the invalid decisions (R535). -/
structure CellProt where
  demands : FMap Nat := []
  ovOff : Bool := false
  auxOff : Bool := false
  byp : Bool := false
  fires : Nat := 0
  firedAt : Nat := 0
  pulseOn : Bool := false
  swCmd : Bool := false
  enOut : FMap Nat := []
  loss : Nat := 0
  pgFellAt : Nat := 0
  resetN : Bool := false
  resLowN : Bool := true
  dir : Int := 0
  badDir : Nat := 0
  deriving DecidableEq, Repr

/-- A calibration (R321 to R324): the instant it began, its phase 1 to 5, the results of the phase, the sums, and 6 while an abandoned one settles; the epoch that ends it is
awaited once `waits` holds; whether it has been abandoned. -/
structure CalSt where
  start : Nat := 0
  phase : Nat := 1
  n : Nat := 0
  z : Nat := 0
  f : Nat := 0
  waits : Bool := false
  gone : Bool := false
  deriving DecidableEq, Repr

/-- The primary converter and its filter (R311 to R324): the last completion, the last results as (code, tag), the settling results left, the calibration,
a change not yet in effect, the clean results a CV_FAULT still needs, whether a run of RANGE results is on, whether the filter has not read the last result,
the OSR and GAIN in use, and the last epoch samples with PN and instant. -/
structure CvSt where
  doneAt : Nat := 0
  ring : List (Nat × Nat) := []
  settle : Nat := 3
  cal : Option CalSt := none
  change : Bool := false
  clean : Nat := 0
  ranging : Bool := false
  unread : Bool := false
  osr : Nat := 40
  gain : Bool := false
  samples : List (Nat × Nat × Nat) := []
  deriving DecidableEq, Repr

/-- The auxiliary converter (R326 to R331): the running conversion (channel, whether urgent, start), the channels left of the scan, whether a scan runs, a
pending trigger, the queued urgent events with the ticks of their requests, that of the running urgent conversion, the aborted channel, whether the result is unread and
when its conversion started, a trigger in the tick in which a scan ends (R329), the epochs counted and when a scan is due. -/
structure AuxSt where
  run : Option (Nat × Bool × Nat) := none
  left : List Nat := []
  scan : Bool := false
  pend : Bool := false
  urg : List (Nat × Nat) := []
  urgRun : Option (Nat × Nat) := none
  back : Option Nat := none
  unread : Bool := false
  resAt : Nat := 0
  after : Bool := false
  epochs : Nat := 0
  dueAt : Option Nat := none
  timerAt : Nat := 0
  deriving DecidableEq, Repr

/-- A CFG_WRITE or CFG_READ awaiting its echo (R285). -/
structure CfgOut where
  seq : Nat
  first : Nat
  entries : List CfgEntry
  read : Bool := false
  tries : Nat := 0
  sentAt : Nat := 0
  deriving DecidableEq, Repr

/-- The stress of a die not yet in MRAM (R303): its turn-on edges, nanoseconds in each temperature bin, highest temperature and share, DESAT events. -/
structure Stress where
  ons : Nat := 0
  bins : FMap Nat := []
  tMax : Nat := 0
  sMax : Nat := 0
  desat : Nat := 0
  deriving DecidableEq, Repr

/-- A gate matrix link at the Elsum (R279 to R304): 0 down, 1 bringing up, 2 reading back, 3 up; whether the bring-up of R288 has completed and the identity
has stayed valid, and whether it has gone down since; the last SEQ and the last one whose echo matched;
the blocks of 16 dies still to write; the write awaiting its echo; the last frame heard and sent; the accumulators of the trims (by 2 x die + kind), of the
shares, of the isolation counts; the records in force with their PN; the dies that are hot; the current of the last turn-on; the stress. -/
structure LinkSt where
  phase : Nat := 0
  live : Bool := false
  lost : Bool := false
  seq : Nat := 0
  okSeq : Nat := 0
  todo : List (Nat × Nat) := []
  out : Option CfgOut := none
  heardAt : Nat := 0
  txEnd : Nat := 0
  txType : Nat := 0
  reqAt : Nat := 0
  acc : FMap (Int × Nat) := []
  shr : FMap (Nat × Nat) := []
  hotN : FMap Nat := []
  gateN : FMap Nat := []
  sense : FMap (SenseRec × Nat) := []
  hot : List Nat := []
  iOn : Int := 0
  stress : FMap Stress := []
  deriving DecidableEq, Repr

/-- A CFG_WRITE in the shadow set of a matrix (R284): when its last bit arrived, its SEQ, its first die and its entries. -/
structure ShadowWr where
  endAt : Nat
  seq : Nat
  first : Nat
  entries : List CfgEntry
  deriving DecidableEq, Repr

/-- A gate matrix (R282 to R286, R305): its active set and the SEQ of it, the shadow set as the frames that wait for an edge in order, GMLn_EN as it sees it and
when it rose, whether its position conducts, the dies turned off for overcurrent and those not yet reported, and the last frame it sent. -/
structure MatrixSt where
  active : FMap CfgEntry := []
  shadow : List ShadowWr := []
  seq : Nat := 0
  enabled : Bool := false
  enAt : Nat := 0
  on : Bool := false
  desatOff : List Nat := []
  desat : List Nat := []
  identSent : Nat := 0
  echo : Option (Nat × Nat × Nat × Nat × List CfgEntry) := none
  heard : Nat := 0
  deriving DecidableEq, Repr

/-- The parameter set a cell has staged (R427, R510), with the PN at whose epoch it applies once its outcome is apply (R429). -/
structure CellSet where
  id : Nat
  epoch : Nat
  entries : List SetEntry
  applyPn : Option Nat := none
  deriving DecidableEq, Repr

/-- Fault reporting of a cell (R114, R344, R348, R478): class-0 pending and since when, the raises since the last Glint, whether one is NEW, the period the
first-latch window ends at, the mode last seen, the cell log of the period, and the marker launched last. -/
structure CellFlt where
  class0 : Bool := false
  class0At : Nat := 0
  fresh : List (Nat × Nat) := []
  isNew : Bool := false
  rwin : Nat := 0
  lastMode : Nat := 0
  logPn : Nat := 0
  logN : Nat := 0
  logLost : Nat := 0
  trimChg : Nat := 0
  deriving DecidableEq, Repr

/-- A cell in Glimmer (R408): the next sample interval, the results of the one running, whether it has woken, the last Glimmer Beacon
accepted (its grid point) and that of the owner, the windows left after it, and the first bad result of the last sample. -/
structure GlimSt where
  nextAt : Nat := 0
  woken : Bool := false
  gridAt : Nat := 0
  ownerAt : Nat := 0
  windows : Nat := 0
  first : Option (Nat × Nat) := none
  deriving DecidableEq, Repr

/-- The secrets of a part (R461, R472): the anchor, whether the identity key is present, the challenge outstanding, the failed
responses, and whether an EXTEST instruction holds the outputs (R471). -/
structure SecSt where
  anchor : Option (BitVec 384) := none
  idk : Bool := true
  zeroised : Bool := false
  challenge : Option (BitVec 512) := none
  fails : Nat := 0
  extest : Bool := false
  deriving DecidableEq, Repr

/-- An Elsum with its four gate matrices. `hwSet`: what hardware has set in W1C fields, with the tick (R20). `up`: cell reset has exited. -/
structure CellSt where
  regs : Regs := []
  hwSet : FMap (Nat × Nat) := []
  latch : FMap Nat := []
  held : FMap Nat := []
  jtag : Option (W32 × Bool) := none
  up : Bool := false
  txOff : Bool := false
  time : CellTime := {}
  ports : FMap PortSt := []
  auth : CellAuth := {}
  sw : CellSw := {}
  prot : CellProt := {}
  cv : CvSt := {}
  aux : AuxSt := {}
  links : FMap LinkSt := []
  mats : FMap MatrixSt := []
  staged : Option CellSet := none
  flt : CellFlt := {}
  glim : GlimSt := {}
  sec : SecSt := {}
  runNs : Nat := 0
  deriving DecidableEq, Repr

/-- The whole block. `hwSet`: the bits of each W1C field that hardware has set, with the tick in which it did (R20). -/
structure State where
  regs : Regs := []
  lastRead : W32 := 0
  latch : FMap Nat := []
  held : FMap Nat := []
  free : Nat := 0
  hwSet : FMap (Nat × Nat) := []
  time : TimeSt := {}
  colls : FMap CollSt := []
  evLost : Bool := false
  mode : ModeSt := {}
  host : HostSt := {}
  clause : ClauseSt := {}
  trees : FMap TreeSt := []
  arms : FMap ArmSt := []
  disp : FMap DispSt := []
  sram : Memory := []
  cellMem : Memory := []
  rgns : FMap RgnSt := []
  rank : FMap RankCell := []
  image : Image := {}
  imageSet : Bool := false
  candidate : Option (Nat × Image) := none
  imageNo : Nat := 0
  mirror : MirrorSt := {}
  stn : StnSt := {}
  cells : FMap CellSt := []
  sec : SecSt := {}
  pending : List Instr := []
  deriving DecidableEq, Repr

/-- The registers whose reset values differ from one instance to the next (R496, R498): the die number and PRINCIPAL of RGN_ID, and ARM_PBASE. -/
def resetRegs : Regs :=
  let m := (List.range 8).foldl (fun (m : Regs) r => m.wr (Rgn.RGN_ID_DIE.at (0x100000 + r * 0x40000)) r) []
  let m := m.wr (Rgn.RGN_ID_PRINCIPAL.at 0x100000) 1
  (List.range 8).foldl (fun (m : Regs) r => (List.range 4).foldl (fun (m : Regs) a =>
    m.wr (Arm.ARM_PBASE_BASE.at (0x100000 + r * 0x40000 + 0x2000 + a * 0x50)) (0xF400 + a * 0x100)) m) m

/-- The PCIe Device ID of a variant, by its region dies (R1): 0x0C02, 0x0C04 or 0x0C08. -/
def deviceId (dies : Nat) : Nat := 0x0C00 + dies
/-- The machine right after reset: M0, with the Mirror link down and its condition active (R380). -/
def State.reset : State := { regs := resetRegs, colls := [(0, { conds := [{ src := 12 }] })] }
/-- The same of a variant with another number of region dies (R1, R8): 2, 4 or 8. -/
def State.resetVariant (dies : Nat) : State :=
  { State.reset with regs := (State.reset.regs.wr Reg.CHIP_ID_DIES dies).wr Reg.CHIP_ID_DEVICE (deviceId dies) }

end Sys2Proof.Machine
end

