-- ==== Sys2Proof/Machine/Ops.lean ====
section
/-! DEFINITION. The named operations every meaning is written over: register fields, repeated units, the
time counter, free values, and the raising of fault sources. -/

namespace Sys2Proof.Machine

/-! ### Places in the register map (R482) -/

/-- The base of region die `r`. -/
def rgnBase (r : Nat) : Nat := 0x100000 + r * 0x40000
/-- A field of region `r`. -/
def rf (r : Nat) (f : Fld) : Fld := f.at (rgnBase r)
/-- A field of tree `t` of region `r`. -/
def tf (r t : Nat) (f : Fld) : Fld := f.at (rgnBase r + 0x1000 + t * 0x30)
/-- A field of local arm `a` of region `r`. -/
def af (r a : Nat) (f : Fld) : Fld := f.at (rgnBase r + 0x2000 + a * 0x50)
/-- A field of ENUM_TREEt of region `r` (R495). -/
def ef (r t : Nat) (f : Fld) : Fld := f.at (rgnBase r + 4 * t)

/-- The value of a Basath field. -/
def State.rd (s : State) (f : Fld) : Nat := s.regs.rd f
/-- Whether hardware sets bits of a W1C field when the field goes from `old` to `new`, and which: of a counter any increment (R20, R485). -/
def Fld.setMask (f : Fld) (old new : Nat) : Nat :=
  match f.acc with
  | .w1c => if f.width = 1 then new % 2 else if old < new then 1 else 0
  | .w1cBits => new - Nat.land old new
  | _ => 0
/-- The marks of the W1C fields with `m` set in tick `t`. -/
def markSet (h : FMap (Nat × Nat)) (f : Fld) (t m : Nat) : FMap (Nat × Nat) :=
  if m = 0 then h else fmod (0, 0) f.lsb (fun p => (t, if p.1 = t then Nat.lor p.2 m else m)) h
/-- The state with a Basath field at `v`, as hardware writes it. -/
def State.wr (s : State) (f : Fld) (v : Nat) : State :=
  { s with regs := s.regs.wr f v, hwSet := markSet s.hwSet f s.time.tick (f.setMask (s.rd f) v) }
/-- The bits `m` of a W1C field have been set by hardware in this tick, set before or not (R20). -/
def State.markHw (s : State) (f : Fld) (m : Nat) : State := { s with hwSet := markSet s.hwSet f s.time.tick m }
/-- The state with a Basath counter field one higher; counters stop at their maximum (R433). -/
def State.inc (s : State) (f : Fld) : State := s.wr f (satInc f.width (s.rd f))
/-- The state with a counter field `n` higher, stopping at its maximum. -/
def State.incBy (s : State) (f : Fld) (n : Nat) : State := s.wr f (min (s.rd f + n) (2 ^ f.width - 1))
/-- Whether a one-bit field is 1. -/
def State.on (s : State) (f : Fld) : Bool := s.rd f == 1

/-- The mode in force (R52). -/
def State.modeNo (s : State) : Nat := s.rd Reg.MODE_STAT_MODE
/-- Region dies present (R8). -/
def State.dies (s : State) : Nat := s.rd Reg.CHIP_ID_DIES
/-- The period number in force (R16). -/
def State.pn (s : State) : Nat := s.rd Reg.TIME_PN_PN
/-- CTRL_PERIOD.NS (R66). -/
def State.period (s : State) : Nat := s.rd Reg.CTRL_PERIOD_NS
/-- Whether the unit is unit B (R435). -/
def State.unitB (s : State) : Bool := s.on Reg.BOOT_STAT_UNIT
/-- The modes M5 to M11, in which epochs occur (R67). -/
def State.epochs (s : State) : Bool := decide (5 ≤ s.modeNo)

/-! ### Repeated units -/

/-- The key of a tree among the 256. -/
def treeKey (r t : Nat) : Nat := r * 32 + t
/-- The key of an arm among the 32. -/
def armKey (r a : Nat) : Nat := r * 4 + a
/-- The tree port of tree `t` of region `r`. -/
def State.tree (s : State) (r t : Nat) : TreeSt := fget {} s.trees (treeKey r t)
/-- The state with a tree port changed. -/
def State.modTree (s : State) (r t : Nat) (f : TreeSt → TreeSt) : State :=
  { s with trees := fmod {} (treeKey r t) f s.trees }
/-- The trees of region `r` that are enabled (R49). -/
def State.treesOf (s : State) (r : Nat) : List Nat :=
  (List.range 32).filter fun t => s.on (tf r t Tree.TREE_CFG_EN)
/-- The enabled trees of local arm `a` of region `r` (R49), ascending. -/
def State.armTrees (s : State) (r a : Nat) : List Nat :=
  (s.treesOf r).filter fun t => s.rd (tf r t Tree.TREE_CFG_ARM) == a
/-- Every enabled tree of the unit, as (region, tree), in region then tree order. -/
def State.allTrees (s : State) : List (Nat × Nat) :=
  (List.range s.dies).flatMap fun r => (s.treesOf r).map fun t => (r, t)
/-- The arm of a tree, or none where the tree is not enabled. -/
def State.armOf (s : State) (r t : Nat) : Option Nat :=
  if s.on (tf r t Tree.TREE_CFG_EN) then some (s.rd (tf r t Tree.TREE_CFG_ARM)) else none
/-- A tree port's state (R129): 0 DISABLED, 1 IDLE, 2 ENUM, 3 ACTIVE, 4 RERANGE, 5 LOST, 6 FAILED. -/
def State.treeState (s : State) (r t : Nat) : Nat := s.rd (tf r t Tree.TREE_CFG_STATE)
/-- One slot of a tree. -/
def TreeSt.slot (x : TreeSt) (j : Nat) : SlotSt := fget {} x.slots j
/-- A tree with one slot changed. -/
def TreeSt.modSlot (x : TreeSt) (j : Nat) (f : SlotSt → SlotSt) : TreeSt :=
  { x with slots := fmod {} j f x.slots }
/-- The state with one slot of a tree changed. -/
def State.modSlot (s : State) (r t j : Nat) (f : SlotSt → SlotSt) : State :=
  s.modTree r t fun x => x.modSlot j f
/-- One slot. -/
def State.slot (s : State) (r t j : Nat) : SlotSt := (s.tree r t).slot j
/-- The global cell index (R45). -/
def cellIndex (r t j : Nat) : Nat := r * 4096 + t * 128 + j
/-- The region, tree and slot of a global cell index (R45). -/
def idxRegion (i : Nat) : Nat := i / 4096
def idxTree (i : Nat) : Nat := i / 128 % 32
def idxSlot (i : Nat) : Nat := i % 128

/-- A ring. -/
def State.ring (s : State) (n : Nat) : RingSt := fget {} s.host.rings n
/-- The state with a ring changed. -/
def State.modRing (s : State) (n : Nat) (f : RingSt → RingSt) : State :=
  { s with host := { s.host with rings := fmod {} n f s.host.rings } }

/-! ### The time counter (R55 to R58) -/

/-- The nanosecond count. -/
def State.ns (s : State) : Nat := s.time.ctr.toNat / 2 ^ 32
/-- A counter value of whole nanoseconds. -/
def nsTime (n : Nat) : Time := BitVec.ofNat 96 (n * 2 ^ 32)
/-- The nanosecond count of a counter value. -/
def timeNs (t : Time) : Nat := t.toNat / 2 ^ 32
/-- Bits [31:30] of the fraction: the quarter nanoseconds of a timestamp (R77). -/
def timeQ (t : Time) : Nat := t.toNat / 2 ^ 30 % 4
/-- A timestamp `q` quarter nanoseconds after the counter, at the 0.25 ns resolution of R77. -/
def State.stamp (s : State) (q : Nat) : Time :=
  BitVec.ofNat 96 ((s.time.ctr.toNat / 2 ^ 30 + q) * 2 ^ 30)
/-- A timestamp in quarter nanoseconds. -/
def quarters (t : Time) : Nat := t.toNat / 2 ^ 30
/-- Whether the counter runs: the unit has left M0 (R57) and REFCLK is present (R59). -/
def State.running (s : State) : Bool := s.time.refclk && s.modeNo != 0
/-- TIME_INCR as one 96-bit addend (R56, R60). -/
def State.incr (s : State) : Nat := s.rd Reg.TIME_INCR_INCR % 2 ^ 40
/-- The range of TIME_INCR (R60): ±500 ppm. -/
def incrOk (v : Nat) : Bool := decide (0x07FEF9DB23 ≤ v) && decide (v ≤ 0x08010624DD)
/-- The counter as the timed domain reads it: interpolated from the last edge of REFCLK in steps of TIME_INCR / 4 (R56). -/
def State.tickValue (s : State) : Time :=
  let q := s.incr / 4
  if q = 0 then s.time.ctr else BitVec.ofNat 96 (s.time.base.toNat + (s.time.ctr.toNat - s.time.base.toNat) / q * q)
/-- The state with the counter at the value `n`, in units of 2^-32 ns, if that lies ahead; the edges of REFCLK up to it have passed (R56). -/
def State.counterAt (s : State) (n : Nat) : State :=
  if n ≤ s.time.ctr.toNat then s
  else
    let b := s.time.base.toNat
    { s with time := { s.time with
        ctr := BitVec.ofNat 96 n
        base := BitVec.ofNat 96 (b + (n - b) / s.incr * s.incr)
        tick := if n / 2 ^ 33 = s.time.ctr.toNat / 2 ^ 33 then s.time.tick else s.time.tick + 1 } }

/-- A step added to the nanosecond count, the fraction unchanged (R62). A pulse in progress keeps its width (R90), the spacing of input edges stays what
it is (R91, R92), and an armed output pulse whose time the step passes over is in the past (R92). One of more than
1,000 ns backwards takes the Mirror link down (R470). -/
def State.stepBy (s : State) (v : W64) : State :=
  let n := (((s.ns : Int) + v.toInt) % (2 ^ 64 : Nat)).toNat
  let past (p : Nat × Nat) : Bool := decide (s.ns < p.2) && decide (p.2 < n)
  let s := if s.time.tevtArm.any past then s.wr Reg.TIME_STAT_TEVT_LATE 1 else s
  let s := if v.toInt < -1000 && s.on Reg.MIRR_STAT_LINK_UP then
      { (s.wr Reg.MIRR_STAT_LINK_UP 0) with mirror := { s.mirror with key := 0, keyed := false, broke := true } } else s
  { s with time := { s.time with
      ctr := BitVec.ofNat 96 (n * 2 ^ 32 + s.time.ctr.toNat % 2 ^ 32)
      base := s.time.base + BitVec.ofInt 96 (v.toInt * (2 ^ 32 : Nat))
      ppsRise := ((s.time.ppsRise : Int) + v.toInt).toNat
      ppsInLast := s.time.ppsInLast.map fun m => ((m : Int) + v.toInt).toNat
      tevtLast := s.time.tevtLast.map fun (p : Nat × Nat) => (p.1, ((p.2 : Int) + 4 * v.toInt).toNat)
      tevtArm := s.time.tevtArm.filter fun p => !past p } }
/-- STEP_ARMED reads 1 while a step is armed or committed (R62). -/
def State.showArmed (s : State) : State :=
  s.wr Reg.TIME_STAT_STEP_ARMED (b2n (s.time.armed.isSome || s.time.committed.isSome))
/-- A committed step applies once the counter has reached the epoch of its Beacon, whatever the mode (R63). -/
def State.stepDue (s : State) : State :=
  match s.time.committed with
  | some (v, n) =>
    if n ≤ s.ns then
      ({ s with time := { s.time with committed := none } }.stepBy v).showArmed
    else s
  | none => s
/-- An armed step applies at a REFCLK edge in M0 to M4 (R63). -/
def State.armedDue (s : State) : State :=
  match s.time.armed with
  | some v =>
    if s.modeNo ≤ 4 then ({ s with time := { s.time with armed := none } }.stepBy v).showArmed else s
  | none => s

/-- The counter value at which the next step applies outside M5 to M11: an armed one at the next edge of REFCLK, a committed one at its epoch (R63). -/
def State.stepAt (s : State) : Option Nat :=
  let edge := s.time.base.toNat + s.incr
  let due := s.time.committed.map fun q => max (q.2 * 2 ^ 32) s.time.ctr.toNat
  match s.time.armed, due with
  | some _, some d => some (min edge d)
  | some _, none => some edge
  | none, d => d
/-- The counter has reached `e`, where a step applies: an armed one if an edge of REFCLK is there, and a committed one that is due (R63, R65). -/
def State.stepNow (s : State) (e : Nat) : State :=
  let edge := s.time.base.toNat + s.incr
  let s := s.counterAt e
  (if edge ≤ e then s.armedDue else s).stepDue
/-- The state with the counter run on to the value `n`. In M0 to M4 the steps on the way apply (R63, R65), and with `rel` the counter then goes on for as
long as it would have; in M5 to M11 a step applies in EPOCH. `k`: how many steps may still lie on the way. -/
def State.advance (rel : Bool) : Nat → State → Nat → State
  | 0, s, n => s.counterAt n
  | k + 1, s, n =>
    match (if s.epochs then none else s.stepAt) with
    | some e =>
      if e ≤ n then
        let t := s.stepNow e
        State.advance rel k t (if rel then ((n : Int) + t.time.ctr.toNat - (max e s.time.ctr.toNat)).toNat else n)
      else s.counterAt n
    | none => s.counterAt n
/-- The state with the counter run on to nanosecond `n`, if it lies ahead and the counter runs. -/
def State.runTo (s : State) (n : Nat) : State :=
  if s.running && decide (s.ns < n) then State.advance false 2 s (n * 2 ^ 32) else s
/-- The state with the counter run on to a value in quarter nanoseconds. -/
def State.runToQ (s : State) (n : Nat) : State :=
  if s.running && decide (quarters s.time.ctr < n) then State.advance false 2 s (n * 2 ^ 30) else s
/-- The state with the counter run on by `q` quarter nanoseconds, if the counter runs. -/
def State.runBy (s : State) (q : Nat) : State :=
  if s.running then State.advance true 2 s ((s.time.ctr.toNat / 2 ^ 30 + q) * 2 ^ 30) else s

/-- The first grid point at or after `n` (R66). -/
def gridFrom (n period phase : Nat) : Nat :=
  if period = 0 then n else n + (period - (n + period * 65536 - phase) % period) % period

/-- The next epoch (R67): the first grid point at least half a period after the last one. -/
def State.nextEpoch (s : State) : Nat :=
  gridFrom (s.time.epochAt + ceilDiv s.period 2) s.period (s.rd Reg.EPOCH_PHASE_PHASE)

/-! ### Free values -/

/-- A value the manual leaves open, and the state with the next one current (log entry 3, DESIGN CHOICE). -/
def State.freeVal (s : State) : BitVec 64 := Config.freeValue s.free
/-- The state in which the free value has been used. -/
def State.used (s : State) : State := { s with free := s.free + 1 }

/-! ### Raising fault sources (R335, R336) -/

/-- The key of a collector. -/
def Coll.key : Coll → Nat
  | .chip => 0
  | .region r => 1 + r
  | .tree r t => 16 + treeKey r t
  | .cell c => 4096 + c
/-- What a collector holds beside its registers. -/
def State.coll (s : State) (c : Coll) : CollSt := fget {} s.colls c.key
/-- The state with a collector changed. -/
def State.modColl (s : State) (c : Coll) (f : CollSt → CollSt) : State :=
  { s with colls := fmod {} c.key f s.colls }
/-- What tells two active occurrences of one source apart: the source, and the cell or arm. -/
def Occ.idx (o : Occ) : Nat × Nat :=
  (o.src, match o.cell, o.arm with
    | some c, _ => c + 1
    | none, some (r, a) => 65536 + armKey r a + 1
    | none, none => 0)
/-- An event of a source: held until the next collection tick; several in one tick count as one (R336). -/
def State.raise (s : State) (c : Coll) (o : Occ) : State :=
  s.modColl c fun x =>
    if x.events.any (fun e => e.idx == o.idx) then x else { x with events := x.events ++ [o] }
/-- A condition source becomes active or inactive. -/
def State.setCond (s : State) (c : Coll) (o : Occ) (active : Bool) : State :=
  s.modColl c fun x =>
    { x with conds := x.conds.filter (fun e => e.idx != o.idx) ++ (if active then [o] else []) }
/-- Whether a condition source is active, for any index. -/
def State.active (s : State) (c : Coll) (src : Nat) : Bool :=
  (s.coll c).conds.any fun o => o.src == src
/-- Whether a condition source is active for one occurrence. -/
def State.activeFor (s : State) (c : Coll) (o : Occ) : Bool :=
  (s.coll c).conds.any fun e => e.idx == o.idx

/-- Source numbers of the chip (R342). -/
def Src.REFCLK_LOSS := 0
def Src.DIE_LOST := 1
def Src.VCORE_LOW := 2
def Src.AVS_NACK := 3
def Src.PEER_TIME := 4
def Src.PPS_LOST := 5
def Src.SV_LOST := 6
def Src.GOOSE_TAL := 7
def Src.TRIP_IN0 := 8
def Src.MIRROR_DOWN := 12
def Src.PEER_LOST := 13
def Src.AUTH_CONFLICT := 14
def Src.HOST_DMA_ERR := 15
def Src.CLAUSE_ABANDON := 16
def Src.SEC_TAMPER := 17
def Src.REC_LATCHED := 18
/-- Source numbers of a tree (R340). -/
def Src.ALERT := 0
def Src.CELL_TRIP := 1
def Src.CELL_REPORT := 2
def Src.LEAD_SHORT := 3
def Src.TREE_STEP_LARGE := 4
def Src.TREE_LOST := 5
def Src.TREE_TX_FAIL := 6
def Src.TREE_UNSTABLE := 7
def Src.GLINT_MISS := 8
def Src.GLINT_MISPLACED := 9
def Src.DRIFT := 10
def Src.MGMT_FAIL := 11
def Src.GLINT_TAG := 12
def Src.BEACON_ABORT := 13
/-- Source numbers of a region (R341). -/
def Src.TIME_SKEW := 0
def Src.DEADLINE_MISS := 1
def Src.DEADLINE_REPEAT := 2
def Src.L0_OVERRUN := 3
def Src.READY_OVF := 4
def Src.STEAL_LOST := 5
def Src.CORE_SLOW := 6
def Src.PHRASE_BLOCK := 7
def Src.ENG_SAT := 8
def Src.ENG_WSAT := 9
def Src.ENG_ADDR := 10
def Src.MEAS_STALE := 11
def Src.MEAS_SENSOR := 12
def Src.FF_LOST := 13
def Src.HOVR_SLEW := 14
def Src.CAP_DRIFT := 15
def Src.CELL_STALE := 16
def Src.AVAIL_LOW := 17
def Src.CAL_TIMEOUT := 18
def Src.SRAM_CORR := 19
def Src.SRAM_UNCORR := 20
def Src.MRAM_ERR := 21
def Src.WARDEN_FAULT := 22
def Src.TJ_HIGH := 23
def Src.TJ_CRIT := 24
def Src.FABRIC_ERR := 25
def Src.BLOCKNET_FAULT := 26
/-- Source numbers of a cell (R339). -/
def Src.OVERVOLTAGE := 0
def Src.AUX_LOSS := 1
def Src.GATE_FB := 2
def Src.CV_FAULT := 3
def Src.MATRIX_FAULT := 4
def Src.DIE_ISO_LIMIT := 5
def Src.BYP_FAIL := 6
def Src.CMD_INVALID := 7
def Src.CV_RANGE := 8
def Src.GML_DOWN := 9
def Src.GML_CFG_ERR := 10
def Src.TIME_UNLOCK := 11
def Src.FALLBACK := 12
def Src.MATRIX_CHANGED := 13
def Src.DIE_HOT := 14
def Src.DIE_ISOLATED := 15
def Src.CV_CAL_FAIL := 16
def Src.DIE_SENSE := 17
def Src.TRIM_LIMIT := 18
def Src.HOLD_START := 19
def Src.HOLD_EXPIRED := 20
def Src.PORT_A_LOSS := 21
def Src.PORT_B_LOSS := 22
def Src.BEACON_TAG := 23
def Src.CELL_TJ_HIGH := 24
def Src.CELL_TJ_CRIT := 25
def Src.CELL_MRAM_ERR := 26
def Src.SEQ_FAULT := 27
def Src.SUPPLY_FAULT := 28
def Src.PARAM_REFUSED := 29

end Sys2Proof.Machine
end

