-- ==== Sys2Proof/Machine/HostOps.lean ====
section
/-! DEFINITION. Rings, descriptors, interrupts, events and completions (R412 to R422). -/

namespace Sys2Proof.Machine

/-- A field of ring `n` (R486). -/
def ringF (n : Nat) (f : Fld) : Fld := f.win n

/-- The first ring of a kind that is enabled. -/
def State.ringOfKind (s : State) (kind : Nat) : Option Nat :=
  (List.range 64).find? fun n =>
    s.on (ringF n Reg.RING_CFG_EN) && s.rd (ringF n Reg.RING_CFG_KIND) == kind

/-- Every enabled ring of a kind. -/
def State.ringsOfKind (s : State) (kind : Nat) : List Nat :=
  (List.range 64).filter fun n =>
    s.on (ringF n Reg.RING_CFG_EN) && s.rd (ringF n Reg.RING_CFG_KIND) == kind

/-- Whether a ring is full: producer minus consumer, modulo 65,536, equals its size (R414). -/
def State.ringFull (s : State) (n : Nat) : Bool :=
  ((s.ring n).prod + 65536 - (s.ring n).cons) % 65536 == 2 ^ s.rd (ringF n Reg.RING_CFG_LOG2)

/-- The wedged state (R432). -/
def State.wedged (s : State) : Bool := s.on Reg.HOST_STAT_WEDGED

/-- Tylek timestamp mode (R84). -/
def State.tylek (s : State) : Bool := s.on Reg.TIME_CTL_TYLEK

/-- The fields of a descriptor, as (byte offset, bytes, value), packed little-endian into its 32 bytes. -/
def descOf (fields : List (Nat × Nat × Nat)) : Nat :=
  fields.foldl (fun acc f => acc + f.2.2 % 2 ^ (8 * f.2.1) * 2 ^ (8 * f.1)) 0

/-- A vector's message issues, or its PBA bit is set while the vector is masked (R415). -/
def State.issueMsix (s : State) (v : Nat) : State :=
  if s.host.msixUnmasked.contains v then
    { s with host := { s.host with
        msixSent := fset v (fget 0 s.host.msixSent v + 1) s.host.msixSent } }
  else
    { s with host := { s.host with pba := setBit s.host.pba v } }

/-- The interrupt of a written descriptor: at once with NOTIFY or MOD = 0, otherwise by the moderation timer (R415). -/
def State.notifyRing (s : State) (n : Nat) (notify : Bool) : State :=
  let v := s.rd (ringF n Reg.RING_CFG_VEC)
  let md := s.rd (ringF n Reg.RING_CFG_MOD)
  if notify || md == 0 then s.issueMsix v
  else if fhas s.host.modTimer v then s
  else { s with host := { s.host with modTimer := fset v (s.ns + md * 1000) s.host.modTimer } }

/-- A descriptor written to a ring that is not full: PHASE, NOTIFY, TYLEK, LOST and the kind go into
byte 0 and the type into byte 1 (R413); the producer index advances. -/
def State.putDesc (s : State) (n typ : Nat) (fields : List (Nat × Nat × Nat)) (notify tylek : Bool) : State :=
  let rg := s.ring n
  let lg := s.rd (ringF n Reg.RING_CFG_LOG2)
  let kind := s.rd (ringF n Reg.RING_CFG_KIND)
  let phase := b2n (rg.prod / 2 ^ lg % 2 == 0)
  let hdr := phase + 2 * b2n notify + 4 * b2n tylek + 8 * b2n rg.lost + 16 * kind
  let d := descOf ((0, 1, hdr) :: (1, 1, typ) :: fields)
  let s := s.modRing n fun x =>
    { x with
      prod := (x.prod + 1) % 65536
      lost := false
      slots := fset (x.prod % 2 ^ lg) (BitVec.ofNat 256 d) x.slots }
  s.notifyRing n notify

/-- The fields of a descriptor in Tylek timestamp mode: its timestamp, bytes 8 to 15, is the counter value now, at which it is written and its message, if
that goes at once, issues (R84, R85). -/
def State.tylekFields (s : State) (fields : List (Nat × Nat × Nat)) : List (Nat × Nat × Nat) :=
  if s.tylek then fields.map fun f => if f.1 = 8 ∧ f.2.1 = 8 then (8, 8, s.ns) else f else fields
/-- An event record (R422) posted to the event ring. With no free descriptor, no event ring or a wedged
host it is dropped and counted in CFLT_STAT.EV_LOST (R359, R432). -/
def State.postEvent (s : State) (typ : Nat) (fields : List (Nat × Nat × Nat)) (notify : Bool) : State :=
  match s.ringOfKind 4 with
  | none => { s.inc Reg.CFLT_STAT_EV_LOST with evLost := true }
  | some n =>
    if s.wedged then { s.inc Reg.CFLT_STAT_EV_LOST with evLost := true }
    else if s.ringFull n then
      { (s.inc Reg.CFLT_STAT_EV_LOST).modRing n (fun x => { x with lost := true }) with evLost := true }
    else { s.putDesc n typ (s.tylekFields fields) notify s.tylek with evLost := false }

/-- A record posted to a telemetry or receive ring, or counted in RING_STAT.LOST when it is full (R415). -/
def State.postRing (s : State) (n typ : Nat) (fields : List (Nat × Nat × Nat)) (notify : Bool) : State :=
  if s.wedged then s
  else if s.ringFull n then
    (s.inc (ringF n Reg.RING_STAT_LOST)).modRing n fun x => { x with lost := true }
  else s.putDesc n typ fields notify false

/-- Status codes of a completion (R418). -/
def Cpl.OK := 0x00
def Cpl.BAD_COMMAND := 0x01
def Cpl.REFUSED := 0x02
def Cpl.IMAGE_ERROR := 0x03
def Cpl.CELL_ERROR := 0x04
def Cpl.MGMT_FAIL := 0x05
def Cpl.TX_QUEUE_FULL := 0x06
def Cpl.TX_TOO_FAR := 0x07
def Cpl.TX_LATE := 0x08
def Cpl.CLAUSE_BUSY := 0x09
def Cpl.CLAUSE_FAILED := 0x0A
def Cpl.NOT_PERMITTED := 0x0B
def Cpl.DMA_ERROR := 0x0C

/-- A completion descriptor goes to its ring; while that is full it waits, for no completion is ever dropped (R415; log entry 101, DESIGN CHOICE). -/
def State.putCpl (s : State) (n op : Nat) (fields : List (Nat × Nat × Nat)) (notify : Bool) : State :=
  if s.ringFull n then { s with host := { s.host with cplWait := s.host.cplWait ++ [⟨n, op, fields, notify⟩] } }
  else s.putDesc n op (s.tylekFields fields) notify s.tylek
/-- The completions that wait for ring `n` are written as it has room (R415). -/
def State.flushCpl (s : State) (n : Nat) : State :=
  let mine := s.host.cplWait.filter fun x => x.ring == n
  mine.foldl (fun s x => s.putCpl n x.op x.fields x.notify) { s with host := { s.host with cplWait := s.host.cplWait.filter fun x => x.ring != n } }
/-- A completion of a command of ring `n` (R418), to the completion ring bound to it. -/
def State.complete (s : State) (n tag op : Nat) (notify : Bool) (status result detail : Nat) : State :=
  let s := s.modRing n fun x => { x with openCmds := x.openCmds - 1 }
  if s.wedged then s
  else s.putCpl (s.rd (ringF n Reg.RING_CFG_CPL)) op
    [(2, 4, tag), (6, 2, status), (8, 8, s.ns), (16, 8, result), (24, 4, detail), (28, 4, s.pn)] notify

/-- Whether a fetched command of ring `n` may start (R415, R417): the ring is an enabled command ring with a
command waiting, its completion ring has room, and with FENCE every earlier command has completed. -/
def State.mayStart (s : State) (n : Nat) (fence : Bool) : Bool :=
  s.on (ringF n Reg.RING_CFG_EN) && s.rd (ringF n Reg.RING_CFG_KIND) == 1 && decide (0 < (s.ring n).waiting)
    && !s.ringFull (s.rd (ringF n Reg.RING_CFG_CPL)) && !s.wedged && (!fence || (s.ring n).openCmds == 0)

/-- The state in which a command of ring `n` has started. -/
def State.start (s : State) (n : Nat) : State :=
  s.modRing n fun x => { x with waiting := x.waiting - 1, openCmds := x.openCmds + 1 }

/-- The event-ring record of a mode request result (R386, R422). -/
def State.modeResult (s : State) (who : Requester) (result before after : Nat) : State :=
  let s := s.wr Reg.MODE_STAT_RESULT result
  match who with
  | .host => s.postEvent 0x02 [(2, 1, 2), (3, 1, result), (4, 1, before), (5, 1, after),
      (6, 1, s.rd Reg.MODE_STAT_PSTATE), (8, 8, s.ns), (16, 2, s.rd Reg.PWR_STAT_REFUSED_BY), (20, 4, s.pn)] true
  | _ => s

end Sys2Proof.Machine
end

