-- ==== Sys2Proof/Machine/MemOps.lean ====
section
/-! DEFINITION. Byte memory: region SRAM and MRAM, and cell memory (R8, R475 to R477, R501 to R504, R509). -/

namespace Sys2Proof.Machine

/-- The byte at an address; an unlisted address reads 0 (log entry 4, DESIGN CHOICE). -/
def memGet (m : Memory) (a : Nat) : Byte := fget 0 m a

/-- The memory with a byte written; writing 0 removes the entry, so that equal memories are equal data. -/
def memSet (m : Memory) (a : Nat) (b : Byte) : Memory := if b = 0 then fdel a m else fset a b m

/-- The canonical form: addresses strictly rising and no entry 0. -/
def Memory.wf (m : Memory) : Bool := frising m && m.all fun p => p.2 != 0

/-- The memory with bytes written from an address on. -/
def memWrite (m : Memory) (a : Nat) : List Byte → Memory
  | [] => m
  | b :: t => memWrite (memSet m a b) (a + 1) t

/-- `n` bytes from an address on. -/
def memRead (m : Memory) (a : Nat) : Nat → List Byte
  | 0 => []
  | n + 1 => memGet m a :: memRead m (a + 1) n

/-- The key of a byte of region memory: SRAM at its address, MRAM at 0x0080_0000 + offset (R475). -/
def rgnKey (r a : Nat) : Nat := r * 0x1000000 + a
/-- The key of a byte of a cell's memory (R509). -/
def cellKey (c a : Nat) : Nat := c * 0x200000 + a
/-- The base of region MRAM in the region's address space (R475). -/
def mramBase : Nat := 0x800000

/-- The byte that a read of a security block shows at an offset: of the items it shows, each at its own offset; every other byte reads 0 (R475). -/
def secByte (items : List (Nat × List Byte)) (o : Nat) : Byte :=
  match items.find? fun q => decide (q.1 ≤ o) && decide (o < q.1 + q.2.length) with
  | some q => q.2.getD (o - q.1) 0
  | none => 0

/-- `n` bytes of a region's SRAM or MRAM. -/
def State.rgnRead (s : State) (r a n : Nat) : List Byte := memRead s.sram (rgnKey r a) n
/-- The state with bytes of a region's SRAM or MRAM written. -/
def State.rgnWrite (s : State) (r a : Nat) (l : List Byte) : State :=
  { s with sram := memWrite s.sram (rgnKey r a) l }
/-- A 32-bit word of a region's memory, little-endian (R17). -/
def State.rgnWord (s : State) (r a : Nat) : W32 := BitVec.ofNat 32 (leVal (s.rgnRead r a 4))
/-- The state with a 32-bit word of a region's memory written. -/
def State.setWord (s : State) (r a : Nat) (w : W32) : State := s.rgnWrite r a (leBytes 4 w.toNat)
/-- `n` bytes of cell `c`'s memory. -/
def State.cellRead (s : State) (c a n : Nat) : List Byte := memRead s.cellMem (cellKey c a) n
/-- The state with bytes of cell `c`'s memory written. -/
def State.cellWrite (s : State) (c a : Nat) (l : List Byte) : State :=
  { s with cellMem := memWrite s.cellMem (cellKey c a) l }

/-- What a region holds beside its registers. -/
def State.rgn (s : State) (r : Nat) : RgnSt := fget {} s.rgns r
/-- The state with a region changed. -/
def State.modRgn (s : State) (r : Nat) (f : RgnSt → RgnSt) : State := { s with rgns := fmod {} r f s.rgns }

/-- One more write waits in the MRAM queue (R396, log entry 36, DESIGN CHOICE). -/
def State.queueMram (s : State) : State := { s with mode := { s.mode with mramQueue := s.mode.mramQueue + 1 } }

/-- A fault-log record written to a region's MRAM (R476): the record of R359 with bytes 0 and 1 replaced by the CRC-16 of
the rest, at the log head; the head advances in the log control block. At most 8 records a period, where there are periods; further ones are only counted. -/
def State.logFault (s : State) (r : Nat) (rec : Nat) : State :=
  let n := if s.epochs && (s.rgn r).logPn == s.pn then (s.rgn r).logN else 0
  if 8 ≤ n then s.inc Reg.CFLT_STAT_EV_LOST
  else
    let body := (leBytes 32 rec).drop 2
    let head := leVal (s.rgnRead r (mramBase + 0x51000) 2) % 8192
    let s := s.rgnWrite r (mramBase + 0x11000 + 32 * head) (leBytes 2 (crc16 body) ++ body)
    let ctl := leBytes 2 ((head + 1) % 8192) ++ leBytes 2 0
    let s := s.rgnWrite r (mramBase + 0x51000) (ctl ++ leBytes 4 (crc32 ctl))
    (s.modRgn r fun x => { x with logPn := s.pn, logN := n + 1 }).queueMram

end Sys2Proof.Machine
end

