-- ==== Sys2Proof/Machine/FaultOps.lean ====
section
/-! DEFINITION. Severities, capture, order and blocks of the fault collectors (R335 to R355, R359). -/

namespace Sys2Proof.Machine

/-- Reset severities of the cell, tree, region and chip sources, by number (R339 to R342). -/
def cellSevRst : List Nat := [4, 4, 4, 4, 4, 4, 5, 3, 3, 3, 3, 3, 2, 2, 2, 2, 2, 1, 1, 2, 3, 2, 2, 1, 3, 4, 2, 3, 4, 1]
def treeSevRst : List Nat := [5, 6, 4, 5, 5, 5, 5, 3, 2, 2, 2, 2, 1, 1]
def rgnSevRst : List Nat := [3, 2, 5, 3, 3, 1, 3, 5, 2, 1, 3, 3, 3, 2, 1, 2, 2, 5, 2, 1, 6, 2, 6, 3, 6, 5, 7]
def chipSevRst : List Nat := [7, 7, 6, 3, 2, 2, 3, 3, 6, 6, 6, 6, 3, 3, 6, 3, 2, 7, 2]

/-- The severity field of source `n` in registers whose SEV0 lies at byte `base` (R337). -/
def sevAt (base n rst : Nat) : Fld := ⟨8 * (base + 4 * (n / 8)) + 4 * (n % 8), 3, .rw, rst⟩

/-- The severity field of a source of a Basath collector (R337); none for a reserved source. -/
def Coll.sevFld (c : Coll) (n : Nat) : Option Fld :=
  match c with
  | .chip => chipSevRst[n]?.map fun v => sevAt 0x5000 n v
  | .region r => rgnSevRst[n]?.map fun v => rf r (sevAt 0x5000 n v)
  | .tree r t => treeSevRst[n]?.map fun v => tf r t (sevAt 0x18 n v)
  | .cell _ => none

/-- The programmed severity of a source; a reserved source reads 0 (R335). -/
def State.sevOf (s : State) (c : Coll) (n : Nat) : Nat :=
  match c.sevFld n with
  | some f => s.rd f
  | none => 0

/-- The effective severity of an occurrence: the programmed one under its ceiling (R349). -/
def State.effSev (s : State) (c : Coll) (o : Occ) : Nat := min (s.sevOf c o.src) o.cap

/-- The sticky field that holds a source (R343). -/
def Coll.stickyFld (c : Coll) (n : Nat) : Fld :=
  match c with
  | .chip => ⟨8 * (0x5020 + 4 * (n / 32)), 32, .w1cBits, 0⟩
  | .region r => rf r ⟨8 * (0x5020 + 4 * (n / 32)), 32, .w1cBits, 0⟩
  | .tree r t => tf r t ⟨8 * 0x28, 14, .w1cBits, 0⟩
  | .cell _ => ⟨8 * (0x628 + 4 * (n / 32)), 32, .w1cBits, 0⟩

/-- The ACT field that shows a source (R343). -/
def Coll.actFld (c : Coll) (n : Nat) : Fld :=
  match c with
  | .chip => ⟨8 * (0x5030 + 4 * (n / 32)), 32, .ro, 0⟩
  | .region r => rf r ⟨8 * (0x5040 + 4 * (n / 32)), 32, .ro, 0⟩
  | .tree r t => tf r t ⟨8 * 0x2C, 14, .ro, 0⟩
  | .cell _ => ⟨8 * (0x630 + 4 * (n / 32)), 32, .ro, 0⟩

/-- Whether a Basath collector uses first-latch capture: M2, M5, M11 and the recovery window (R344). -/
def State.firstLatch (s : State) : Bool :=
  s.modeNo == 2 || s.modeNo == 5 || s.modeNo == 11 ||
    (match s.mode.recUntil with | some n => decide (s.ns < n) | none => false)

/-- The bit of a source set in a field of 32. -/
def setSrcBit (s : State) (f : Fld) (n : Nat) : State := (s.wr f (setBit (s.rd f) (n % 32))).markHw f (2 ^ (n % 32))

/-- Normal capture: the sticky bit (R343). -/
def State.captureSticky (s : State) (c : Coll) (n : Nat) : State := setSrcBit s (c.stickyFld n) n

/-- The level code of a collector (R345). -/
def Coll.level : Coll → Nat
  | .cell _ => 0
  | .tree _ _ => 1
  | .region _ => 2
  | .chip => 3

/-- The timestamp of an occurrence: its own, or the collection tick (R360). -/
def State.occTime (s : State) (o : Occ) : Time := o.ts.getD s.time.ctr

/-- First-latch capture on the chip (R343, R345). -/
def State.latchChip (s : State) (o : Occ) (sev : Nat) : State :=
  if s.on Reg.CFLT_FIRST_VALID then s.wr Reg.CFLT_STAT_OVF 1
  else ((((s.wr Reg.CFLT_FIRST_SOURCE o.src).wr Reg.CFLT_FIRST_LEVEL 3).wr Reg.CFLT_FIRST_SEVERITY sev).wr
    Reg.CFLT_FIRST_VALID 1).wr Reg.CFLT_FIRST_TS_NS (timeNs (s.occTime o))

/-- First-latch capture of a region or of one of its trees (R343, R345): a tree collector has no latch of its own. GLINT_MISS is cell-scoped at severities 3 and 4
only (R340). -/
def State.latchRegion (s : State) (r : Nat) (tree : Option Nat) (o : Occ) (sev level : Nat) : State :=
  if s.on (rf r Rgn.FLT_FIRST_VALID) then s.wr (rf r Rgn.FLT_STAT_OVF) 1
  else
    let byCell := !(level == 1 && o.src == Src.GLINT_MISS && sev != 3 && sev != 4)
    let tr : Nat × Nat × Nat × Nat := match (if byCell then o.cell else none), tree with
      | some c, _ => (idxTree c, idxSlot c, 1, 1)
      | none, some t => (t, 0, 1, 0)
      | none, none => (0, 0, 0, 0)
    (((((((((s.wr (rf r Rgn.FLT_FIRST_SOURCE) o.src).wr (rf r Rgn.FLT_FIRST_LEVEL) level).wr
      (rf r Rgn.FLT_FIRST_SEVERITY) sev).wr (rf r Rgn.FLT_FIRST_TREE) tr.1).wr
      (rf r Rgn.FLT_FIRST_SLOT) tr.2.1).wr (rf r Rgn.FLT_FIRST_IDX_VALID) tr.2.2.1).wr
      (rf r Rgn.FLT_FIRST_SLOT_VALID) tr.2.2.2).wr (rf r Rgn.FLT_FIRST_VALID) 1).wr
      (rf r Rgn.FLT_FIRST_TS_NS) (timeNs (s.occTime o)))

/-- The capture of one raise at a Basath collector (R343). -/
def State.capture (s : State) (c : Coll) (o : Occ) (sev : Nat) : State :=
  if s.firstLatch then
    match c with
    | .chip => s.latchChip o sev
    | .region r => s.latchRegion r none o sev 2
    | .tree r t => s.latchRegion r (some t) o sev 1
    | .cell _ => s
  else s.captureSticky c o.src

/-- Bits 0 to 31 of group `g`: the active sources of a collector. -/
def actWord (active : List (Nat × Nat)) (g : Nat) : Nat :=
  active.foldl (fun w p => if p.1 / 32 = g then setBit w (p.1 % 32) else w) 0

/-- The ACT registers show the active sources (R343). -/
def State.showActive (s : State) (c : Coll) (active : List (Nat × Nat)) : State :=
  match c with
  | .tree _ _ => s.wr (c.actFld 0) (actWord active 0)
  | .cell _ => s
  | _ => s.wr (c.actFld 0) (actWord active 0)

/-- The order of raises in one tick (R346): higher severity, lower source, lower index. -/
def before (a b : Nat × Occ) : Bool :=
  if a.1 != b.1 then decide (b.1 < a.1)
  else if a.2.src != b.2.src then decide (a.2.src < b.2.src)
  else decide (a.2.idx.2 < b.2.idx.2)

/-- Insertion by that order, after equals. -/
def insOcc (x : Nat × Occ) : List (Nat × Occ) → List (Nat × Occ)
  | [] => [x]
  | y :: t => if before x y then x :: y :: t else y :: insOcc x t

/-- The raises of one tick in order. -/
def sortOccs (l : List (Nat × Occ)) : List (Nat × Occ) := l.foldl (fun acc x => insOcc x acc) []

/-! ### Blocks (R338, R347, R354) -/

/-- The converter that holds an arm, as CONV_ARMS declares it (R34, R492). -/
def convFld (c : Nat) : Fld := Reg.CONV_ARMS0_ARMS.at (4 * c)
def State.convOf (s : State) (r a : Nat) : Option Nat :=
  (List.range 8).find? fun c => (s.rd (convFld c)).testBit (4 * r + a)
/-- The arms of a converter. -/
def State.convArms (s : State) (c : Nat) : List (Nat × Nat) :=
  ((List.range 32).filter fun k => (s.rd (convFld c)).testBit k).map fun k => (k / 4, k % 4)
/-- The arms of a region: those that hold an enabled tree or belong to a converter. -/
def State.rgnArms (s : State) (r : Nat) : List (Nat × Nat) :=
  ((List.range 4).filter fun a => !(s.armTrees r a).isEmpty || (s.convOf r a).isSome).map fun a => (r, a)
/-- Every arm of the unit. -/
def State.unitArms (s : State) : List (Nat × Nat) := (List.range s.dies).flatMap s.rgnArms
/-- The converters declared. -/
def State.convs (s : State) : List Nat := (List.range 8).filter fun c => s.rd (convFld c) != 0
/-- Whether an arm is blocked (R354). -/
def State.armBlocked (s : State) (r a : Nat) : Bool := s.on (af r a Arm.ARM_BLK_BLOCKED)

/-- The collection tick of now: 8 ns (R336). -/
def State.collTick (s : State) : Nat := s.ns / 8
/-- One block decision for an arm (R347, R354): its ARM_BLK takes the cause, or MANY when it is already
blocked; a block Beacon falls due on each of its trees. An arm that a Clause has enabled in this very collection tick stays blocked with the cause it held. -/
def State.blockArm (s : State) (level src r a : Nat) : State :=
  let s := match (fget {} s.arms (armKey r a)).enabledAt with
    | some (k, lv, n) =>
      if !s.armBlocked r a && k == s.collTick then
        ((s.wr (af r a Arm.ARM_BLK_BLOCKED) 1).wr (af r a Arm.ARM_BLK_LEVEL) lv).wr (af r a Arm.ARM_BLK_SOURCE) n
      else s
    | none => s
  let s := if s.armBlocked r a then s.wr (af r a Arm.ARM_BLK_MANY) 1
    else ((s.wr (af r a Arm.ARM_BLK_BLOCKED) 1).wr (af r a Arm.ARM_BLK_LEVEL) level).wr (af r a Arm.ARM_BLK_SOURCE) src
  let s := { s with arms := fmod {} (armKey r a) (fun x => { x with blockAt := some s.ns }) s.arms }
  (s.armTrees r a).foldl (fun s t => s.modTree r t fun x => { x with blockDue := true }) s

/-- Block decisions for several arms. -/
def State.blockArms (s : State) (level src : Nat) (l : List (Nat × Nat)) : State :=
  l.foldl (fun s p => s.blockArm level src p.1 p.2) s

/-- The arms a severity-5 reaction blocks, by the scope of the occurrence (R338). -/
def State.scopeArms (s : State) (c : Coll) (o : Occ) : List (Nat × Nat) :=
  match o.conv, o.arm, o.cell, c with
  | some v, _, _, _ => s.convArms v
  | none, some (r, a), _, _ => [(r, a)]
  | none, none, some i, _ =>
    match s.armOf (idxRegion i) (idxTree i) with
    | some a => [(idxRegion i, a)]
    | none => []
  | none, none, none, .tree r t => match s.armOf r t with | some a => [(r, a)] | none => []
  | none, none, none, .region r => if o.src == Src.BLOCKNET_FAULT then s.unitArms else s.rgnArms r
  | none, none, none, .chip =>
    if 8 ≤ o.src ∧ o.src ≤ 11 then
      ((List.range 8).filter fun v =>
        (s.rd (⟨8 * 0x5058 + 32 + 8 * (o.src - 8), 8, .rwc, 0⟩ : Fld)).testBit v).flatMap s.convArms
    else s.unitArms
  | none, none, none, .cell _ => []

/-- The converters a severity-6 reaction blocks (R338): those of TRIP_IN's list, those with a share on the region, every one of the unit, or those that hold an arm of
the scope. -/
def State.scopeConvs (s : State) (c : Coll) (o : Occ) : List Nat :=
  let byArms := (s.scopeArms c o).filterMap fun p => s.convOf p.1 p.2
  let wide : Option (Nat → Bool) := match o.cell, o.arm, c with
    | none, none, .region r => some fun v => o.src == Src.BLOCKNET_FAULT || (List.range 4).any fun a => (s.rd (convFld v)).testBit (4 * r + a)
    | none, none, .chip => some fun v => decide (o.src < 8) || decide (11 < o.src) || byArms.contains v
    | _, _, _ => none
  s.convs.filter fun v => match wide with | some f => f v | none => byArms.contains v
/-- The arms a severity-6 reaction blocks: every arm of each of those converters; PHRASE_BLOCK blocks exactly the unit named (R338). -/
def State.scopeConvArms (s : State) (c : Coll) (o : Occ) : List (Nat × Nat) :=
  let named := match c with | .region _ => o.src == Src.PHRASE_BLOCK | _ => false
  if named then s.scopeArms c o else (s.scopeConvs c o).flatMap s.convArms

/-- Whether an occurrence carries a cell index (R338). -/
def Occ.cellScoped (o : Occ) : Bool := o.cell.isSome

/-- A severity-4 reaction on a cell: the region sends it ISOLATE until a Clause removes it from the plan
or M5 is entered (R347, R354). -/
def State.isolateCell (s : State) (i : Nat) : State :=
  s.modSlot (idxRegion i) (idxTree i) (idxSlot i) fun x => { x with isolated := true }

/-- TRIP_OUT outputs with SEVn at or below the severity are asserted, in every mode except M0 (R352). -/
def tripSevFld (n : Nat) : Fld := ⟨8 * 0x5060 + 4 * n, 3, .rw, 7⟩
def State.tripOut (s : State) (sev : Nat) : State :=
  if s.modeNo == 0 then s
  else (List.range 4).foldl (fun s n =>
    if s.rd (tripSevFld n) ≤ sev then s.wr Reg.CFLT_TRIPOUT_ASSERTED (setBit (s.rd Reg.CFLT_TRIPOUT_ASSERTED) n)
    else s) s

/-- The PN of the period that holds an instant (R359), counted back or on from the epoch in force; without epochs PN itself. -/
def State.pnOf (s : State) (n : Nat) : Nat :=
  if s.period = 0 || s.modeNo ≤ 4 then s.pn
  else if s.time.epochAt ≤ n then s.pn + (n - s.time.epochAt) / s.period
  else s.pn - ceilDiv (s.time.epochAt - n) s.period
/-- The fields of the fault record of one raise (R359). -/
def State.faultFields (s : State) (c : Coll) (o : Occ) (sev react : Nat) (suppressed : Bool) (rep : Nat) : List (Nat × Nat × Nat) :=
  let rt : Nat × Nat := match o.cell, c with
    | some i, _ => (idxRegion i, idxTree i)
    | none, .tree r t => (r, t)
    | none, .region r => (r, 0)
    | none, _ => (0, 0)
  let arm : Nat × Nat := match s.scopeArms c o, o.arm, o.cell, c with
    | [p], some _, _, _ => (p.2, 1)
    | [p], _, some _, _ => (p.2, 1)
    | [p], _, _, .tree _ _ => (p.2, 1)
    | _, _, _, _ => (0, 0)
  let tm := s.occTime o
  [(2, 1, c.level + 4 * sev + 64 * b2n s.firstLatch + 128 * b2n s.evLost), (3, 1, o.src),
     (4, 2, (match o.cell with | some i => i % 32768 + 32768 | none => 0)), (6, 1, rt.1 % 8 + 8 * rt.2),
     (7, 1, react + 8 * b2n suppressed + 16 * arm.1 + 64 * arm.2), (8, 8, timeNs tm),
     (16, 1, timeQ tm + 4 * s.modeNo), (17, 1, min rep 255), (18, 2, s.rd Reg.CFLT_REC_STAT_REC_COUNT),
     (20, 4, s.pnOf (timeNs tm)), (24, 8, o.detail)]

end Sys2Proof.Machine
end

