-- ==== Sys2Proof/Machine/Fields.lean ====
section
/-! DEFINITION. Registers as words: what a word reads, and what a masked write of a word does to each field (R19, R21, R485, R505, R508). -/

namespace Sys2Proof.Machine

/-- Whether a field has bits in the word at byte address `a`. -/
def Fld.inWord (f : Fld) (a : Nat) : Bool := decide (f.lsb < 8 * a + 32) && decide (8 * a < f.lsb + f.width)
/-- The bits of a field's value `v` in the word at `a`, where the word holds them. -/
def Fld.part (f : Fld) (a v : Nat) : Nat :=
  if 8 * a ≤ f.lsb then v * 2 ^ (f.lsb - 8 * a) % 2 ^ 32 else v / 2 ^ (8 * a - f.lsb) % 2 ^ 32
/-- The bits of the word at `a` that a field covers. -/
def Fld.cover (f : Fld) (a : Nat) : Nat := f.part a (2 ^ f.width - 1)
/-- `old` with the bits of `m` taken from `new`. -/
def mergeBits (old new m : Nat) : Nat := old - Nat.land old m + Nat.land new m
/-- A field's value with the bits that the word at `a` holds replaced by those of `w` under the mask `m`. -/
def Fld.put (f : Fld) (a m w cur : Nat) : Nat :=
  if 8 * a ≤ f.lsb then
    let k := f.lsb - 8 * a
    let n := min f.width (32 - k)
    setBits cur 0 n (mergeBits (bits cur 0 n) (bits w k n) (bits m k n))
  else
    let k := 8 * a - f.lsb
    let n := min 32 (f.width - k)
    setBits cur k n (mergeBits (bits cur k n) (bits w 0 n) (bits m 0 n))

/-- The value of a field after a direct write (R19, R485): RW takes the bits; a one-bit W1C is cleared by a 1, a counter by a 1 in every
bit; each bit of a bitwise W1C field by its own 1; every other field stays. -/
def Fld.written (f : Fld) (a m w cur : Nat) : Nat :=
  match f.acc with
  | .rw => f.put a m w cur
  | .w1c => if Nat.land (Nat.land m w) (f.cover a) = f.cover a then 0 else cur
  | .w1cBits => f.put a (Nat.land m w) 0 cur
  | _ => cur
/-- The value of a field after a write that a Clause or a parameter set makes: RW and RWC take the bits (R19, R510). -/
def Fld.staged (f : Fld) (a m w cur : Nat) : Nat :=
  match f.acc with
  | .rw => f.put a m w cur
  | .rwc => f.put a m w cur
  | _ => cur
/-- A W1C field after a write that leaves `new`, where hardware set the bits `m` of it in the tick of the write: they stay set, and a counter reads 1 (R20, R485). -/
def Fld.keep (f : Fld) (m old new : Nat) : Nat :=
  if m = 0 || new == old then new else if f.acc == .w1c then 1 else Nat.lor new (Nat.land old m)
/-- The bits of a field that hardware has set in tick `t`. -/
def marked (h : FMap (Nat × Nat)) (f : Fld) (t : Nat) : Nat := let p := fget (0, 0) h f.lsb; if p.1 = t then p.2 else 0
/-- Whether a direct write can change the field, or starts its action (R508). -/
def Fld.writable (f : Fld) : Bool := f.acc != .ro && f.acc != .rwc

/-- The word at `a` as the fields `fs` show it; WO fields read 0. -/
def Regs.word (g : Regs) (fs : List Fld) (a : Nat) : Nat :=
  fs.foldl (fun v f => if f.acc == .wo then v else v + f.part a (g.rd f)) 0
/-- A direct write of a word under a mask, in tick `t`; `hw`: what hardware has set (R20). -/
def Regs.write (g : Regs) (fs : List Fld) (a m w : Nat) (hw : FMap (Nat × Nat)) (t : Nat) : Regs :=
  fs.foldl (fun g f => g.wr f (f.keep (marked hw f t) (g.rd f) (f.written a m w (g.rd f)))) g
/-- A staged write of a word under a mask. -/
def Regs.stage (g : Regs) (fs : List Fld) (a m w : Nat) : Regs := fs.foldl (fun g f => g.wr f (f.staged a m w (g.rd f))) g
/-- The bits of the word that the fields satisfying `p` cover. -/
def coverOf (fs : List Fld) (a : Nat) (p : Fld → Bool) : Nat := fs.foldl (fun v f => if p f then v + f.cover a else v) 0

/-! ### Elsum registers (R505) -/

/-- The assigned addresses of an Elsum. -/
def elsAssigned (a : Nat) : Bool :=
  [(0x000, 0x05F), (0x100, 0x17F), (0x200, 0x2FF), (0x300, 0x3BF), (0x400, 0x49F), (0x500, 0x57F), (0x600, 0x65F), (0x700, 0x73F),
    (0x800, 0x83F), (0x900, 0x91F), (0xA00, 0xA3F)].any fun b => decide (b.1 ≤ a) && decide (a ≤ b.2)
/-- The fields of the word at `a`. -/
def elsFields (a : Nat) : List Fld :=
  if 0x100 ≤ a && decide (a < 0x180) then
    (Port.table.map fun f => f.at (0x100 + 0x40 * ((a - 0x100) / 0x40))).filter fun f => f.inWord a
  else Els.table.filter fun f => f.inWord a

end Sys2Proof.Machine
end

