-- ==== Sys2Proof/Machine/TxnOps.lean ====
section
/-! DEFINITION. Management transactions as they are queued, and the delays that ranging gives a cell (R116, R123, R125, R126). -/

namespace Sys2Proof.Machine

/-- The payload cut into segments of at most 120 bytes. -/
def chunks : Nat → List Byte → List (List Byte)
  | 0, l => [l.take 120]
  | n + 1, l => if l.length ≤ 120 then [l] else l.take 120 :: chunks n (l.drop 120)

/-- The segments of a transaction (R125): FIRST on the first, LAST on the last, numbered modulo 16. -/
def segsOf (kind slot num : Nat) (bcast : Bool) (payload : List Byte) : List Seg :=
  let cs := chunks payload.length payload
  cs.zipIdx.map fun p =>
    { slot := BitVec.ofNat 7 slot, bcast := bcast, kind := BitVec.ofNat 4 kind, first := p.2 == 0,
      last := p.2 + 1 == cs.length, txn := BitVec.ofNat 12 num, segNo := BitVec.ofNat 4 p.2, payload := p.1 }

/-- The message of a ranging result or a re-range hold (R116, R119): byte 0 is 0 for a hold and 1 for a result, then DS_DELAY, EQ and the epoch (log entry 20, DESIGN CHOICE). -/
def resultMsg (delay eq epoch : Nat) : List Byte := 1 :: (leBytes 2 delay ++ leBytes 2 eq ++ leBytes 8 epoch)
def holdMsg : List Byte := [0]

/-- A transaction queued on a tree. -/
def TreeSt.queue (x : TreeSt) (kind slot : Nat) (bcast : Bool) (payload : List Byte) (origin : Origin) : TreeSt :=
  { x with
    txns := x.txns ++ [{ num := x.nextTxn, slot := slot, bcast := bcast,
                         segs := segsOf kind slot x.nextTxn bcast payload, front := origin == .alertAck, origin := origin }]
    nextTxn := (x.nextTxn + 1) % 4096 }

/-- DS_DELAY and EQ of a round trip (R116): half of rtt plus and minus TREE_ASYM, rounded down to 0.25 ns, and limited to the fields' 15 bits (log
entry 22, DESIGN CHOICE). -/
def delaysOf (rtt asym : Int) : Nat × Nat := (min (2 ^ 15 - 1) ((rtt + asym) / 2).toNat, min (2 ^ 15 - 1) ((rtt - asym) / 2).toNat)

/-- TREE_ASYM of a tree, signed (R116). -/
def State.asym (s : State) (r t : Nat) : Int := sext 15 (s.rd (tf r t Tree.TREE_ASYM_ASYM))
/-- What TREE_ASYM of a tree is once the register writes among `l` have been made. -/
def State.asymIn (s : State) (l : List Item) (r t : Nat) : Int :=
  let f := tf r t Tree.TREE_ASYM_ASYM
  sext 15 ((l.foldl (fun g i => match i with
    | .regWrite o m v => if f.inWord o then g.stage [f] o m.toNat v.toNat else g
    | _ => g) s.regs).rd f)
/-- The slots of a tree that is neither DISABLED, IDLE nor FAILED are told the delays of a split of the round trip, from an epoch on (R116, R123). -/
def State.tellSplit (s : State) (r t : Nat) (asym : Int) (epoch : Nat) (p : SlotSt → Bool) : State :=
  if [0, 1, 6].contains (s.treeState r t) then s
  else s.modTree r t fun x => x.slots.foldl (fun x (q : Nat × SlotSt) =>
    if q.2.ranged && p q.2 then
      let d := delaysOf q.2.rtt asym
      (x.modSlot q.1 fun y => { y with newDelay := some (d.1, d.2, epoch) }).queue 9 q.1 false (resultMsg d.1 d.2 epoch) .rangeResult
    else x) x
/-- A Clause that is armed for epoch `e` and changes TREE_ASYM has every ranged cell of the tree told its new delays, which apply at `e` (R123; log entry
85, DEDUCED). -/
def State.splitArmed (s : State) (l : List Item) (e : Nat) : State :=
  s.allTrees.foldl (fun s q =>
    let a := s.asymIn l q.1 q.2
    if a == s.asym q.1 q.2 then s else s.tellSplit q.1 q.2 a e fun _ => true) s
/-- The same Clause abandoned: the cells are told the delays that stay. -/
def State.splitDropped (s : State) (l : List Item) (e : Nat) : State :=
  s.allTrees.foldl (fun s q =>
    if s.asymIn l q.1 q.2 == s.asym q.1 q.2 then s
    else s.tellSplit q.1 q.2 (s.asym q.1 q.2) e fun y => match y.newDelay with | some d => d.2.2 == e | none => false) s
/-- The epoch at which the armed Clause changes the split of a tree. -/
def State.splitAt (s : State) (r t : Nat) : Option Nat :=
  match s.clause.armed with
  | some a => if s.asymIn a.items r t == s.asym r t then none else some a.epoch
  | none => none
/-- TREE_ASYM of a tree at an epoch: that of an armed Clause where its epoch has come by then (R123). -/
def State.asymAt (s : State) (r t pn : Nat) : Int :=
  match s.clause.armed with
  | some a => if a.epoch ≤ pn then s.asymIn a.items r t else s.asym r t
  | none => s.asym r t

end Sys2Proof.Machine
end

