-- ==== Sys2Proof/Machine/ClauseOps.lean ====
section
/-! DEFINITION. The shared operations of Clauses: the outcome record and abandonment (R422, R424, R428, R429). -/

namespace Sys2Proof.Machine

/-- Reason codes of R425 and R428. -/
def Rsn.IMAGE_ERROR := 0x01
def Rsn.INDEX_INVALID := 0x02
def Rsn.MEMBERSHIP := 0x03
def Rsn.SLOT_PLAN := 0x04
def Rsn.POLE_OUTSIDE := 0x05
def Rsn.DEAD_TIME_LOW := 0x06
def Rsn.LOOP_CLOSED := 0x07
def Rsn.DEADLINE_INFEASIBLE := 0x08
def Rsn.L0_INFEASIBLE := 0x09
def Rsn.HANDOVER_BUSY := 0x0A
def Rsn.MOD_INVALID := 0x0B
def Rsn.SEL_INVALID := 0x0C
def Rsn.CARRIER_INVALID := 0x0D
def Rsn.CONV_INVALID := 0x0E
def Rsn.LEASE_INVALID := 0x0F
def Rsn.MIRROR_INFEASIBLE := 0x10
def Rsn.FIELD_INVALID := 0x11
def Rsn.CONFLICT := 0x12
def Rsn.LIMIT := 0x13
def Rsn.NOT_OWNER := 0x14
def Rsn.EPOCH_TOO_EARLY := 0x15
def Rsn.CELL_UNCONFIRMED := 0x20
def Rsn.CELL_REFUSED := 0x21
def Rsn.TREE_BUSY := 0x22
def Rsn.HOST_ABANDON := 0x23
def Rsn.MODE_LEFT := 0x24
def Rsn.AUTH_LOST := 0x25
def Rsn.HOST_LOST := 0x26

/-- The Clause outcome record (R422 type 0x03): 0 applied, 1 abandoned, 2 closed. -/
def State.clauseRecord (s : State) (outcome reason id item epoch : Nat) (cell : Option Nat) (unconfirmed late : Nat) : State :=
  s.postEvent 0x03 [(2, 1, outcome), (3, 1, reason), (4, 2, id), (6, 2, item), (8, 8, s.ns), (16, 8, epoch),
    (24, 2, (match cell with | some c => c % 32768 + 32768 | none => 0)), (26, 2, unconfirmed), (28, 2, late)] true

/-- The armed Clause, if it has not passed its commit point, is abandoned with a reason (R428): the source is
raised, the record posted, ABANDON goes into the next 16 Beacons, and a Clause checked on top of it loses its checked state (R424). -/
def State.abandonItem (s : State) (reason item : Nat) (cell : Option Nat) : State :=
  match s.clause.armed with
  | none => s
  | some a =>
    if a.committed then s
    else
      let unconf := (a.cells.filter fun c => !c.confirmed).length
      let s := s.raise .chip { src := Src.CLAUSE_ABANDON }
      let s := s.clauseRecord 1 reason a.id item a.epoch cell unconf 0
      let s := s.wr Reg.CLAUSE_STAT_ARMED 0
      let unchecks := match s.clause.staged with | some g => g.checked && g.underArmed | none => false
      let s := if unchecks then s.wr Reg.CLAUSE_STAT_CHECKED 0 else s
      let s := s.splitDropped a.items a.epoch
      { s with clause := { s.clause with
          armed := none
          lastOutcome := some (s.pn + 1)
          outcome := some ⟨a.id, false, 16⟩
          staged := s.clause.staged.map fun g => if g.underArmed then { g with checked := false, underArmed := false } else g } }

/-- The same where no one item is concerned. -/
def State.abandonClause (s : State) (reason : Nat) (cell : Option Nat) : State := s.abandonItem reason 0xFFFF cell

/-- The staged Clause is removed (R424, R432). -/
def State.dropStaged (s : State) : State :=
  let s := (s.wr Reg.CLAUSE_STAT_STAGED 0).wr Reg.CLAUSE_STAT_CHECKED 0
  { s with clause := { s.clause with staged := none } }

end Sys2Proof.Machine
end

