-- ==== Sys2Proof/Machine/TreeOps.lean ====
section
/-! DEFINITION. The shared operations of tree ports: slot plan, lead, headers and management transactions
(R101, R110 to R112, R126 to R130). -/

namespace Sys2Proof.Machine

/-! ### The slot plan (R110, R111), in quarter nanoseconds -/

/-- The slot pitch: 49.5 ns, or 70.25 ns during a re-range (R111). -/
def pitchQ (rerange : Bool) : Nat := if rerange then 281 else 198

/-- Where slot `j` may start, from `t` on: clear of the alert windows (R111). -/
def slotStartAt (pitch t : Nat) : Nat :=
  let m := t / 5000
  let t := if t < 5000 * m + 240 then 5000 * m + 240 else t
  if t + pitch > 5000 * (m + 1) then 5000 * (m + 1) + 240 else t

/-- The start of slot `j` of a plan that begins at `t` (R111). -/
def slotStart (pitch : Nat) : Nat → Nat → Nat
  | 0, t => slotStartAt pitch t
  | j + 1, t => slotStart pitch j (slotStartAt pitch t + pitch)

/-- E(N): the end of a plan of `n` slots that begins at `t` (R111). -/
def planEnd (pitch : Nat) : Nat → Nat → Nat
  | 0, t => t
  | n + 1, t => planEnd pitch n (slotStartAt pitch t + pitch)

/-- B(N) in units of 0.01 ns: the lane time of a Beacon with `n` records (R112). -/
def beaconTime (n : Nat) : Nat := (n + 26) * 256

/-- The number of slots of a tree (R111). -/
def State.slotsN (s : State) (r t : Nat) : Nat := s.rd (tf r t Tree.TREE_SLOTS_N)

/-- The end of the Glint window: T - BEACON_LEAD - 900 ns (R110), in quarters. -/
def State.glintEnd (s : State) : Nat := 4 * (s.period - s.rd Reg.BEACON_LEAD_LEAD - 900)

/-- The largest ranged downstream delay of a tree, in quarters (R112). -/
def TreeSt.maxDelay (x : TreeSt) : Nat := x.slots.foldl (fun m p => if p.2.ranged then max m p.2.dsDelay else m) 0
/-- The same with the ranging results that wait for their epoch. -/
def TreeSt.maxResult (x : TreeSt) : Nat :=
  x.slots.foldl (fun m p => match p.2.newDelay with | some d => max m d.1 | none => m) x.maxDelay

/-- The first condition of R112: BEACON_LEAD ≥ D + B(N) + 260 ns. -/
def leadOk (lead dQ n : Nat) : Bool := decide (dQ * 25 + beaconTime n + 26000 ≤ lead * 100)

/-- The second condition of R112: E(N) ≤ T - BEACON_LEAD - 900 ns. -/
def planOk (n startQ period lead : Nat) : Bool :=
  decide (planEnd 198 n startQ + 4 * (lead + 900) ≤ 4 * period)

/-- R112 for one tree with the ranged delays in force. -/
def State.treeFits (s : State) (r t : Nat) : Bool :=
  leadOk (s.rd Reg.BEACON_LEAD_LEAD) (s.tree r t).maxDelay (s.slotsN r t)
    && planOk (s.slotsN r t) (s.rd (tf r t Tree.TREE_SLOTS_START)) s.period (s.rd Reg.BEACON_LEAD_LEAD)

/-- The number of reporting groups of a re-range (R120): the fewest up to 4 that fit the Glint window. -/
def State.rrGroups (s : State) (r t : Nat) : Nat :=
  let n := s.slotsN r t
  ((List.range 4).find? fun g =>
      decide (planEnd 281 (ceilDiv n (g + 1)) (s.rd (tf r t Tree.TREE_SLOTS_START)) ≤ s.glintEnd)).getD 3 + 1

/-- The PN of the coming epoch (R67, R71). -/
def State.pnNext (s : State) : Nat := s.mirror.pnTake.getD (s.pn + 1)
/-- The PN of the next period Beacon to be launched. -/
def State.pnBeacon (s : State) : Nat := if s.time.launched == some s.pnNext then s.pnNext + 1 else s.pnNext
/-- Whether period `k` runs the plan of a re-range: it does from the first Beacon with RERANGE = 1 on (R120). -/
def State.widePlan (s : State) (r t k : Nat) : Bool := s.treeState r t == 4 && decide ((s.tree r t).rrFrom ≤ k)
/-- Whether slot `j` reports in period `k` under the plan in force: every slot outside a re-range, one group within it (R120). -/
def State.reports (s : State) (r t j k : Nat) : Bool :=
  if s.widePlan r t k then
    let g := s.rrGroups r t
    k % g == j % g
  else true

/-- The slot start of slot `j` in period `k`, in quarters from the epoch (R111, R120). -/
def State.slotAt (s : State) (r t j k : Nat) : Nat :=
  if s.widePlan r t k then
    let g := s.rrGroups r t
    slotStart 281 ((j - k % g) / g) (s.rd (tf r t Tree.TREE_SLOTS_START))
  else slotStart 198 j (s.rd (tf r t Tree.TREE_SLOTS_START))

/-! ### Headers (R101) -/

/-- TREE_ID as R101 lays it out. -/
def treeId (r t : Nat) (unitB : Bool) (n : Nat) : Nat :=
  r % 8 * 8192 + t % 32 * 256 + b2n unitB * 128 + (n - 1) % 128

/-- Whether the unit's Beacons carry SHADOW = 1: in M8, and without authority in M5, M6, M10 and M11 (R371, R457). -/
def State.shadow (s : State) : Bool :=
  s.modeNo == 8 || (!s.mirror.auth && (s.modeNo == 5 || s.modeNo == 6 || s.modeNo == 10 || s.modeNo == 11))

/-- Whether the arm of a tree is blocked. -/
def State.treeBlocked (s : State) (r t : Nat) : Bool :=
  match s.armOf r t with
  | some a => s.armBlocked r a
  | none => false

/-- ARM_AVG of the snapshot that RANKQ reads in the period (R220, R240). -/
def State.armAvg (s : State) (r a : Nat) : Nat :=
  (s.rgnWord r (s.rd (rf r Rgn.RANK_BASE_BASE) + 0x40000 + (s.pn + 1) % 2 * 0x40000 + a * 0x10000 + 16)).toNat % 2 ^ 18
/-- The header common to every downstream frame of a tree, byte 0 of which leaves at counter value `tm` (R101, R72). RR_LEFT of a frame between two
period Beacons is that of the next one (log entry 81, DESIGN CHOICE). -/
def State.header (s : State) (r t kind mode pn seq : Nat) (tm : Time) : Hdr :=
  { kind := BitVec.ofNat 4 kind
    shadow := s.shadow
    yield := !s.mirror.healthy || decide (0 < s.mirror.yieldLeft)
    treeId := BitVec.ofNat 16 (treeId r t s.unitB (s.slotsN r t))
    pn := BitVec.ofNat 64 pn
    timeNs := BitVec.ofNat 64 (timeNs tm)
    timeFrac := BitVec.ofNat 32 tm.toNat
    authEpoch := BitVec.ofNat 32 (s.rd Reg.MIRR_AUTH_EPOCH)
    healthy := s.mirror.healthy
    mode := BitVec.ofNat 4 mode
    armBlocked := s.treeBlocked r t
    rerange := s.treeState r t == 4
    rrLeft := BitVec.ofNat 16 (if s.treeState r t == 4 then (s.tree r t).rrLeft else 0)
    armAvg := match s.armOf r t with | some a => BitVec.ofNat 18 (s.armAvg r a) | none => 0
    seq := BitVec.ofNat 8 seq }

/-- The tag of a downstream frame (R103): IV from PN (TIME_NS for KIND 4), KIND, SEQ and 0xFFFF. -/
def downMac (key : Key) (h : Hdr) : Mac :=
  { key := key
    ivPn := if h.kind = 4 then h.timeNs else h.pn
    ivKind := BitVec.ofNat 8 (2 * h.kind.toNat)
    ivSeq := h.seq
    ivCell := 0xFFFF
    ok := true }

/-- The key a tree's frames are tagged under: the tree key once it is in use, before that the enumeration key (R444, R467). -/
def TreeSt.useKey (x : TreeSt) : Key := if x.keyed then x.key else 0

/-- A downstream frame launched on a tree: byte 0 leaves at `tm`, and the lane is in use for `blocks` 66-bit blocks (R97, R99). -/
def State.launch (s : State) (r t : Nat) (tm : Time) (h : Hdr) (recs : List CmdRec) (seg : Option Seg) (blocks : Nat) : State :=
  s.modTree r t fun x =>
    { x with
      lastTx := some ⟨h, recs, seg, false, downMac x.useKey h⟩
      lastTxAt := tm
      txCount := x.txCount + 1
      laneFree := quarters tm + ceilDiv (blocks * 256) 25
      beaconOn := h.kind == 1 }

/-- The counter value at which a tree's lane is free, not before the counter, at the resolution of an egress timestamp (R77). -/
def State.laneTime (s : State) (r t : Nat) : Time :=
  BitVec.ofNat 96 (max (quarters s.time.ctr) (s.tree r t).laneFree * 2 ^ 30)

/-! ### Management transactions (R125 to R128) -/

/-- Whether a segment of this transaction may go now (R126, R350, R427): segments are left; no other addressed
transaction of the slot is open or, unless it is an acknowledgement, waiting before it; a CRC query waits for every broadcast. -/
def TreeSt.sendable (x : TreeSt) (tx : Txn) : Bool :=
  decide (tx.next < tx.segs.length)
    && (tx.bcast ||
        !((x.txns.filter fun y => y.slot == tx.slot && !y.bcast && y.num != tx.num).any fun y =>
            decide (0 < y.next) || (!tx.front && (y.front || ((x.txns.findIdx fun z => z.num == y.num) <
                (x.txns.findIdx fun z => z.num == tx.num))))))
    && (match tx.origin with | .crcQuery _ => !(x.txns.any fun y => y.bcast && decide (y.next < y.segs.length)) | _ => true)

/-- The transaction whose segment goes next (R127, R350): acknowledgements first, then round robin by slot
after the cursor, broadcasts ranked as slot 128. -/
def TreeSt.pick (x : TreeSt) (allow : Txn → Bool) : Option Txn :=
  let ok := x.txns.filter fun tx => x.sendable tx && allow tx
  match ok.find? fun tx => tx.front with
  | some tx => some tx
  | none =>
    let rank (tx : Txn) : Nat := ((if tx.bcast then 128 else tx.slot) + 129 - x.rrCursor) % 129
    ok.foldl (fun best tx => match best with
      | none => some tx
      | some b => if rank tx < rank b then some tx else some b) none

/-- The tree with the next segment of a transaction sent; a broadcast ends with its LAST segment (R126). -/
def TreeSt.sent (x : TreeSt) (tx : Txn) (pn : Nat) : TreeSt :=
  let done := tx.next + 1 == tx.segs.length
  { x with
    rrCursor := if tx.front then x.rrCursor else ((if tx.bcast then 128 else tx.slot) + 1) % 129
    txns := (x.txns.filter fun y => !(y.num == tx.num && tx.bcast && done)).map fun y =>
      if y.num == tx.num then { y with next := y.next + 1, sentPn := if done then some pn else none } else y }

/-- Which transactions a tree may send in its state (R128, R347): kinds 6 to 8 only in ENUM; only
acknowledgements while a severity-3 source of the tree is active. -/
def Txn.enumKind (tx : Txn) : Bool :=
  match tx.segs with | g :: _ => decide (6 ≤ g.kind.toNat) && decide (g.kind.toNat ≤ 8) | [] => false
def State.allowTxn (s : State) (r t : Nat) (tx : Txn) : Bool :=
  (s.treeState r t != 2 || tx.enumKind)
    && (tx.front || !((s.coll (.tree r t)).conds.any fun o =>
        !o.cellScoped && (s.effSev (.tree r t) o == 3 || s.effSev (.tree r t) o == 4)))

/-- A transaction fails (R128): its host command completes with MGMT_FAIL; a cell set leaves its Clause
without that cell, which ends the Clause (R428). -/
def State.failTxn (s : State) (r t : Nat) (tx : Txn) : State :=
  let s := s.modTree r t fun x => { x with txns := x.txns.filter fun y => y.num != tx.num }
  match tx.origin with
  | .host ring tag op notify _ => s.complete ring tag op notify Cpl.MGMT_FAIL 0 0
  | .clauseSet c => s.abandonClause Rsn.CELL_UNCONFIRMED (some c)
  | .crcQuery c => s.abandonClause Rsn.CELL_UNCONFIRMED (some c)
  | _ => s

/-- Every transaction of a tree fails at once (R128): the tree has entered DISABLED, IDLE or FAILED. -/
def State.failTxns (s : State) (r t : Nat) : State :=
  (s.tree r t).txns.foldl (fun s tx => s.failTxn r t tx) s

/-- A tree port takes a state; DISABLED, IDLE and FAILED end its transactions (R128, R130), a re-range and TREE_LOST. The lane of an IDLE tree is off
in M3 (R129). -/
def State.setTree (s : State) (r t st : Nat) : State :=
  let s := s.wr (tf r t Tree.TREE_CFG_STATE) st
  if st == 0 || st == 1 || st == 6 then
    ((s.failTxns r t).modTree r t fun x => { x with laneOn := st == 1 && s.modeNo != 3, provOfs := 0, provPrev := 0, driftNow := [] }).setCond
      (.tree r t) { src := Src.TREE_LOST } false
  else s

/-- TMO has not run in ENUM (R128): the periods spent there do not count for the transactions that wait. -/
def TreeSt.holdTmo (x : TreeSt) (pn : Nat) : TreeSt :=
  { x with txns := x.txns.map fun tx => { tx with sentPn := tx.sentPn.map fun n => n + (pn - max n x.enumPn) } }

/-- A slot without its place in the plan: what a FLUSH leaves (R443, R446). -/
def SlotSt.forget (x : SlotSt) : SlotSt :=
  { x with
    dsDelay := 0, eq := 0, ranged := false, phase := 0, tries := 0, kxChunk := 0
    miss := 0, heard := false, askedAt := none, newDelay := none }

/-- A tree enters enumeration (R443, R455): every slot is discarded and a new tree key drawn with the FLUSH. -/
def State.startEnum (s : State) (r t : Nat) : State :=
  let s := s.wr (tf r t Tree.TREE_CFG_STATE) 2
  let key := Config.freeKey s.free
  let s := s.used
  let s := ((s.wr (ef r t Rgn.ENUM_TREE0_PHASE) 1).wr (ef r t Rgn.ENUM_TREE0_DONE) 0).wr (ef r t Rgn.ENUM_TREE0_STALL) 0
  let s := s.setCond (.tree r t) { src := Src.TREE_LOST } false
  s.modTree r t fun x =>
    { x with key := key, keyed := false, flush := true, enumFrom := s.ns, enumPn := s.pn, provOfs := 0, provPrev := 0, driftNow := [], rrApply := false, enumIdx := 0, enumLeft := 0,
             enumCursor := 0, enumReq := none, parks := [], enumRound := 0, laneOn := true, stopped := false, firstBeacon := true,
             slots := x.slots.map fun p => (p.1, p.2.forget) }

end Sys2Proof.Machine
end

