-- ==== Sys2Proof/Machine/RankOps.lean ====
section
/-! DEFINITION. The rank keeper (R227 to R249): terms, predictions, rebases, capacitance tracking, availability and the freeze. -/

namespace Sys2Proof.Machine

/-- What the rank keeper holds of a cell. -/
def State.rankOf (s : State) (c : Nat) : RankCell := fget {} s.rank c
/-- The state with it changed. -/
def State.modRank (s : State) (c : Nat) (f : RankCell → RankCell) : State := { s with rank := fmod {} c f s.rank }
/-- What an arm holds beside its registers. -/
def State.armSt (s : State) (r a : Nat) : ArmSt := fget {} s.arms (armKey r a)
/-- The state with it changed. -/
def State.modArm (s : State) (r a : Nat) (f : ArmSt → ArmSt) : State :=
  { s with arms := fmod {} (armKey r a) f s.arms }

/-- The SERIAL the cell map gives a slot, 0 for a vacant one (R440). -/
def State.mapSerial (s : State) (r t j : Nat) : Nat :=
  leVal (s.rgnRead r (s.rd (rf r Rgn.ENUM_MAP_BASE_BASE) + t * 1024 + 8 * j) 8)
/-- The configured cells of a tree (R50, R440), ascending. -/
def State.treeCells (s : State) (r t : Nat) : List Nat :=
  ((List.range (s.slotsN r t)).filter fun j => s.mapSerial r t j != 0).map fun j => cellIndex r t j
/-- The configured cells of an arm in arm order (R50). -/
def State.armCells (s : State) (r a : Nat) : List Nat := (s.armTrees r a).flatMap (s.treeCells r)
/-- The slot of a cell on this unit. -/
def State.cellSlot (s : State) (c : Nat) : SlotSt := s.slot (idxRegion c) (idxTree c) (idxSlot c)

/-- Whether a byte belongs to the rank keeper (R227, R240). -/
def State.rankByte (s : State) (r ad : Nat) : Bool :=
  let b := s.rd (rf r Rgn.RANK_BASE_BASE)
  decide (b ≤ ad) && decide (ad < b + 0xC0000)

/-! ### Terms (R229) -/

/-- The OFF entry: diode conduction of a blocked cell, by the sign of the current. In units of 2^-16. -/
def insOff (fb : Bool) (i : Int) : Int := if 0 < i then 65536 else if i < 0 && fb then -65536 else 0

/-- The insertion term of a record (R229), in units of 2^-16. -/
def insTerm (r : CmdRec) (fb : Bool) (i : Int) : Int :=
  match r.cmd.toNat with
  | 1 => 65536
  | 2 => 0
  | 3 => (r.duty.toNat : Int)
  | 4 => if fb then -65536 else insOff fb i
  | 5 => if fb then -(r.duty.toNat : Int) else insOff fb i
  | 6 => (r.duty.toNat : Int)
  | 7 => 0
  | 8 => 0
  | _ => insOff fb i

/-- Whether a record makes its period ineligible for capacitance tracking (R234). -/
def recBad (r : CmdRec) : Bool := [0, 6, 7, 8].contains r.cmd.toNat

/-- Whether the term of a cell comes from the map of the authority owner (R243, R372): in M8, with a record mapped for the period, or the last mapped one while
the cell holds. -/
def State.ownerMapped (s : State) (c : Nat) : Bool :=
  let x := s.cellSlot c
  let holds := match x.last with | some g => g.status.holding | none => false
  s.modeNo == 8 && (x.recMapPn == some s.pn || (holds && x.recMapPn.isSome))
/-- The record whose term period `pn` takes (R229, R372): in M8 the owner's mapped record, or the last mapped one while the cell holds;
OFF after a block Beacon on the tree. -/
def State.termRec (s : State) (c : Nat) : CmdRec :=
  let x := s.cellSlot c
  if s.ownerMapped c then x.recMap
  else if x.blockedIn then ⟨0, false, 0, 0⟩
  else x.recNow

/-- The arm current of the period (R233), Q8.24: the last entry posted, or 0 where none has been posted since entry to M5. -/
def ArmSt.current (x : ArmSt) : Int := if x.noEntry then 0 else x.iNow
/-- Whether the period's current makes it ineligible (R233). -/
def ArmSt.currentBad (x : ArmSt) : Bool := x.noEntry || x.iStale

/-- The sum of i_j x ins over a range of periods [lo, hi), in units of 2^-40 pu. -/
def sumTerms (l : List Term) (lo hi : Nat) : Int :=
  l.foldl (fun a t => if lo ≤ t.pn ∧ t.pn < hi then a + t.i * t.ins else a) 0

/-- V_PRED (R230), unsigned Q18.14: exact, truncated once, clamped. `q` is in units of 2^-40 pu. -/
def vPredOf (base kq cEst : Nat) (q : Int) : Nat :=
  if cEst = 0 then base * 2 ^ 14
  else
    let num : Int := (base * 2 ^ 14 * (cEst * 2 ^ 40) : Nat) + (kq : Int) * q * 2 ^ 14
    min (num / (cEst * 2 ^ 40 : Nat)).toNat (2 ^ 32 - 1)

/-! ### Reports (R231, R232, R234 to R236) -/

/-- The sample epoch of a report (R231): the last epoch at or before period `pn` whose PN[15:0] is SAMPLE_PN. -/
def sampleEpoch (pn sample : Nat) : Nat := pn - (pn + 65536 - sample) % 65536

/-- Whether C_EST lies outside C_NOM x (1 ± TOL/100) (R236). -/
def cDrifts (cEst cNom tol : Nat) : Bool :=
  decide (tol * cNom < ((cEst : Int) - (cNom : Int)).natAbs * 100)

/-- An interval that closes at (s1, v1) (R235): the new C_EST, or none where it is rejected. -/
def cMeasure (kq cEst rej tc : Nat) (q dv : Int) : Option Nat :=
  if cEst = 0 ∨ dv = 0 ∨ (0 < dv) ≠ (0 < q) then none
  else
    let m := Int.fdiv ((kq : Int) * q) (dv * 2 ^ 40)
    let d := m - (cEst : Int)
    if (cEst : Int) < (d.natAbs : Int) * 2 ^ rej then none
    else some ((cEst : Int) + d / (2 ^ tc : Nat)).toNat

/-- The interval at a rebase to (s1, v1) (R234, R235). `ended`: the rebase ends a calibration (R249). -/
def State.closeInterval (s : State) (r a c s1 v1 : Nat) (ended : Bool) : State :=
  let x := s.rankOf c
  let opened (s : State) : State := s.modRank c fun x => { x with ivl := some (s1, v1), badPns := x.badPns.filter fun n => decide (s1 ≤ n) }
  match x.ivl with
  | none => opened s
  | some (s0, v0) =>
    let inside := x.terms.filter fun t => decide (s0 ≤ t.pn) && decide (t.pn < s1)
    if ended || x.badPns.any (fun n => decide (s0 ≤ n) && decide (n < s1)) || inside.any (fun t => t.bad) || decide (inside.length < s1 - s0) || decide (64 < s1 - s0) then opened s
    else
      let kq := s.rd (af r a Arm.ARM_RANK_K_Q)
      let q := sumTerms x.terms s0 s1
      if x.cEst != 0 && decide ((kq : Int) * (q.natAbs : Int) < (s.rd (rf r Rgn.RANK_CEST_DV) : Int) * (x.cEst : Int) * 2 ^ 40) then s
      else match cMeasure kq x.cEst (s.rd (rf r Rgn.RANK_CEST_REJ)) (s.rd (rf r Rgn.RANK_CEST_TC)) q ((v1 : Int) - v0) with
        | none => opened (s.inc (rf r Rgn.RANK_STAT_CEST_REJ))
        | some n => opened (s.modRank c fun x => { x with cEst := n })

/-- CAP_DRIFT is raised once for a cell when its C_EST leaves the band (R236). -/
def State.capDrift (s : State) (r a c : Nat) : State :=
  let x := s.rankOf c
  let out := cDrifts x.cEst (s.rd (af r a Arm.ARM_RANK_C_NOM)) (s.rd (rf r Rgn.RANK_CEST_TOL))
  let s := if out && !x.drift then s.raise (.region r) { src := Src.CAP_DRIFT, cell := some c } else s
  s.modRank c fun x => { x with drift := out }

/-- What a report that has been accepted tells the rank keeper beside its sample (R234, R237, R238). A report of sample epoch `e` lies both in the interval that ends
there and in the one that opens there (log entry 100, DEDUCED). -/
def RankCell.note (x : RankCell) (e : Nat) (g : Glint) (rebases : Bool) : RankCell :=
  let h := g.status.holding || g.status.fallback
  { x with
    reported := true
    temp := g.temp0.toInt
    sevHigh := decide (4 ≤ g.fault.severity.toNat)
    holding := h
    bypassed := if rebases then g.status.bypassed else x.bypassed || g.status.bypassed
    badPns := if h || g.status.bypassed then x.badPns ++ [e - 1, e] else x.badPns }

/-- A report accepted on an assigned tree (R231, R232, R234, R249). -/
def State.rankReport (s : State) (r a c : Nat) (g : Glint) : State :=
  let s1 := sampleEpoch s.pn g.samplePn.toNat
  let x := s.rankOf c
  let newer := match x.base with | some (_, b) => decide (b < s1) | none => true
  if !g.valid then (s.inc (rf r Rgn.RANK_STAT_INVALID)).modRank c fun x => x.note s1 g false
  else if !newer then (s.inc (rf r Rgn.RANK_STAT_OLD)).modRank c fun x => x.note s1 g false
  else
    let ended := match x.calAt with | some k => decide (k + 2 < s1) | none => false
    let s := s.modRank c fun x => x.note s1 g true
    let s := s.closeInterval r a c s1 g.cv.toNat ended
    let s := if ended then
        (s.inc (rf r Rgn.RANK_STAT_CAL_DONE)).modRank c fun x => { x with calAt := none, calDone := some s.pn } else s
    let s := s.modRank c fun x =>
      let lo := match x.ivl with | some (s0, _) => min s0 s1 | none => s1
      { x with base := some (g.cv.toNat, s1), terms := x.terms.filter fun t => decide (lo ≤ t.pn) }
    s.capDrift r a c

/-! ### The freeze (R237 to R239, R248, R249) -/

/-- The term of the period now ending for one cell (R229, R230). A cell without a base keeps those of the last 64 periods, from which its first base takes those that
run from the base's epoch (R231; log entry 100, DEDUCED). -/
def State.addTerm (s : State) (r a c : Nat) : State :=
  let fb := s.on (af r a Arm.ARM_CFG_FB)
  let x := s.armSt r a
  let rec0 := s.termRec c
  let t : Term := ⟨s.pn, x.current, insTerm rec0 fb x.current,
    recBad rec0 || ((s.cellSlot c).blockedIn && !s.ownerMapped c) || x.currentBad⟩
  let lo := s.pn - 64
  s.modRank c fun y => { y with terms := y.terms.filter (fun u => u.pn != s.pn && (y.base.isSome || decide (lo ≤ u.pn))) ++ [t] }

/-- After a block Beacon on the tree, the term of the period is that of OFF (R229) and the interval is ineligible (R234); not in M8, where the terms are the owner's
(R243). -/
def State.termBlocked (s : State) (r t : Nat) : State :=
  if s.modeNo == 8 then s
  else (s.treeCells r t).foldl (fun s c =>
    let s := s.modSlot r t (idxSlot c) fun x => { x with blockedIn := true }
    s.modRank c fun y =>
      { y with terms := y.terms.map fun u =>
          if u.pn = s.pn then { u with ins := insOff (match s.armOf r t with | some a => s.on (af r a Arm.ARM_CFG_FB) | none => false) u.i, bad := true }
          else u }) s

/-- Where a calibration stands at the freeze of period k (R248, R249): the mark lapses when the record of its epoch carries CAL = 0, and a
calibration not ended by its timeout freeze stops counting and raises CAL_TIMEOUT. -/
def State.calAtFreeze (s : State) (r a c : Nat) : State :=
  match (s.rankOf c).calAt with
  | none => s
  | some k =>
    let x := s.cellSlot c
    let runs := (s.modeNo == 7 || s.modeNo == 9) && !s.armBlocked r a
    let lapses := (s.pn == k + 1 && (!x.recNext.cal || !runs)) || (s.pn == k + 2 && !x.recNow.cal)
    if lapses then s.modRank c fun y => { y with calAt := none }
    else if k + 1 + s.rd (af r a Arm.ARM_CAL_TMO) ≤ s.pn then
      (s.modRank c fun y => { y with calAt := none }).raise (.region r) { src := Src.CAL_TIMEOUT, cell := some c }
    else s

/-- Whether a cell-scoped source acting at severity 3 excludes a cell from selection (R347). -/
def State.excluded (s : State) (r c : Nat) : Bool :=
  let test (k : Coll) : Bool := (s.coll k).conds.any fun o => o.cell == some c && s.effSev k o == 3
  test (.tree r (idxTree c)) || test (.region r)

/-- One cell of the snapshot (R228, R230, R237). -/
def State.snapCell (s : State) (r a c : Nat) : SnapCell :=
  let x := s.rankOf c
  let sl := s.cellSlot c
  let fb := s.on (af r a Arm.ARM_CFG_FB)
  let i := (s.armSt r a).current
  let base := match x.base with | some b => b | none => (0, s.pn)
  let q := sumTerms x.terms base.2 (s.pn + 1) + i * insTerm sl.recNext fb i
  let age := min (s.pn - base.2) 16383
  let noBase := x.base.isNone || x.cEst == 0
  let stale := x.base.isSome && decide (s.rd (rf r Rgn.RANK_CFG_PRED_MAX) < s.pn - base.2)
  let isol := x.bypassed || sl.isolated
  let excl := x.sevHigh || s.excluded r c || x.holding
  { cell := c
    vPred := vPredOf base.1 (s.rd (af r a Arm.ARM_RANK_K_Q)) x.cEst q
    vBase := base.1
    age := age
    cEst := x.cEst
    avail := !isol && !excl && !noBase && !stale
    inc := sl.recNext.cmd == 1 || sl.recNext.cmd == 4
    calib := x.calAt.isSome
    isol := isol
    excl := excl
    stale := stale
    noBase := noBase
    calDue := false
    temp := x.temp }

/-- Entry to STALE raises CELL_STALE once (R237, R250); an unavailable cell makes its open interval ineligible (R234). -/
def State.snapNote (s : State) (r : Nat) (y : SnapCell) : State :=
  let x := s.rankOf y.cell
  let s := if y.stale && !x.stale then s.raise (.region r) { src := Src.CELL_STALE, cell := some y.cell } else s
  s.modRank y.cell fun x =>
    { x with stale := y.stale, avail := y.avail, vPred := y.vPred, badPns := if y.avail then x.badPns else x.badPns ++ [s.pn] }

/-- Whether a cell may be marked CAL_DUE (R248). -/
def State.calEligible (s : State) (r a : Nat) (y : SnapCell) : Bool :=
  let x := s.rankOf y.cell
  y.avail && !y.calib && decide (y.age ≤ 1)
    && (match x.calDone with
        | some n => decide (n + 2 ^ s.rd (af r a Arm.ARM_CAL_INTERVAL) ≤ s.pn)
        | none => true)

/-- The positions the cursor visits, once round the arm, from the cell after the last one marked. -/
def roundFrom (n cur : Nat) : List Nat := (List.range n).map fun i => (cur + i) % n

/-- The cells marked CAL_DUE at a freeze of an arm (R248): their positions in arm order. -/
def State.calMarks (s : State) (r a : Nat) (l : List SnapCell) : List Nat :=
  if (s.modeNo == 7 || s.modeNo == 9) && !s.armBlocked r a then
    let room := s.rd (af r a Arm.ARM_CAL_PER_ARM) - (l.filter fun y => y.calib).length
    ((roundFrom l.length (s.armSt r a).calCursor).filter fun i =>
      match l[i]? with | some y => s.calEligible r a y | none => false).take room
  else []

/-- The freeze of one arm (R239). -/
def State.freezeArm (s : State) (r a : Nat) : State × SnapArm :=
  let cells := s.armCells r a
  let s := cells.foldl (fun s c => (s.addTerm r a c).calAtFreeze r a c) s
  let ys := cells.map fun c => s.snapCell r a c
  let s := ys.foldl (fun s y => s.snapNote r y) s
  let marks := s.calMarks r a ys
  let s := marks.foldl (fun s i => match ys[i]? with
    | some y => (s.modRank y.cell fun x => { x with calAt := some s.pn }).modArm r a fun x => { x with calCursor := (i + 1) % ys.length }
    | none => s) s
  let ys := ys.zipIdx.map fun p => if marks.contains p.2 then { p.1 with calDue := true, calib := true } else p.1
  let nMin := s.rd (af r a Arm.ARM_SEL_N_MIN)
  let nAv := (ys.filter fun y => y.avail).length
  let s := s.setCond (.region r) { src := Src.AVAIL_LOW, arm := some (r, a) } (nMin != 0 && decide (nAv < nMin))
  (s, { arm := a, cells := ys, i := (s.armSt r a).current, dirPrev := (s.armSt r a).dirPrev })

/-- SNAPSHOT_FREEZE (R239): every arm of the region that holds a tree. -/
def State.freeze (s : State) (r : Nat) : State :=
  let arms := (s.rgnArms r).map Prod.snd
  let res := arms.foldl (fun acc a => let p := acc.1.freezeArm r a; (p.1, acc.2 ++ [p.2])) ((s, []) : State × List SnapArm)
  res.1.modRgn r fun x => { x with snap := some ⟨s.pn, res.2⟩ }

/-- The C_EST of a cell at entry to M5 from M2 or M6 (R236): C_NOM of its arm, with no base. -/
def State.rankAtM5 (s : State) : State :=
  s.unitArms.foldl (fun s p =>
    (s.armCells p.1 p.2).foldl (fun s c =>
      { s with rank := fset c { cEst := s.rd (af p.1 p.2 Arm.ARM_RANK_C_NOM) } s.rank }) s) s

/-- The SRAM bank of an address: 16 banks of 512 KiB (log entry 8, DEDUCED). -/
def bankOf (a : Nat) : Nat := a / 0x80000
/-- Whether a bank keeps its contents through M3 (R402). -/
def State.retained (s : State) (r b : Nat) : Bool := (s.rd (rf r Rgn.PWR_RET_BANKS)).testBit b

/-- At M3 taking effect (R396, step 8; R402) the contents of a bank outside PWR_RET.BANKS become undefined: free values. -/
def State.loseBank (s : State) (r b : Nat) : State :=
  if s.retained r b then s
  else { s.rgnWrite r (b * 0x80000) ((List.range 0x80000).map fun i => Config.lostByte (s.free + i)) with free := s.free + 0x80000 }
/-- The same for every bank of the unit. -/
def State.loseBanks (s : State) : State :=
  (List.range s.dies).foldl (fun s r => (List.range 16).foldl (fun s b => s.loseBank r b) s) s

/-- The place of a cell's record in region MRAM (R476): SERIAL, C_EST and the PN of the last write. -/
def cellRecAt (c : Nat) : Nat := mramBase + 0x1000 + 16 * (c % 4096)
/-- C_EST of a cell from its record in region MRAM, where that holds `ser` (R236, R452). -/
def State.mramCEst (s : State) (c ser : Nat) : Option Nat :=
  if leVal (s.rgnRead (idxRegion c) (cellRecAt c) 8) == ser then some (leVal (s.rgnRead (idxRegion c) (cellRecAt c + 8) 4)) else none
/-- At a resume a record that was not retained is restored when its slot answers its ranging (R236). -/
def State.restoreLost (s : State) (c ser : Nat) : State :=
  if !(s.rankOf c).lost then s
  else s.modRank c fun x => { x with lost := false, cEst := (s.mramCEst c ser).getD x.cEst }
/-- CAP_DRIFT is judged for every cell of the unit's arms once a Clause or a restore has set C_EST or its band (R236, R250). -/
def State.driftAll (s : State) : State :=
  if s.modeNo < 5 then s
  else s.unitArms.foldl (fun s p =>
    (s.armCells p.1 p.2).foldl (fun s c => if fhas s.rank c then s.capDrift p.1 p.2 c else s) s) s
/-- Cells that a Clause lets join an arm from no arm (R232): they lose any base they held, and keep C_EST. `old`: the state before. -/
def State.joinArms (s old : State) : State :=
  let had := old.unitArms.flatMap fun p => old.armCells p.1 p.2
  s.unitArms.foldl (fun s p => (s.armCells p.1 p.2).foldl (fun s c =>
    if had.contains c || !fhas s.rank c then s else s.modRank c fun x => { x with base := none, ivl := none }) s) s

/-- The records at a resume (R236, R402): those whose observer table lies outside the retained banks start from C_NOM with no base. -/
def State.rankAtResume (s : State) : State :=
  s.unitArms.foldl (fun s p =>
    if s.retained p.1 (bankOf (s.rd (rf p.1 Rgn.RANK_BASE_BASE) + p.2 * 0x10000)) then s
    else (s.armCells p.1 p.2).foldl (fun s c =>
      { s with rank := fset c { cEst := s.rd (af p.1 p.2 Arm.ARM_RANK_C_NOM), lost := true } s.rank }) s) s
/-- At every entry to M5 no calibration has been done since it (R248). -/
def State.calAtM5 (s : State) : State :=
  { s with rank := s.rank.map fun (p : Nat × RankCell) => (p.1, { p.2 with calDone := none }) }

/-- Once a period the rank keeper writes the C_EST of 64 cells of a region to MRAM, round robin over the region's cells (R236). -/
def State.writeCEst (s : State) (r : Nat) : State :=
  let cells := (s.rank.map Prod.fst).filter fun c => idxRegion c == r
  let n := cells.length
  if n = 0 then s
  else
    let cur := (s.rgn r).mramCur % n
    let s := ((roundFrom n cur).take 64).foldl (fun s i =>
      let c := cells.getD i 0
      (s.rgnWrite r (cellRecAt c + 8) (leBytes 4 (s.rankOf c).cEst ++ leBytes 4 s.pn)).queueMram) s
    s.modRgn r fun x => { x with mramCur := (cur + min 64 n) % n }

end Sys2Proof.Machine
end

