-- ==== Sys2Proof/Machine/DispOps.lean ====
section
/-! DEFINITION. The shared operations of the dispatcher and the engines (R134 to R154). -/

namespace Sys2Proof.Machine

/-- The dispatcher of region `r`. -/
def State.dsp (s : State) (r : Nat) : DispSt := fget {} s.disp r
/-- The state with a dispatcher changed. -/
def State.modDisp (s : State) (r : Nat) (f : DispSt → DispSt) : State :=
  { s with disp := fmod {} r f s.disp }
/-- Engine `e` of region `r`. -/
def State.eng (s : State) (r e : Nat) : Eng := fget {} (s.dsp r).engs e
/-- The state with an engine changed. -/
def State.modEng (s : State) (r e : Nat) (f : Eng → Eng) : State :=
  s.modDisp r fun d => { d with engs := fmod {} e f d.engs }
/-- Whether no engine of the unit runs a Verb (R137, R396). -/
def State.enginesIdle (s : State) : Bool :=
  s.disp.all fun p => p.2.engs.all fun q => q.2.run.isNone
/-- The list key of a level on a cluster (R139): one level-0 list per pair. -/
def listKey (cluster level : Nat) : Nat := if level = 0 then cluster / 2 else 8 + cluster * 8 + level
/-- An activation leaves the dispatcher (R150): its ready Verbs leave the lists, nothing of it is released, and what a
running Verb of it still returns is discarded. -/
def State.dropAct (s : State) (r phrase act : Nat) : State :=
  s.modDisp r fun d =>
    { d with
      acts := d.acts.filter fun a => !(a.phrase == phrase && a.num == act)
      lists := d.lists.map fun p => (p.1, p.2.filter fun v => !(v.phrase == phrase && v.act == act)) }
/-- The Verbs of an activation that still run: their completions are those of an activation ended under R150 (R153). -/
def State.markCancelled (s : State) (r phrase act : Nat) : State :=
  let mark (e : Eng) : Eng := match e.run with
    | some g => if g.home == r && g.phrase == phrase && g.act == act then { e with cancelled := true } else e
    | none => e
  { s with disp := s.disp.map fun p => (p.1, { p.2 with engs := p.2.engs.map fun q => (q.1, mark q.2) }) }
/-- A source acting at severity 3 on region `r` stops stealing into and out of it across regions (R33, R347). -/
def State.noLending (s : State) (r : Nat) : Bool :=
  (s.coll (.region r)).conds.any fun o => !o.cellScoped && (s.effSev (.region r) o == 3 || s.effSev (.region r) o == 4)
/-- DISP_SLACK.MIN takes a slack, if smaller (R152). -/
def State.slackIs (s : State) (r : Nat) (x : Int) : State :=
  let c := clampI (-32768) 32767 x
  let old := sext 16 (s.rd (rf r Rgn.DISP_SLACK_MIN))
  let t := s.ns / 2
  let s := s.modDisp r fun d =>
    if d.slackTick == t then { d with slackNow := min d.slackNow c } else { d with slackTick := t, slackOld := old, slackNow := c }
  if c < old then s.wr (rf r Rgn.DISP_SLACK_MIN) (unsext 16 c) else s
/-- A read of DISP_SLACK.MIN (R152, R485): the field is reset to +32,767; a release in the tick of the read is not in the value and enters the field after it. -/
def State.takeSlack (s : State) (r : Nat) : State × Nat :=
  let f := rf r Rgn.DISP_SLACK_MIN
  let d := s.dsp r
  if d.slackTick == s.ns / 2 then
    ((s.modDisp r fun d => { d with slackOld := 32767 }).wr f (unsext 16 d.slackNow), unsext 16 d.slackOld)
  else (s.wr f 0x7FFF, s.rd f)
/-- Every activation of the unit is ended and granting stops (R396, step 2). -/
def State.quiesce (s : State) : State :=
  { s with disp := s.disp.map fun p => (p.1, { p.2 with acts := [], lists := [], held := [], quiesced := true }) }
/-- Granting resumes (R397). -/
def State.unquiesce (s : State) : State :=
  { s with disp := s.disp.map fun p => (p.1, { p.2 with quiesced := false }) }

end Sys2Proof.Machine
end

