-- ==== Sys2Proof/Machine/ModeOps.lean ====
section
/-! DEFINITION. Mode control (R386 to R399): the transition table, judging and granting a request, entering
a mode, and the power entry sequence. -/

namespace Sys2Proof.Machine

/-! ### Results (R386) -/

def Res.DONE := 0
def Res.NOT_PERMITTED := 1
def Res.CONDITION := 2
def Res.REFUSED := 3
def Res.ABANDONED := 4
def Res.REPLACED := 5
def Res.PREEMPTED := 6
def Res.AVS_FAIL := 7

/-! ### The transition table (R387) -/

/-- Whether and when a transition may take effect: the rows of R387, by the mode in force, the target and the requester. -/
def transition (cur target : Nat) (who : Requester) : Option Effect :=
  match who, cur, target with
  | .warden, 0, 1 => some .atOnce
  | .warden, 1, 2 => some .atOnce
  | .host, 1, 2 => some .atOnce
  | .host, 2, 1 => some .atOnce
  | .host, 2, 3 => some .entry
  | .host, 2, 5 => some .atOnce
  | .warden, 3, 5 => some .exit
  | .host, 3, 5 => some .exit
  | .warden, 4, 5 => some .exit
  | .host, 4, 5 => some .exit
  | .warden, 5, 6 => some .epoch
  | .host, 5, 6 => some .epoch
  | .host, 5, 3 => some .entry
  | .host, 5, 4 => some .entry
  | .host, 6, 3 => some .entry
  | .host, 6, 4 => some .entry
  | .warden, 6, 3 => some .entry
  | .warden, 6, 4 => some .entry
  | .host, 6, 5 => some .epoch
  | .host, 6, 7 => some .epoch
  | .host, 6, 9 => some .epoch
  | .host, 6, 8 => some .epoch
  | .host, 6, 11 => some .epoch
  | .host, 10, 11 => some .epoch
  | .warden, 7, 9 => some .epoch
  | .host, 7, 9 => some .epoch
  | .warden, 9, 7 => some .epoch
  | .host, 9, 7 => some .epoch
  | .warden, 7, 8 => some .epoch
  | .warden, 9, 8 => some .epoch
  | .warden, 8, 7 => some .launch
  | .warden, 8, 9 => some .launch
  | .host, 7, 6 => some .epoch
  | .host, 8, 6 => some .epoch
  | .host, 9, 6 => some .epoch
  | .host, 11, 6 => some .epoch
  | .fault, 6, 10 => some .atOnce
  | .fault, 7, 10 => some .atOnce
  | .fault, 8, 10 => some .atOnce
  | .fault, 9, 10 => some .atOnce
  | .warden, 10, 6 => some .epoch
  | .host, 10, 6 => some .epoch
  | _, _, _ => none

/-- Whether every non-vacant slot of a tree is complete: ENUM_TREE.PHASE shows SWITCHED (R453), and after a resume every slot has answered (R401). -/
def State.treeReady (s : State) (r t : Nat) : Bool :=
  s.rd (ef r t Rgn.ENUM_TREE0_PHASE) == 3
    && (s.mode.resumeFrom.isNone || (s.tree r t).slots.all fun p => p.2.serial == 0 || p.2.ranged)

/-- Whether every enabled tree meets the ENUM to ACTIVE condition of R130. -/
def State.treesReady (s : State) : Bool := s.allTrees.all fun p => s.treeReady p.1 p.2

/-- Whether a Basath source is active at an effective severity at or above CFLT_REC.THR (R356, R387). -/
def State.faulty (s : State) : Bool :=
  let thr := s.rd Reg.CFLT_REC_THR
  let test (c : Coll) : Bool := (s.coll c).conds.any fun o => decide (thr ≤ s.effSev c o)
  test .chip || (List.range s.dies).any (fun r => test (.region r)) || s.allTrees.any fun p => test (.tree p.1 p.2)

/-- The condition of a transition (R387, R441, R464). -/
def State.transCond (s : State) (req : ModeReq) : Bool :=
  let cur := s.modeNo
  let endorsed := req.target != 5 || s.on Reg.SEC_STAT_ENDORSED
  endorsed &&
  (if cur == 3 && s.mode.exitDead then false
   else if cur == 1 && req.target == 2 then s.imageSet
   else if cur == 2 && (req.target == 3 || req.target == 5) then s.on Reg.SELFTEST_STAT_PASS
   else if cur == 5 && req.target == 6 then s.treesReady
   else if (cur == 5 || cur == 6) && (req.target == 3 || req.target == 4) then
     s.clause.staged.isNone && s.clause.armed.isNone && s.mirror.handover.isNone && s.mirror.handoverIn.isNone
   else if cur == 6 && req.target == 8 then s.on Reg.MIRR_STAT_LINK_UP
   else if cur == 10 && req.target == 6 && req.who == .host then !s.faulty
   else true)

/-! ### Entering a mode -/

/-- Every Basath collector of the unit. -/
def State.colls' (s : State) : List Coll :=
  .chip :: ((List.range s.dies).map fun r => Coll.region r) ++
    (List.range s.dies).flatMap fun r => (List.range 32).map fun t => Coll.tree r t

/-- When capture returns to normal, the sticky bits of the sources active at that tick are set (R344). -/
def State.captureNormal (s : State) : State :=
  s.colls'.foldl (fun s c =>
    (s.coll c).conds.foldl (fun s o => if 1 ≤ s.effSev c o then s.captureSticky c o.src else s) s) s

/-- MODE and PSTATE take a mode's values (R392). -/
def State.writeMode (s : State) (m : Nat) : State :=
  (s.wr Reg.MODE_STAT_MODE m).wr Reg.MODE_STAT_PSTATE (if m = 3 then 3 else if m = 4 then 2 else 0)

/-- Every tree of the unit, enabled or not. -/
def State.everyTree (s : State) : List (Nat × Nat) :=
  (List.range s.dies).flatMap fun r => (List.range 32).map fun t => (r, t)

/-- At M6 entered from M5 every arm is blocked, with level 3 and source 0xFF (R458); this is a block decision (R354). -/
def State.blockAllAtM6 (s : State) : State :=
  ((List.range s.dies).flatMap fun r => (List.range 4).map fun a => (r, a)).foldl (fun s p =>
    let s := (((s.wr (af p.1 p.2 Arm.ARM_BLK_BLOCKED) 1).wr (af p.1 p.2 Arm.ARM_BLK_LEVEL) 3).wr
      (af p.1 p.2 Arm.ARM_BLK_SOURCE) 0xFF).wr (af p.1 p.2 Arm.ARM_BLK_MANY) 0
    { s with arms := fmod {} (armKey p.1 p.2) (fun x => { x with blockAt := some s.ns }) s.arms }) s

/-- The trees at M5 (R443, R401): a full enumeration from M2 or M6; from M3 or M4 the slot plans and keys are kept and every slot is to be ranged once. -/
def State.treesAtM5 (s : State) (resume : Bool) : State :=
  s.allTrees.foldl (fun s p =>
    if s.treeState p.1 p.2 == 6 then s
    else if resume then
      (s.wr (tf p.1 p.2 Tree.TREE_CFG_STATE) 2).modTree p.1 p.2 fun x =>
        { x with stopped := false, laneOn := true, rangeCursor := 0, enumPn := s.pn, slots := x.slots.map fun q => (q.1, { q.2 with ranged := false }) }
    else s.startEnum p.1 p.2) s

/-- The trees at M6 from M5: ENUM to ACTIVE (R130). -/
def State.treesAtM6 (s : State) : State :=
  s.allTrees.foldl (fun s p =>
    if s.treeState p.1 p.2 == 2 && s.rd (ef p.1 p.2 Rgn.ENUM_TREE0_PHASE) == 3 then
      (s.wr (tf p.1 p.2 Tree.TREE_CFG_STATE) 3).modTree p.1 p.2 fun x => x.holdTmo s.pn
    else s) s

/-- The trees in M0 to M4: every tree but DISABLED and FAILED goes to IDLE (R130). -/
def State.treesIdle (s : State) : State :=
  s.everyTree.foldl (fun s p =>
    if s.treeState p.1 p.2 == 0 || s.treeState p.1 p.2 == 6 then s else s.setTree p.1 p.2 1) s

/-- Recoveries within REC_WINDOW before now (R358). -/
def State.recoveries (s : State) : Nat :=
  (s.mode.recTimes.filter fun n => decide (s.ns ≤ n + s.rd Reg.CFLT_REC_REC_WINDOW * 1000000000)).length

/-- Entry to M10 (R356, R358): the recovery latch, or the quiet timer. -/
def State.enterHold (s : State) : State :=
  if s.rd Reg.CFLT_REC_REC_LIMIT ≤ s.recoveries then
    let s := (s.wr Reg.CFLT_REC_STAT_LATCHED 1).raise .chip { src := Src.REC_LATCHED }
    { s with mode := { s.mode with quietFrom := none, quietDone := false } }
  else if s.on Reg.CFLT_REC_STAT_LATCHED then { s with mode := { s.mode with quietFrom := none, quietDone := false } }
  else { s with mode := { s.mode with quietFrom := some s.ns, quietDone := false } }

/-- A recovery (R357): counted, its time kept among the last 15, the recovery window opened, and its record posted. -/
def State.recovered (s : State) : State :=
  let s := s.inc Reg.CFLT_REC_STAT_REC_COUNT
  let s := { s with mode := { s.mode with
    recTimes := (s.mode.recTimes ++ [s.ns]).drop ((s.mode.recTimes.length + 1) - 15)
    recUntil := some (s.ns + s.rd Reg.CFLT_REC_QUIET_TIME * 1000000) } }
  s.postEvent 0x09 [(8, 8, s.ns), (16, 2, s.rd Reg.CFLT_REC_STAT_REC_COUNT)] true

/-- The partner's PN now: a LEASE frame names the epoch at its TX_TS plus BEACON_LEAD in the partner's time, and each grid point since then is one more (R67, R71). -/
def State.peerPn (s : State) (l : Lease) : Nat :=
  let at_ : Int := (l.txTs.toNat : Int) + (s.rd Reg.BEACON_LEAD_LEAD : Int) - sext 32 (s.rd Reg.TIME_PEER_OFS_OFS) / 4
  let d := (s.ns : Int) - at_
  if d < 0 then l.pn.toNat - 1 else l.pn.toNat + d.toNat / max 1 s.period
/-- The partner's PN at M5 entry from M2 or M6 while the partner is in M7 to M11 (R71, rule 2). -/
def State.pnAtM5 (s : State) : State :=
  match s.mirror.lease with
  | some l =>
    if s.on Reg.MIRR_STAT_LINK_UP && s.on Reg.TIME_STAT_PEER_VALID && decide (7 ≤ l.mode.toNat) && decide (l.mode.toNat ≤ 11) then
      s.wr Reg.TIME_PN_PN (s.peerPn l)
    else s
  | none => s

/-- A mode takes effect: the registers, the trees, Clauses, recovery and capture follow (R130, R344, R354, R356 to R358, R401, R428, R443, R458). -/
def State.enterMode (s : State) (m : Nat) (recovery : Bool) : State :=
  let old := s.modeNo
  let wasFirst := s.firstLatch
  let s := if old ≥ 5 && m ≤ 4 then s.abandonClause Rsn.MODE_LEFT none else s
  let s := if m == 8 then s.abandonClause Rsn.AUTH_LOST none else s
  let s := s.writeMode m
  let s := { s with mode := { s.mode with idleFrom := s.ns, gated := false, gaugeWait := s.mode.gaugeWait || s.mode.gated
                                          quietFrom := if old == 10 then none else s.mode.quietFrom
                                          quietDone := if old == 10 then false else s.mode.quietDone } }
  let s := if m ≤ 4 then s.treesIdle else s
  let s := if m == 3 then s.loseBanks else s
  let s := if m == 2 then (s.wr Reg.SELFTEST_STAT_PASS 0).wr Reg.SELFTEST_STAT_FAIL 0 else s
  let s := if m == 5 then
      let resume := old == 3 || old == 4
      let s := if resume then s else s.pnAtM5
      let s := s.treesAtM5 resume
      let s := (if !resume then s.rankAtM5 else if old == 3 then s.rankAtResume else s).calAtM5
      let s := { s with arms := s.arms.map fun (p : Nat × ArmSt) => (p.1, { p.2 with noEntry := true }) }
      let s := { s with mode := { s.mode with resumeFrom := if resume then some s.ns else none } }
      -- R67 does not say which grid point is the first epoch after M5 is entered from M1 to M4: the first at or after the entry (log entry 96, DESIGN CHOICE).
      let s := if old ≤ 4 then { s with time := { s.time with epochAt := s.ns - ceilDiv s.period 2 } } else s
      let s := if resume then s else
        { s with
          trees := s.trees.map fun (p : Nat × TreeSt) => (p.1, { p.2 with
            slots := p.2.slots.map fun (q : Nat × SlotSt) => (q.1, { q.2 with isolated := false }) }),
          mirror := { s.mirror with auth := false, maxLast := 0 } }
      s
    else s
  let s := if m == 6 && old == 5 then (s.treesAtM6).blockAllAtM6 else s
  let s := if m == 6 then { s with mode := { s.mode with resumeFrom := none } } else s
  let s := if m == 8 then { s with mirror := { s.mirror with
      auth := false, claimFrom := none, yieldPend := false, yieldLeft := if s.mirror.yieldPend then 3 else s.mirror.yieldLeft } } else s
  let s := if (m == 7 || m == 9) && old == 8 then { s with mirror := { s.mirror with auth := true } } else s
  let s := if m == 8 then s
    else ({ s with mirror := { s.mirror with missRun := 0 } }).setCond .chip { src := Src.MIRROR_DOWN } (!s.on Reg.MIRR_STAT_LINK_UP)
  let s := if m == 10 then s.enterHold else s
  let s := if recovery && m == 6 && old == 10 then s.recovered else s
  if wasFirst && !s.firstLatch then s.captureNormal else s

/-! ### Requests (R386, R388, R399) -/

/-- A request ends with a result. -/
def State.endReq (s : State) (req : ModeReq) (result before : Nat) : State :=
  s.modeResult req.who result before s.modeNo

/-- AVSBus: a target for a rail (0 core, 1 SerDes). One request per rail is in flight; a later target replaces a waiting one (R403). -/
def State.avsRequest (s : State) (rail mv : Nat) : State :=
  if fhas s.mode.avsReq rail then { s with mode := { s.mode with avsWait := fset rail mv s.mode.avsWait } }
  else { s with mode := { s.mode with
    avsReq := fset rail mv s.mode.avsReq, avsTry := fset rail 0 s.mode.avsTry, avsSent := fset rail s.ns s.mode.avsSent } }

/-- The SerDes rail is held at AVS_TGT.SERDES in ACTIVE, IDLE and GLIMMER (R404): a new target is requested, unless it is the one last asked for. -/
def State.holdSer (s : State) : State :=
  let v := s.rd Reg.AVS_TGT_SERDES
  let asked := fget (fget (s.rd Reg.AVS_STAT_SER) s.mode.avsReq 1) s.mode.avsWait 1
  let dormant := (s.modeNo == 3 && decide (s.mode.exitStep ≤ 1)) || (match s.mode.entry, s.mode.running with
    | some e, some x => e.step == 7 && x.req.target == 3
    | _, _ => false)
  if s.modeNo == 0 || dormant || asked == v then s else s.avsRequest 1 v

/-- The last core target acknowledged in ACTIVE, to which an exit returns (R400). -/
def State.activeCore (s : State) : Nat := s.mode.coreAtGauge

/-- A power entry is rolled back (R397, R398): the stopped blocks restart, granting resumes, and the request ends. -/
def State.rollback (s : State) (result : Nat) : State :=
  let s := s.unquiesce
  let s := s.wr Reg.MODE_STAT_PWR_BUSY 0
  let s := { s with
    trees := s.trees.map fun (p : Nat × TreeSt) => (p.1, { p.2 with stopped := false }),
    mirror := { s.mirror with stopped := false } }
  match s.mode.running with
  | some run =>
    let s := { s with mode := { s.mode with running := none, entry := none, idleFrom := s.ns
                                            retryAt := if run.req.who == Requester.warden && result == Res.REFUSED then
                                              some (s.ns + s.rd Reg.PWR_CFG_RETRY_INT * 1000000) else s.mode.retryAt } }
    s.endReq run.req result s.modeNo
  | none => s

/-- Whether an abort point finds a wake event or a request to a higher-power state (R397, R399). -/
def State.abortDue (s : State) : Bool :=
  s.mode.wakePend % 128 &&& (s.rd Reg.WAKE_CFG_EN * 2 + 1) != 0
    || (match s.mode.pending, s.mode.running with
        | some p, some r => p.who == .fault || decide (5 ≤ p.target) || (r.req.target == 3 && p.target == 4)
        | _, _ => false)

/-- The last steps of an entry, from AP2 on (R396): the flush, AP3, and the AVSBus requests. -/
def State.entryTail (s : State) (e : Entry) : State :=
  if s.abortDue then s.rollback Res.ABANDONED
  else match s.mode.running with
    | none => s
    | some run =>
      let s := { s with mode := { s.mode with entry := some { e with step := 7 } } }
      let s := s.avsRequest 0 (if run.req.target == 3 then s.rd Reg.AVS_TGT_DORM else s.rd Reg.AVS_TGT_GLIM)
      if run.req.target == 3 then s.avsRequest 1 (s.rd Reg.AVS_TGT_SER_DORM) else s

/-- A block refuses (R398). -/
def State.refuseEntry (s : State) (kind r t : Nat) : State :=
  (s.wr Reg.PWR_STAT_REFUSED_BY (kind + 8 * r + 64 * t)).rollback Res.REFUSED

/-- Whether a management transaction of a tree is open (R128). -/
def TreeSt.txnOpen (x : TreeSt) : Bool := x.txns.any fun tx => decide (0 < tx.next)

/-- The first tree, in region then tree order, on which a transaction is open. -/
def State.refusingTree (s : State) : Option (Nat × Nat) :=
  s.allTrees.find? fun p => (s.tree p.1 p.2).txnOpen

/-- Steps 3e, 3f and on, once the tree ports have stopped (R396, R398). -/
def State.entryAfterTrees (s : State) (e : Entry) : State :=
  if s.host.readOpen then s.refuseEntry 2 0 0
  else if s.mode.mramQueue != 0 then s.refuseEntry 3 0 0
  else s.entryTail { e with step := 4, stopped := e.stopped ++ [3, 4, 5, 6] }

/-- An entry goes on from step 2 once every running Verb has completed (R396): lanes and station ports stop; from M2 no
Beacon is launched, so the tree ports stop at once; otherwise the Mirror link and the trees wait for the next launch. -/
def State.entryStep (s : State) : State :=
  match s.mode.entry with
  | some e =>
    if e.step == 2 && s.enginesIdle then
      let e := { e with step := 3, stopped := [1, 2] }
      let s := { s with mode := { s.mode with entry := some e } }
      if s.epochs then s else s.entryAfterTrees e
    else s
  | none => s

/-- A granted entry starts: AP1, then the dispatcher is quiesced (R396). -/
def State.entryStart (s : State) (req : ModeReq) : State :=
  let s := s.wr Reg.MODE_STAT_PWR_BUSY 1
  let s := { s with mode := { s.mode with running := some ⟨req, .entry, s.ns, none⟩, entry := some { step := 2 }, wakePend := 0 } }
  if s.abortDue then s.rollback Res.ABANDONED else s.quiesce.entryStep

/-- A granted exit starts (R400): core, and from M3 then SerDes, to their targets. -/
def State.exitStart (s : State) (req : ModeReq) : State :=
  let s := { s with mode := { s.mode with running := some ⟨req, .exit, s.ns, none⟩, exitStep := 1 } }
  s.avsRequest 0 s.activeCore

/-- A request is granted (R387). -/
def State.grant (s : State) (req : ModeReq) (eff : Effect) : State :=
  let s := { s with mode := { s.mode with idleFrom := s.ns, lastGrant := some (s.ns / 2, req.who) } }
  match eff with
  | .atOnce => let old := s.modeNo; (s.enterMode req.target req.recovery).endReq req Res.DONE old
  | .epoch => { s with mode := { s.mode with running := some ⟨req, .epoch, s.ns, none⟩ } }
  | .launch => { s with mode := { s.mode with running := some ⟨req, .launch, s.ns, none⟩ } }
  | .entry => s.entryStart req
  | .exit => s.exitStart req

/-- Whether a grant of M7, M8 or M9 must wait: for the gauge after IDLE (R392), or for a core request in flight (R403). -/
def State.mustWait (s : State) (req : ModeReq) : Bool :=
  s.modeNo == 6 && (req.target == 7 || req.target == 8 || req.target == 9)
    && (s.mode.gaugeWait || s.rd Reg.MODE_STAT_PSTATE == 1 || fhas s.mode.avsReq 0)

/-- A request judged when none runs (R387, R388). -/
def State.judge (s : State) (req : ModeReq) : State :=
  match transition s.modeNo req.target req.who with
  | none => s.endReq req Res.NOT_PERMITTED s.modeNo
  | some eff =>
    if !s.transCond req then s.endReq req Res.CONDITION s.modeNo
    else if s.mustWait req then
      let s := if s.rd Reg.MODE_STAT_PSTATE == 1 then
          (s.wr Reg.MODE_STAT_PSTATE 0) else s
      { s with mode := { s.mode with pending := some req, gaugeWait := s.mode.gaugeWait || s.mode.gated, gated := false } }
    else s.grant req eff

/-- The order of requesters in one tick (R31, R388). -/
def Requester.rank : Requester → Nat
  | .fault => 0
  | .warden => 1
  | .host => 2
/-- Whether the last grant was made in this tick, for a requester of another rank (R388). -/
def State.grantedNow (s : State) (who : Requester) (before : Bool) : Bool :=
  match s.mode.lastGrant with
  | some (t, w) => t == s.ns / 2 && (if before then decide (w.rank < who.rank) else decide (who.rank < w.rank))
  | none => false
/-- A request of the tick in which a later-ranked one was granted that has not taken effect is judged before it (R388): granted, it ends the other as PREEMPTED;
refused, it ends with its own result. A transition that took effect at its grant stands (log entry 95, DESIGN CHOICE). -/
def State.overtake (s : State) (run : Running) (req : ModeReq) : State :=
  match transition s.modeNo req.target req.who with
  | none => s.endReq req Res.NOT_PERMITTED s.modeNo
  | some eff =>
    if !s.transCond req then s.endReq req Res.CONDITION s.modeNo
    else
      let s := if run.effect == .entry then s.rollback Res.PREEMPTED
        else ({ s with mode := { s.mode with running := none, exitStep := 0 } }).endReq run.req Res.PREEMPTED s.modeNo
      s.grant req eff
/-- A request goes into the pending slot (R399, rules 1 and 2). -/
def State.pend (s : State) (req : ModeReq) : State :=
  match s.mode.pending with
  | some p =>
    if p.who == .fault then s.endReq req Res.PREEMPTED s.modeNo
    else
      let s := s.endReq p (if req.who == .fault then Res.PREEMPTED else Res.REPLACED) s.modeNo
      { s with mode := { s.mode with pending := some req } }
  | none => { s with mode := { s.mode with pending := some req } }

/-- A mode request (R386, R388, R399): judged at once when no request runs; a fault reaction ends a running transition that
waits for an epoch or a launch; any other request waits in the pending slot. Of the requests of one tick, one ranked after a granted one ends as PREEMPTED, and
one ranked before it overtakes it (R388). -/
def State.request (s : State) (req : ModeReq) : State :=
  if s.grantedNow req.who true then s.endReq req Res.PREEMPTED s.modeNo
  else match s.mode.running with
  | none =>
    match s.mode.pending with
    | some _ => if req.who == .fault then s.judge req else s.pend req
    | none => s.judge req
  | some run =>
    if req.who == .fault && (run.effect == .epoch || run.effect == .launch) then
      let s := { s with mode := { s.mode with running := none } }
      (s.endReq run.req Res.PREEMPTED s.modeNo).judge req
    else if s.grantedNow req.who false then s.overtake run req
    else s.pend req

/-- The pending request is judged from the mode in force, once nothing runs (R399, rule 4). -/
def State.judgePending (s : State) : State :=
  match s.mode.running, s.mode.pending with
  | none, some req =>
    if s.mustWait req then s
    else ({ s with mode := { s.mode with pending := none } }).judge req
  | _, _ => s

/-- The running request takes effect (R387): the mode is entered, the request ends as DONE, and a pending one is judged. -/
def State.takeEffect (s : State) (run : Running) : State :=
  let old := s.modeNo
  let s := { s with mode := { s.mode with running := none, entry := none, exitStep := 0 } }
  let s := s.enterMode run.req.target run.req.recovery
  let s := s.wr Reg.MODE_STAT_PWR_BUSY 0
  (s.endReq run.req Res.DONE old).judgePending

/-- Step 8 of an entry (R396): the islands are gated and the target mode takes effect once every rail has answered. -/
def State.entryGate (s : State) : State :=
  match s.mode.running, s.mode.entry with
  | some run, some e =>
    if e.step == 7 && !fhas s.mode.avsReq 0 && !fhas s.mode.avsReq 1 then s.unquiesce.takeEffect run else s
  | _, _ => s

/-- A wake event noted (R395). -/
def State.noteWake (s : State) (ev : Nat) : State :=
  { s with mode := { s.mode with wakePend := setBit s.mode.wakePend ev } }

end Sys2Proof.Machine
end

