-- ==== Sys2Proof/Machine/MirrorOps.lean ====
section
/-! DEFINITION. The shared operations of authority between the two units (R363, R373, R377 to R381). -/

namespace Sys2Proof.Machine

/-- The state with the Mirror part changed. -/
def State.modMirror (s : State) (f : MirrorSt → MirrorSt) : State := { s with mirror := f s.mirror }

/-- The event-ring record of a change of authority (R381, R422 type 0x04): 0 claim started, 1 claim refused, 2 yield, 3 new owner seen. -/
def State.authEvent (s : State) (change : Nat) (ownerB : Bool) (cell : Nat) : State :=
  s.postEvent 0x04 [(2, 1, change), (3, 1, b2n ownerB), (4, 4, s.rd Reg.MIRR_AUTH_EPOCH), (8, 8, s.ns), (16, 2, cell)] true

/-- The last accepted Glints of the unit. -/
def State.lastGlints (s : State) : List Glint :=
  s.allTrees.flatMap fun p => (s.tree p.1 p.2).slots.filterMap fun q => q.2.last
/-- ACCEPT_CNT (R377): the cells whose last accepted Glint shows this unit as owner. -/
def State.acceptCnt (s : State) : Nat := (s.lastGlints.filter fun g => g.status.owner == s.unitB).length
/-- HOLD_CNT (R377): the cells that hold and show the partner as owner. -/
def State.holdCnt (s : State) : Nat := (s.lastGlints.filter fun g => g.status.owner != s.unitB && g.status.holding).length

/-- The Mirror link is up (R373). -/
def State.linkUp (s : State) : Bool := s.on Reg.MIRR_STAT_LINK_UP

/-- The mode a claimant enters (R378): that of the partner's last LEASE frame, M7 or M9, or M7. -/
def State.claimMode (s : State) : Nat :=
  match s.mirror.lease with
  | some l => if l.mode = 9 then 9 else 7
  | none => 7

/-- Whether a claim is under way. -/
def State.claiming (s : State) : Bool :=
  match s.mode.running with | some x => x.effect == .launch | none => false

/-- CLAIM_START (R363, R378): a healthy unit in M8 takes the next epoch, writes it to MRAM and asks for the partner's mode. -/
def State.startClaim (s : State) : State :=
  if s.modeNo != 8 || !s.mirror.healthy || s.claiming then s
  else
    let s := s.wr Reg.MIRR_AUTH_EPOCH (max (s.rd Reg.MIRR_AUTH_EPOCH) s.mirror.peerEpoch.toNat + 1)
    let s := s.authEvent 0 s.unitB 0
    let s := s.modMirror fun m => { m with claimFrom := some s.pn }
    s.request { who := .warden, target := s.claimMode }

/-- A trigger of R378: it acts while MIRR_CFG.AUTO is 1. -/
def State.claimTrigger (s : State) : State := if s.on Reg.MIRR_CFG_AUTO then s.startClaim else s

/-- YIELD (R379): a unit in M7 or M9 sets YIELD in its next Beacon and enters M8 at that Beacon's epoch; an armed Clause is abandoned (R428). -/
def State.yieldNow (s : State) : State :=
  if (s.modeNo == 7 || s.modeNo == 9) && !s.mirror.yieldPend then
    let s := (s.authEvent 2 (!s.unitB) 0).abandonClause Rsn.AUTH_LOST none
    let s := s.modMirror fun m => { m with yieldPend := true }
    s.request { who := .warden, target := 8 }
  else s

/-- The Mirror link goes down (R373, R380, R470): K_M is dropped and MIRROR_DOWN becomes active. -/
def State.linkDown (s : State) : State :=
  let s := (s.wr Reg.MIRR_STAT_LINK_UP 0).wr Reg.TIME_STAT_PEER_VALID 0
  let s := s.modMirror fun m => { m with key := 0, keyed := false, offerSent := false, confirmSent := false }
  s.setCond .chip { src := Src.MIRROR_DOWN } true

/-- The Mirror key exchange starts (R470): with the lanes aligned, the units' numbers different, an endorsed image in force, an identity key (R472) and the link not up,
the unit sends its OFFER. -/
def State.startKx (s : State) : State :=
  if s.mirror.aligned && s.mirror.peerUnit == some (!s.unitB) && s.on Reg.SEC_STAT_ENDORSED && s.sec.idk && !s.sec.zeroised && !s.linkUp then
    s.modMirror fun m => { m with offerSent := true, confirmSent := false, retryAt := none }
  else s

/-- After a step that took the link down its sources follow, and a new key is exchanged (R380, R470). -/
def State.noteBroken (s : State) : State :=
  if s.mirror.broke then (s.modMirror fun m => { m with broke := false }).linkDown.startKx else s

/-- The LEASE frame of a Beacon launch (R377): `pn` names the epoch of that Beacon. A frame is held until its TX_TS exceeds the last one sent (R470). -/
def State.sendLease (s : State) (pn : Nat) : State :=
  if !s.linkUp || s.mirror.stopped then s
  else
    let ts := max s.ns (s.mirror.lastTx.toNat + 1)
    let h := match s.mirror.handover with | some (h, _) => h | none => 0
    let l : Lease :=
      { pn := BitVec.ofNat 64 pn
        authEpoch := BitVec.ofNat 32 (s.rd Reg.MIRR_AUTH_EPOCH)
        mode := BitVec.ofNat 4 s.modeNo
        healthy := s.mirror.healthy
        yield := !s.mirror.healthy || s.mirror.yieldPend || decide (0 < s.mirror.yieldLeft)
        txTs := BitVec.ofNat 64 ts
        h := BitVec.ofNat 64 h
        acceptCnt := BitVec.ofNat 32 s.acceptCnt
        holdCnt := BitVec.ofNat 32 s.holdCnt
        echoTs := match s.mirror.lease with | some p => p.txTs | none => 0 }
    s.modMirror fun m => { m with txLease := some l, lastTx := BitVec.ofNat 64 ts }

/-- A short frame sent over the Mirror link: kind 3 TRIP, 4 HANDOVER, 5 HANDOVER_ACK, 6 YIELD_REQ, with the PN it names. -/
def State.sendMirror (s : State) (kind pn : Nat) : State :=
  if s.linkUp then s.modMirror fun m => { m with txKinds := fset kind pn m.txKinds } else s

end Sys2Proof.Machine
end

