-- ==== Sys2Proof/Machine/RegOps.lean ====
section
/-! DEFINITION. What every register write of the host goes through (R21, R432, R437, R484), and the steps of the counter (R62 to R65). -/

namespace Sys2Proof.Machine

/-- Whether host register writes act: not while the host function is wedged (R432), and not in M0 after a failed boot (R437). -/
def State.takesWrites (s : State) : Bool :=
  !s.wedged && !(s.modeNo == 0 && decide (1 ≤ s.rd Reg.BOOT_STAT_ERR) && decide (s.rd Reg.BOOT_STAT_ERR ≤ 3))

/-- A write of a one-word register that acts: held words of other registers are discarded (R484). -/
def State.onWrite (s : State) (f : State → State) : State :=
  if s.takesWrites then f { s with held := [] } else s

/-- The value a write of the highest word applies to a register of `n` words at `base` whose value is `cur`: the held words, words
not held keeping their values, and the highest word (R21, R484). -/
def State.joined (s : State) (base n cur : Nat) (hi : W32) : Nat :=
  (List.range (n - 1)).foldl (fun v i => setBits v (32 * i) 32 (fget (bits cur (32 * i) 32) s.held (base + 4 * i)))
    (hi.toNat * 2 ^ (32 * (n - 1)))

/-- One edge of REFCLK (R56, R61, R63, R65): the written TIME_INCR takes effect, the counter advances by it, and outside M5 to M11 a step that is due applies. -/
def State.refclkEdge (s : State) : State :=
  let s := { s with time := { s.time with tick := s.time.tick + 1 } }
  if !s.time.refclk then s
  else
    let s := if s.running then
        { s with time := { s.time with ctr := s.time.ctr + BitVec.ofNat 96 s.incr, base := s.time.base + BitVec.ofNat 96 s.incr } } else s
    if s.epochs then s else s.stepDue.armedDue.noteBroken

end Sys2Proof.Machine
end

