-- ==== Sys2Proof/Machine/Beacon.lean ====
section
/-! DEFINITION. The downstream launches of the tree ports outside enumeration (R27, R36, R88, R100 to R105, R110, R120, R126, R127, R396). -/

namespace Sys2Proof.Machine

/-- The launch instant of the period Beacon of the coming epoch (R110). -/
def State.launchAt (s : State) : Nat := s.nextEpoch - s.rd Reg.BEACON_LEAD_LEAD

/-- Whether a tree sends period Beacons (R129): ACTIVE, RERANGE and LOST, and ENUM once it is switched (R453). -/
def State.sendsPeriod (s : State) (r t : Nat) : Bool :=
  let st := s.treeState r t
  !(s.tree r t).stopped && (st == 3 || st == 4 || st == 5 || (st == 2 && s.rd (ef r t Rgn.ENUM_TREE0_PHASE) == 3))

/-- A granted transition that waits for an epoch takes that of the first Beacon launched at least 100 ns after its grant (R387); a yield takes the
next one (R379). -/
def State.markEpochEffect (s : State) (k : Nat) : State :=
  match s.mode.running with
  | some x =>
    if x.effect == .epoch && x.pn.isNone && (decide (x.grantedAt + 100 ≤ s.ns) || s.mirror.yieldPend) then
      { s with mode := { s.mode with running := some { x with pn := some k } } }
    else s
  | none => s

/-- The mode the Beacon of epoch k carries (R387): that in force at its epoch. The Beacon of a yield still carries the owner's own mode (R379). -/
def State.carriedMode (s : State) (k : Nat) : Nat :=
  match s.mode.running with
  | some x => if x.effect == .epoch && x.pn == some k && !s.mirror.yieldPend then x.req.target else s.modeNo
  | none => s.modeNo

/-- STEP_COMMIT and STEP_REFUSED (R63, R64): the step the Beacon of epoch `e` carries, which was written before the 2 ns tick of the launch. -/
def State.commitStep (s : State) (mode e : Nat) : State × Option W64 :=
  match s.time.armed, s.time.committed with
  | some v, none =>
    if s.time.armedAt == s.time.ctr.toNat / 2 ^ 33 then (s, none)
    else if (mode == 7 || mode == 8 || mode == 9) && decide (s.rd Reg.TIME_CTL_STEP_MAX_RUN < v.toInt.natAbs) then
      (({ s with time := { s.time with armed := none } }.wr Reg.TIME_STAT_STEP_REFUSED 1).showArmed, none)
    else (({ s with time := { s.time with armed := none, committed := some (v, e) } }).showArmed, some v)
  | _, _ => (s, none)

/-- The record a slot is sent (R54, R102, R222, R347, R356, R453): OFF in M5, M6 and M10 and in a blocked arm, ISOLATE to an isolated cell. A negative record, which an
arm without ARM_CFG.FB is never sent, goes out as ZERO (log entry 88, DESIGN CHOICE). -/
def SlotSt.sendRec (x : SlotSt) (off fb : Bool) : CmdRec :=
  if off then ⟨0, false, 0, 0⟩
  else if x.isolated then ⟨7, false, 0, 0⟩
  else if !fb && (x.recNext.cmd == 4 || x.recNext.cmd == 5) then ⟨2, x.recNext.cal, 0, 0⟩
  else x.recNext

/-- Whether routine ranging runs on a tree (R117, R129, R347): wherever period Beacons go out but in LOST, and on every tree of a resume (R401). -/
def State.rangesNow (s : State) (r t : Nat) : Bool :=
  ((s.sendsPeriod r t && s.treeState r t != 5) || (s.treeState r t == 2 && s.mode.resumeFrom.isSome))
    && !((s.coll (.tree r t)).conds.any fun o => !o.cellScoped && (s.effSev (.tree r t) o == 3 || s.effSev (.tree r t) o == 4))

/-- The slots ranged in a period: one in slot order (R117), or in a re-range 8 that report in the coming period (R120). -/
def State.rangeSlots (s : State) (r t k : Nat) : List Nat :=
  let n := s.slotsN r t
  let cells := (roundFrom n (s.tree r t).rangeCursor).filter fun j =>
    s.mapSerial r t j != 0 && s.reports r t j k
      && !((s.tree r t).txns.any fun x => x.slot == j && x.origin == .ranging)
  cells.take (if s.treeState r t == 4 then 8 else 1)

/-- The ranging requests of a period are queued (R117, R120). -/
def State.queueRanging (s : State) (r t k : Nat) : State :=
  if !s.rangesNow r t then s
  else (s.rangeSlots r t k).foldl (fun s j =>
    s.modTree r t fun x => { (x.queue 6 j false [] .ranging) with rangeCursor := (j + 1) % s.slotsN r t }) s

/-- A segment leaves in a frame with byte 0 at `tm` (R116, R126): a ranging request notes t_b. -/
def State.sendSeg (s : State) (r t : Nat) (tx : Txn) (tm : Time) : State :=
  let s := s.modTree r t fun x => x.sent tx s.pn
  if tx.origin == .ranging then s.modSlot r t tx.slot fun y => { y with askedAt := some tm } else s

/-- The segment a transaction sends next. -/
def Txn.nextSeg (tx : Txn) : Option Seg := tx.segs[tx.next]?

/-- Where the abort of a period Beacon ends (R27): at the next 66-bit block boundary, plus the abort block of 2.56 ns. -/
def abortEnd (startQ nowQ : Nat) : Nat := startQ + ceilDiv ((ceilDiv ((nowQ - startQ) * 25) 256 + 1) * 256) 25

/-- A period Beacon on the lane is ended with an abort block, raising BEACON_ABORT (R27, R99, R340). -/
def State.abortBeacon (s : State) (r t : Nat) : State :=
  let x := s.tree r t
  let now := quarters s.time.ctr
  if x.beaconOn && decide (quarters x.lastTxAt ≤ now) && decide (now < x.laneFree) then
    (s.modTree r t fun y =>
      { y with
        laneFree := abortEnd (quarters x.lastTxAt) now
        beaconOn := false
        lastTx := y.lastTx.map fun f => { f with aborted := true } }).raise (.tree r t) { src := Src.BEACON_ABORT }
  else s

/-- A block Beacon leaves as soon as the lane allows (R27, R88, R100): a period Beacon on the lane is aborted, and one that still waits for the lane waits
for this block Beacon too, its time field following (R72). -/
def State.sendBlock (s : State) (r t : Nat) : State :=
  let s := s.abortBeacon r t
  let x := s.tree r t
  let now := quarters s.time.ctr
  let waiting := x.beaconOn && decide (now < quarters x.lastTxAt)
  let at_ := if waiting then quarters x.lastTxAt else max now x.laneFree
  let tm : Time := BitVec.ofNat 96 (at_ * 2 ^ 30)
  let dur := ceilDiv (10 * 256) 25
  let h := s.header r t 2 s.modeNo s.pn (x.seq + 1) tm
  let blk : DownFrame := ⟨h, [], none, false, downMac x.useKey h⟩
  let late : Time := BitVec.ofNat 96 ((at_ + dur) * 2 ^ 30)
  let moved (f : DownFrame) : DownFrame :=
    let h := { f.hdr with timeNs := BitVec.ofNat 64 (timeNs late), timeFrac := BitVec.ofNat 32 late.toNat }
    { f with hdr := h, mac := { f.mac with ivPn := (downMac f.mac.key h).ivPn } }
  s.modTree r t fun y =>
    { y with
      blockTx := some blk
      blockTxAt := tm
      lastTx := if waiting then y.lastTx.map moved else some blk
      lastTxAt := if waiting then late else tm
      txCount := y.txCount + 1
      laneFree := if waiting then y.laneFree + dur else at_ + dur
      beaconOn := waiting
      seq := x.seq + 1
      blockDue := false }

/-- One tree port launches its period Beacon for epoch k (R36, R101, R120, R127), after a block Beacon that is due in the same tick (R27). A cell that is sent
ISOLATE is isolated from then on (R237). -/
def State.launchPeriod (s : State) (r t k mode : Nat) (step : Option W64) : State :=
  if !s.sendsPeriod r t then s
  else
    let s := if (s.tree r t).blockDue && decide ((s.tree r t).seq < 255) then (s.sendBlock r t).termBlocked r t else s
    let s := s.queueRanging r t k
    let x := s.tree r t
    let tm := s.laneTime r t
    let n := s.slotsN r t
    let off := mode == 5 || mode == 6 || mode == 10 || s.treeBlocked r t || (s.armOf r t).isNone
    let fb := match s.armOf r t with | some a => s.on (af r a Arm.ARM_CFG_FB) | none => false
    let recs := (List.range n).map fun j => (x.slot j).sendRec off fb
    let rr := s.treeState r t == 4
    let apply := rr && x.rrLeft == 0
    let base := s.header r t 1 mode k 0 tm
    let cl := match s.clause.outcome with | some o => if o.left = 0 then none else some o | none => none
    let tx := x.pick fun tx => s.allowTxn r t tx
    let h : Hdr := { base with
      stepValid := step.isSome
      step := step.getD 0
      shadow := base.shadow || mode == 8
      yield := base.yield || s.mirror.yieldPend
      rrApply := apply
      clApply := match cl with | some o => o.apply | none => false
      clAbandon := match cl with | some o => !o.apply | none => false
      clauseId := match cl with | some o => BitVec.ofNat 12 o.id | none => 0 }
    let s := s.launch r t tm h recs (tx.bind fun y => y.nextSeg) (n + 26)
    let s := match tx with | some y => s.sendSeg r t y tm | none => s
    s.modTree r t fun x =>
      { x with
        slots := (List.range n).foldl (fun m j => fmod {} j (fun (y : SlotSt) =>
          let q := recs.getD j ⟨0, false, 0, 0⟩
          { y with recNext := q, isolated := y.isolated || (q.cmd == 7 && mode != 8) }) m) x.slots
        rrLeft := x.rrLeft - 1
        rrApply := apply
        firstBeacon := false
        firstPn := if x.firstBeacon then s.pn else x.firstPn }

/-- The launch of every tree port, in region then tree order. Within an entry to M3 or M4 (R396, R398) the ports agree in turn, each that agrees launching
its last Beacon with the target mode, until one refuses; the rest launch as before. -/
def State.launchAll (s : State) (k mode : Nat) (step : Option W64) : State :=
  match s.mode.entry, s.mode.running with
  | some e, some run =>
    if e.step == 3 then
      let ref := s.refusingTree
      let agree := s.allTrees.takeWhile fun p => some p != ref
      let rest := s.allTrees.dropWhile fun p => some p != ref
      let s := agree.foldl (fun s p => (s.launchPeriod p.1 p.2 k run.req.target step).modTree p.1 p.2 fun x => { x with stopped := true }) s
      let s := rest.foldl (fun s p => s.launchPeriod p.1 p.2 k mode step) s
      let s := s.modMirror fun m => { m with stopped := true }
      match ref with
      | some p => (s.refuseEntry 1 p.1 p.2).judgePending
      | none => (s.entryAfterTrees e).judgePending
    else s.allTrees.foldl (fun s p => s.launchPeriod p.1 p.2 k mode step) s
  | _, _ => s.allTrees.foldl (fun s p => s.launchPeriod p.1 p.2 k mode step) s

/-- A claim whose turn it is takes effect at the launch (R378, R382, R387). -/
def State.claimAtLaunch (s : State) (k : Nat) : State :=
  let s := if s.mirror.handoverIn == some k then s.startClaim else s
  match s.mode.running with
  | some run => if run.effect == .launch then s.takeEffect run else s
  | none => s

/-- The owner of an acknowledged handover yields in the Beacon for epoch h (R379, R382). -/
def State.handoverAtLaunch (s : State) (k : Nat) : State :=
  match s.mirror.handover with
  | some (h, acked) => if h == k && acked then s.yieldNow else s
  | none => s

/-- PERIOD_BEACON_LAUNCH (R36, R110, R377): at epoch minus BEACON_LEAD, once a period. -/
def State.periodLaunch (s : State) : State :=
  let k := s.pnNext
  if !s.epochs || !s.running || s.time.launched == some k then s
  else
    let s := s.runTo s.launchAt
    let s := ((s.claimAtLaunch k).handoverAtLaunch k).markEpochEffect k
    let mode := s.carriedMode k
    let p := s.commitStep mode s.nextEpoch
    let s := p.1
    let s := s.sendLease k
    let s := s.launchAll k mode p.2
    { s with
      time := { s.time with launched := some k, launchNs := s.ns }
      clause := { s.clause with outcome := s.clause.outcome.bind fun o => if o.left ≤ 1 then none else some { o with left := o.left - 1 } }
      mirror := { s.mirror with lossCnt := s.mirror.lossCnt + 1, yieldLeft := if s.modeNo == 8 then s.mirror.yieldLeft - 1 else s.mirror.yieldLeft } }
def execPeriodBeaconLaunch (s : State) : Host.Outcome State Fault Refusal := .next s.periodLaunch

/-- A block Beacon behind the period Beacon of epoch k + 1 voids its records (R257): OFF is in force from epoch k + 1 (R229). -/
def State.voidNext (s : State) (r t : Nat) : State :=
  if s.time.launched != some s.pnNext then s
  else s.modTree r t fun x => { x with slots := x.slots.map fun (p : Nat × SlotSt) => (p.1, { p.2 with recNext := ⟨0, false, 0, 0⟩ }) }

/-- BLOCK_BEACON_LAUNCH (R27, R88, R100, R127): a block Beacon that is due on a tree leaves as soon as the lane allows. -/
def State.blockLaunch (s : State) (r t : Nat) : State :=
  let x := s.tree r t
  let st := s.treeState r t
  if !x.blockDue || !s.epochs || x.stopped || !(st == 2 || st == 3 || st == 4 || st == 5) then s
  else if 255 ≤ x.seq then s.modTree r t fun y => { y with blockDue := false }
  else ((s.sendBlock r t).voidNext r t).termBlocked r t
def execBlockBeaconLaunch (r t : Nat) (s : State) : Host.Outcome State Fault Refusal := .next (s.blockLaunch r t)

/-- MANAGEMENT_FRAME_LAUNCH (R127): one more pending segment, in a frame that ends before the period Beacon's launch. -/
def State.mgmtLaunch (s : State) (r t : Nat) : State :=
  let x := s.tree r t
  if !s.epochs || !s.sendsPeriod r t || x.blockDue || decide (255 ≤ x.seq) || decide (s.rd (tf r t Tree.TREE_MGMT_EXTRA) ≤ x.extraUsed) then s
  else
    let tm := s.laneTime r t
    if 4 * s.launchAt < quarters tm + ceilDiv (26 * 256) 25 then s
    else match x.pick fun tx => s.allowTxn r t tx && !tx.front with
      | none => s
      | some tx =>
        let h := s.header r t 5 s.modeNo s.pn (x.seq + 1) tm
        let s := s.launch r t tm h [] tx.nextSeg 26
        let s := s.modTree r t fun y => { y with seq := x.seq + 1, extraUsed := x.extraUsed + 1 }
        s.sendSeg r t tx tm
def execManagementFrameLaunch (r t : Nat) (s : State) : Host.Outcome State Fault Refusal := .next (s.mgmtLaunch r t)

/-- The next Glimmer instant (R69, R469): a whole millisecond of the counter beyond the last Glimmer Beacon. -/
def State.glimmerAt (s : State) : Nat :=
  let n := ceilDiv s.ns 1000000 * 1000000
  if n ≤ s.time.lastGlimmer then (s.time.lastGlimmer / 1000000 + 1) * 1000000 else n

/-- GLIMMER_BEACON_LAUNCH (R69, R100, R400): in M4 every tree port in IDLE launches a Glimmer Beacon, carrying mode 5 once an exit has ungated the islands. A
millisecond that a step passes over has none (R65). -/
def State.glimmerLaunch (s : State) : State :=
  if s.modeNo != 4 || !s.running then s
  else
    let n := s.glimmerAt
    let s := s.runTo n
    if s.ns != n then s
    else
    let exiting := decide (3 ≤ s.mode.exitStep)
    let s := s.allTrees.foldl (fun s p =>
      if s.treeState p.1 p.2 == 1 then
        s.launch p.1 p.2 (s.stamp 0) (s.header p.1 p.2 4 (if exiting then 5 else 4) s.pn 0 (s.stamp 0)) [] none 10
      else s) s
    { s with
      time := { s.time with lastGlimmer := n }
      mode := { s.mode with exitStep := if exiting then 4 else s.mode.exitStep } }
def execGlimmerBeaconLaunch (s : State) : Host.Outcome State Fault Refusal := .next s.glimmerLaunch

end Sys2Proof.Machine
end

