-- ==== Sys2Proof/Machine/Frames.lean ====
section
/-! DEFINITION. The byte and bit layouts of what crosses the trees (R101, R102, R125, R126, R508 to R510), with their decoders. -/

namespace Sys2Proof
open Machine

/-! ### Command records (R102) -/

/-- The 64 bits of a command record (R102). -/
def CmdRec.word (x : CmdRec) : BitVec 64 :=
  x.cmd.zeroExtend 64 ||| ((BitVec.ofBool x.cal).zeroExtend 64 <<< 4) ||| (x.duty.zeroExtend 64 <<< 8) ||| (x.edge.zeroExtend 64 <<< 24)
/-- The command record of 64 bits; reserved bits are ignored (R102). -/
def CmdRec.ofWord (w : BitVec 64) : CmdRec :=
  ⟨w.extractLsb' 0 4, w.getLsbD 4, w.extractLsb' 8 16, w.extractLsb' 24 16⟩

/-! ### Header (R101) -/

/-- The flags byte of a header. -/
def Hdr.flags (h : Hdr) : Nat :=
  b2n h.stepValid + 2 * b2n h.shadow + 4 * b2n h.yield + 8 * b2n h.rerange + 16 * b2n h.rrApply
/-- HEALTH of a header. -/
def Hdr.health (h : Hdr) : Nat := b2n h.healthy + 2 * h.mode.toNat + 32 * b2n h.armBlocked
/-- CLAUSE of a header. -/
def Hdr.clause (h : Hdr) : Nat := h.clauseId.toNat + 16384 * b2n h.clAbandon + 32768 * b2n h.clApply

/-- The 48 bytes of a header (R101). -/
def Hdr.bytes (h : Hdr) : List Byte :=
  leBytes 1 (h.ver.toNat + 16 * h.kind.toNat) ++ leBytes 1 h.flags ++ leBytes 2 h.treeId.toNat
    ++ leBytes 8 h.pn.toNat ++ leBytes 8 h.timeNs.toNat ++ leBytes 4 h.timeFrac.toNat ++ leBytes 8 h.step.toNat
    ++ leBytes 4 h.authEpoch.toNat ++ leBytes 2 h.health ++ leBytes 2 h.clause ++ leBytes 3 h.armAvg.toNat
    ++ leBytes 1 h.seq.toNat ++ leBytes 2 h.rrLeft.toNat ++ leBytes 2 0

/-- The header of 48 bytes; reserved bits are ignored (R101). -/
def Hdr.ofBytes (l : List Byte) : Hdr :=
  let k := leAt l 0 1
  let f := leAt l 1 1
  let he := leAt l 36 2
  let c := leAt l 38 2
  { kind := BitVec.ofNat 4 (k / 16)
    ver := BitVec.ofNat 4 k
    stepValid := f.testBit 0
    shadow := f.testBit 1
    yield := f.testBit 2
    rerange := f.testBit 3
    rrApply := f.testBit 4
    treeId := BitVec.ofNat 16 (leAt l 2 2)
    pn := BitVec.ofNat 64 (leAt l 4 8)
    timeNs := BitVec.ofNat 64 (leAt l 12 8)
    timeFrac := BitVec.ofNat 32 (leAt l 20 4)
    step := BitVec.ofNat 64 (leAt l 24 8)
    authEpoch := BitVec.ofNat 32 (leAt l 32 4)
    healthy := he.testBit 0
    mode := BitVec.ofNat 4 (he / 2)
    armBlocked := he.testBit 5
    clApply := c.testBit 15
    clAbandon := c.testBit 14
    clauseId := BitVec.ofNat 12 c
    armAvg := BitVec.ofNat 18 (leAt l 40 3)
    seq := BitVec.ofNat 8 (leAt l 43 1)
    rrLeft := BitVec.ofNat 16 (leAt l 44 2) }

/-- The time from byte 0 of a frame to the end of its last byte, in quarter nanoseconds: 24 data blocks and one for each record of a period Beacon, 24 of
an enumeration Beacon and a management frame, 8 of any other (R97, R100). -/
def DownFrame.dataQ (f : DownFrame) : Nat :=
  (if f.hdr.kind == 1 then 24 + f.recs.length else if f.hdr.kind == 3 || f.hdr.kind == 5 then 24 else 8) * 256 / 25

/-! ### Cell parameter sets (R510) -/

/-- The 12 bytes of an entry of a parameter set (R510). -/
def SetEntry.bytes (e : SetEntry) : List Byte :=
  leBytes 1 (b2n e.die) ++ leBytes 1 e.pos.toNat ++ leBytes 2 e.addr.toNat ++ leBytes 4 e.mask.toNat ++ leBytes 4 e.value.toNat
/-- The entry of 12 bytes; none where TGT is reserved. -/
def SetEntry.ofBytes (l : List Byte) : Option SetEntry :=
  if leAt l 0 1 ≤ 1 then
    some ⟨leAt l 0 1 == 1, BitVec.ofNat 8 (leAt l 1 1), BitVec.ofNat 16 (leAt l 2 2), BitVec.ofNat 32 (leAt l 4 4), BitVec.ofNat 32 (leAt l 8 4)⟩
  else none

/-- The payload of a parameter set: Clause identifier, PN[31:0] of its epoch, entry count, entries (R510). -/
def setPayload (id epoch : Nat) (es : List SetEntry) : List Byte :=
  leBytes 2 id ++ leBytes 4 epoch ++ leBytes 2 es.length ++ es.flatMap SetEntry.bytes
/-- The CRC of a set: the CRC-32 over the header and every entry (R510). -/
def setCrc (id epoch : Nat) (es : List SetEntry) : Nat := crc32 (setPayload id epoch es)
/-- The entries of a payload, by the count of its header. -/
def setEntries : Nat → List Byte → Option (List SetEntry)
  | 0, _ => some []
  | n + 1, l => match SetEntry.ofBytes (l.take 12), setEntries n (l.drop 12) with
    | some e, some t => some (e :: t)
    | _, _ => none

/-! ### Register-access operations (R508) -/

/-- One operation of a register access: a masked write or a read. -/
structure RegOp where
  write : Bool
  addr : Nat
  mask : W32
  value : W32
  deriving DecidableEq, Repr

/-- The 12 bytes of an operation. -/
def RegOp.bytes (x : RegOp) : List Byte :=
  leBytes 1 (b2n x.write) ++ leBytes 1 0 ++ leBytes 2 x.addr ++ leBytes 4 x.mask.toNat ++ leBytes 4 x.value.toNat
/-- The operation of 12 bytes; none where OP is reserved. -/
def RegOp.ofBytes (l : List Byte) : Option RegOp :=
  if leAt l 0 1 ≤ 1 then
    some ⟨leAt l 0 1 == 1, leAt l 2 2, BitVec.ofNat 32 (leAt l 4 4), BitVec.ofNat 32 (leAt l 8 4)⟩
  else none

/-- The STATUS field of a report (R107). -/
def GStatus.word (g : GStatus) : Nat :=
  g.state.toNat + 16 * b2n g.owner + 32 * b2n g.holding + 64 * b2n g.fallback + 128 * b2n g.bypassed + 256 * b2n g.reportLate
    + 512 * b2n g.timeFrozen + 1024 * b2n g.calActive + 2048 * g.holdPeriods.toNat
/-- The FAULT field of a report (R107). -/
def GFault.word (f : GFault) : Nat :=
  f.source.toNat + 64 * f.severity.toNat + 512 * b2n f.class0 + 1024 * b2n f.trip + 2048 * b2n f.fresh + 4096 * f.count.toNat

end Sys2Proof
end

