-- ==== Sys2Proof/Machine/CellOps.lean ====
section
/-! DEFINITION. The shared operations of a cell: its registers and memory, its clock, its outputs and its log
(R72 to R76, R121, R280, R289, R304, R308, R474, R478, R509). -/

namespace Sys2Proof.Machine

/-! ### Places -/

/-- Cell `c`. -/
def State.cell (s : State) (c : Nat) : CellSt := fget {} s.cells c
/-- The state with a cell changed. -/
def State.modCell (s : State) (c : Nat) (f : CellSt → CellSt) : State := { s with cells := fmod {} c f s.cells }
/-- A field of port `p` of a cell: 0 port A, 1 port B (R505). -/
def pf (p : Nat) (f : Fld) : Fld := f.at (0x100 + 0x40 * p)
/-- The value of a cell's field. -/
def CellSt.rd (x : CellSt) (f : Fld) : Nat := x.regs.rd f
/-- Whether a one-bit field of a cell is 1. -/
def CellSt.on (x : CellSt) (f : Fld) : Bool := x.rd f == 1
def State.crd (s : State) (c : Nat) (f : Fld) : Nat := (s.cell c).rd f
/-- The 2 ns tick of a cell's timed domain, which R20 takes for its clock. -/
def State.ctick (s : State) (c : Nat) : Nat := s.time.tick * 2 ^ 64 + (s.cell c).time.clock / 8
/-- The state with a cell's field at `v`, as hardware writes it. -/
def State.cwr (s : State) (c : Nat) (f : Fld) (v : Nat) : State :=
  s.modCell c fun x => { x with regs := x.regs.wr f v, hwSet := markSet x.hwSet f (s.ctick c) (f.setMask (x.rd f) v) }
/-- The bits `m` of a cell's W1C field have been set by hardware in this tick (R20). -/
def State.cmark (s : State) (c : Nat) (f : Fld) (m : Nat) : State :=
  s.modCell c fun x => { x with hwSet := markSet x.hwSet f (s.ctick c) m }
/-- The state with a cell's counter one higher, stopping at its maximum (R506). -/
def State.cinc (s : State) (c : Nat) (f : Fld) : State := s.cwr c f (satInc f.width (s.crd c f))
/-- A port of a cell. -/
def CellSt.port (x : CellSt) (p : Nat) : PortSt := fget {} x.ports p
def State.port (s : State) (c p : Nat) : PortSt := (s.cell c).port p
/-- The state with a port of a cell changed. -/
def State.modPort (s : State) (c p : Nat) (f : PortSt → PortSt) : State :=
  s.modCell c fun x => { x with ports := fmod {} p f x.ports }
/-- The key a port's frames are tagged under: the session key once it is in use, before that the enumeration key (R444). -/
def PortSt.useKey (y : PortSt) : Key := if y.keyed then y.key else 0
/-- The link of position `p` of a cell (0 P1 to 3 P4), and its gate matrix. -/
def CellSt.link (x : CellSt) (p : Nat) : LinkSt := fget {} x.links p
def CellSt.mat (x : CellSt) (p : Nat) : MatrixSt := fget {} x.mats p
def State.modLink (s : State) (c p : Nat) (f : LinkSt → LinkSt) : State := s.modCell c fun x => { x with links := fmod {} p f x.links }
def State.modMat (s : State) (c p : Nat) (f : MatrixSt → MatrixSt) : State := s.modCell c fun x => { x with mats := fmod {} p f x.mats }
def State.modSw (s : State) (c : Nat) (f : CellSw → CellSw) : State := s.modCell c fun x => { x with sw := f x.sw }
def State.modProt (s : State) (c : Nat) (f : CellProt → CellProt) : State := s.modCell c fun x => { x with prot := f x.prot }
def State.modTime (s : State) (c : Nat) (f : CellTime → CellTime) : State := s.modCell c fun x => { x with time := f x.time }
def State.modAuth (s : State) (c : Nat) (f : CellAuth → CellAuth) : State := s.modCell c fun x => { x with auth := f x.auth }
def State.modFlt (s : State) (c : Nat) (f : CellFlt → CellFlt) : State := s.modCell c fun x => { x with flt := f x.flt }
def State.modCv (s : State) (c : Nat) (f : CvSt → CvSt) : State := s.modCell c fun x => { x with cv := f x.cv }
def State.modAux (s : State) (c : Nat) (f : AuxSt → AuxSt) : State := s.modCell c fun x => { x with aux := f x.aux }
def State.modGlim (s : State) (c : Nat) (f : GlimSt → GlimSt) : State := s.modCell c fun x => { x with glim := f x.glim }

/-! ### Cell states (R389, R513) -/

/-- The cell state: 0 Reset, 1 Enumerate, 2 Blocked, 3 Run, 4 Ride-through, 5 Glimmer, 6 Maintenance. -/
def CellSt.st (x : CellSt) : Nat := x.rd Els.GEN_STAT_STATE
/-- The owner: 0 A, 1 B, 2 none. -/
def CellSt.owner (x : CellSt) : Nat := x.rd Els.AUTH_STAT_OWNER
/-- Whether a debug halt is in force (R275). -/
def CellSt.halted (x : CellSt) : Bool := x.on Els.DBG_STAT_HALTED
/-- Whether the cell's timed domain runs: reset has exited, no halt, and the supply loss has not reached its last step (R275, R308). -/
def CellSt.runs (x : CellSt) : Bool := x.up && !x.halted && decide (x.prot.loss < 3)
/-- Whether reports go out: not in the off-hold, not with the transmitters off (R308, R370). -/
def CellSt.reports (x : CellSt) : Bool := x.runs && decide (x.prot.loss < 2) && !x.txOff

/-! ### The clock -/

/-- The state with the cell's clock run on to an instant, if it lies ahead and the timed domain runs. -/
def State.cellTo (s : State) (c t : Nat) : State :=
  if (s.cell c).runs && decide ((s.cell c).time.clock < t) then s.modTime c fun y => { y with clock := t } else s
/-- A clock after `q` quarter nanoseconds of its oscillator, at the loop's frequency correction in 2^-32; what is less than a quarter is kept (R75). -/
def CellTime.run (y : CellTime) (q : Nat) : CellTime :=
  let n : Int := y.frac + (q : Int) * y.freq
  { y with clock := ((y.clock : Int) + q + n / 2 ^ 32).toNat, frac := n % 2 ^ 32 }
/-- The state with the cell's clock run on by `q` quarter nanoseconds of its oscillator, if the timed domain runs. -/
def State.cellBy (s : State) (c q : Nat) : State := if (s.cell c).runs then s.modTime c fun y => y.run q else s
/-- Cell time in whole nanoseconds. -/
def CellSt.ns (x : CellSt) : Nat := x.time.clock / 4
/-- The epoch a cell comes to next, on the grid of R66 in its own time (log entry 32, DEDUCED). -/
def State.cellNext (s : State) (c : Nat) : Nat :=
  4 * gridFrom (ceilDiv (s.cell c).time.epochAt 4 + ceilDiv s.period 2) s.period (s.rd Reg.EPOCH_PHASE_PHASE)
/-- The last grid point at or before an instant. -/
def State.gridBefore (s : State) (t : Nat) : Nat :=
  let n := t / 4
  if s.period = 0 then t else 4 * (n - (n + s.period * 65536 - s.rd Reg.EPOCH_PHASE_PHASE) % s.period)

/-! ### Cell memory -/

/-- The address of position `p`'s die table, and of the entry of die `d` (R289). -/
def dieTab (p : Nat) : Nat := 0x10000 + 0x800 * p
def dieEnt (p d : Nat) : Nat := dieTab p + 32 + 8 * d
/-- A little-endian value of cell memory, and the state with one written. -/
def State.cval (s : State) (c a n : Nat) : Nat := leVal (s.cellRead c a n)
def State.cput (s : State) (c a n v : Nat) : State := s.cellWrite c a (leBytes n v)
/-- The map of cell MRAM in cell memory (R475, R477). -/
def cMram : Nat := 0x100000
/-- The matrix record of a position in the calibration block (log entry 33, DEDUCED). -/
def matRec (p : Nat) : Nat := cMram + 0x1100 + 0x20 * p
/-- The stress record of a die (R303, R477). -/
def stressRec (p d : Nat) : Nat := cMram + 0x2000 + 64 * (128 * p + d)
/-- A signed byte. -/
def s8 (v : Nat) : Int := sext 8 v
/-- FLAGS of a die: PRESENT, ISOLATED, ISO_PENDING, ISO_REASON, AT_LIM, UNCONFIRMED (R289). -/
def State.dieFlags (s : State) (c p d : Nat) : Nat := s.cval c (dieEnt p d + 3) 1
def State.setFlags (s : State) (c p d v : Nat) : State := s.cput c (dieEnt p d + 3) 1 v
/-- Whether a position is declared (R290). -/
def State.declared (s : State) (c p : Nat) : Bool := (s.cval c (dieTab p) 1).testBit 0
/-- The dies a position declares (R290). -/
def State.diesOf (s : State) (c p : Nat) : List Nat :=
  if s.declared c p then (List.range (min 128 (s.cval c (dieTab p + 1) 1))).filter fun d => (s.dieFlags c p d).testBit 0 else []
/-- Whether a die is isolated. -/
def State.dieIso (s : State) (c p d : Nat) : Bool := (s.dieFlags c p d).testBit 1
/-- The dies isolated at a position. -/
def State.isoCount (s : State) (c p : Nat) : Nat := ((s.diesOf c p).filter fun d => s.dieIso c p d).length

/-! ### The cell log (R478) -/

/-- The CV field: code, VALID and TAG of CV_RES (R107, R314). -/
def CellSt.cvField (x : CellSt) : Nat :=
  x.rd Els.CV_RES_CODE + 2 ^ 18 * x.rd Els.CV_RES_VALID + 2 ^ 19 * x.rd Els.CV_RES_TAG

/-- A cell-log record: type, source, severity with CLASS0, and the value of bytes 20 to 23 (R478). At most 4 a period; LOST counts the rest. -/
def State.cellLog (s : State) (c typ src sev : Nat) (class0 : Bool) (v : Nat) : State :=
  let x := s.cell c
  let n := if x.flt.logPn == x.time.pn + 1 then x.flt.logN else 0
  if 4 ≤ n then s.modFlt c fun f => { f with logLost := min 255 (f.logLost + 1) }
  else
    let head := x.rd Els.MRAM_LOG_HEAD % 8192
    let body := leBytes 8 x.ns ++ leBytes 8 x.time.pn ++ leBytes 1 typ ++ leBytes 1 src
      ++ leBytes 1 (sev % 8 + 8 * b2n class0 + 16 * x.st) ++ leBytes 1 x.flt.logLost ++ leBytes 4 v ++ leBytes 3 x.cvField ++ leBytes 1 0
    let s := s.cellWrite c (cMram + 0x20000 + 32 * head) (body ++ leBytes 4 (crc32 body))
    (s.cwr c Els.MRAM_LOG_HEAD ((head + 1) % 8192)).modFlt c fun f => { f with logPn := x.time.pn + 1, logN := n + 1, logLost := 0 }

/-! ### Gate commands and GMLn_EN (R26, R252, R280) -/

/-- The level of a position's gate-command output. -/
def CellSt.gate (x : CellSt) (p : Nat) : Bool := fget false x.sw.gates p
/-- Whether GMLn_EN of a position is high. -/
def CellSt.enHigh (x : CellSt) (p : Nat) : Bool := fhas x.prot.enOut p
/-- What the position's gate matrix does at a gate-command edge: it conducts from a rising edge once GMLn_EN has been high for 10 µs (R288, R305). -/
def MatrixSt.follow (m : MatrixSt) (on : Bool) (now : Nat) : MatrixSt :=
  if on then { m with on := m.enabled && decide (m.enAt + 40000 ≤ now) }
  else { m with on := false, desatOff := [] }

/-- A turn-on edge counts for every die of the position that is not isolated (R303). -/
def State.countOns (s : State) (c p : Nat) : State :=
  (s.diesOf c p).foldl (fun s d =>
    if s.dieIso c p d then s
    else s.modLink c p fun l => { l with stress := fmod {} d (fun (z : Stress) => { z with ons := z.ons + 1 }) l.stress }) s

/-- A gate-command output takes a level; an EXTEST instruction holds it off (R471). The current of a new turn-on is unknown until its EDGE frame (R297). -/
def State.setGate (s : State) (c p : Nat) (level : Bool) : State :=
  let x := s.cell c
  let on := level && !x.sec.extest
  if x.gate p == on then s
  else
    let now := x.time.clock
    let s := s.modSw c fun y =>
      { y with
        gates := fset p on y.gates
        edgeAt := fset p now y.edgeAt
        riseAt := if on then fset p now y.riseAt else y.riseAt }
    let s := s.modMat c p fun m => m.follow on now
    if on then (s.modLink c p fun l => { l with iOn := 0 }).countOns c p else s

/-- CELL_OK (R522) and the arbiter's highest rank: whether a rank-1 demand is in force (R26). -/
def CellSt.rank1 (x : CellSt) : Bool :=
  !x.prot.demands.isEmpty || x.prot.ovOff || x.prot.auxOff || x.prot.byp
def CellSt.cellOk (x : CellSt) : Bool := x.up && (x.st == 3 || x.st == 4) && !x.rank1

/-- Every position goes off at once, and nothing planned stays (R254, R268). -/
def State.allOff (s : State) (c : Nat) : State :=
  let s := (List.range 4).foldl (fun s p => s.setGate c p false) s
  s.modSw c fun y =>
    { y with
      isoAt := none
      pairs := y.pairs.map fun (p : Nat × PairSt) => (p.1, { p.2 with st := 0, last := (s.cell c).time.clock, plan := [], wait := none }) }

/-- GMLn_EN of a position rises or falls; EN_HIGH shows it. The matrix takes a rise at once; a fall reaches it as GML_ENABLE_LOW. -/
def State.setEn (s : State) (c p : Nat) (high : Bool) : State :=
  let now := (s.cell c).time.clock
  let s := s.modProt c fun y => { y with enOut := if high then fset p now y.enOut else fdel p y.enOut }
  let s := s.cput c (dieTab p) 1 (setBits (s.cval c (dieTab p) 1) 1 1 (b2n high))
  if high then s.modMat c p fun m => { m with enabled := true, enAt := now } else s
/-- Every GMLn_EN goes low. -/
def State.allEnLow (s : State) (c : Nat) : State := (List.range 4).foldl (fun s p => s.setEn c p false) s

/-! ### The bypass (R255, R307) -/

/-- BYPASSED shows a closed bypass switch (R255). -/
def State.showBypassed (s : State) (c : Nat) : State :=
  if (s.cell c).prot.swCmd || (s.cell c).prot.byp then
    if (s.cell c).on Els.PROT_STAT_BYP_SW_CONF then s.cwr c Els.GEN_STAT_BYPASSED 1 else s
  else s

/-- A firing pulse starts and BYP_SW_CMD is asserted (R307). A firing while a pulse is on starts no other; an EXTEST
instruction holds the outputs off (R471). -/
def State.fire (s : State) (c : Nat) : State :=
  if (s.cell c).prot.pulseOn || (s.cell c).sec.extest then s
  else s.modProt c fun y => { y with fires := y.fires + 1, firedAt := (s.cell c).time.clock, pulseOn := true, swCmd := true }

/-- The bypass sequence (R255): every position off, the thyristor fired and the switch commanded; no further switching command runs until a cell reset. -/
def State.bypass (s : State) (c : Nat) : State :=
  let s := s.allOff c
  let s := s.modSw c fun y => { y with dead := true, cmd := ⟨0, false, 0, 0⟩, next := none }
  if (s.cell c).prot.byp then s
  else (((s.modProt c fun y => { y with byp := true }).fire c)).showBypassed c

/-! ### Time from Beacons (R72 to R74, R121) -/

/-- Whether a frame of port `p` gives the cell time (R44, R367): its owner's; without an owner either port's, port A when both are heard. -/
def CellSt.usesTime (x : CellSt) (p : Nat) : Bool :=
  x.owner == p || (decide (2 ≤ x.owner) && (p == 0 || !(x.port 0).heard))

/-- The time constant of the loop, in periods (R73, R513). -/
def CellSt.loopTc (x : CellSt) : Nat := 2 ^ x.rd Els.CELL_TIME_TC
/-- The phase correction of a Beacon the loop uses: `n` at most |e|, against the error (R73; log entry 34, DESIGN CHOICE). -/
def slewOf (phase : Nat) (e : Int) : Int :=
  let n := phase % (e.natAbs + 1)
  if 0 < e then -(n : Int) else (n : Int)

/-- A cell's clock is set by the first frame after a reset (R73). -/
def State.setClock (s : State) (c t : Nat) : State :=
  s.modTime c fun y => { y with clock := t, set := true, freq := 0, frac := 0, corr := [], epochAt := s.gridBefore t }

/-- The time error of a frame and what the loop makes of it (R72 to R74). `sof`: the frame's timestamp in cell time; `sent`: its time field in quarters. -/
def State.discipline (s : State) (c p sof sent : Nat) : State :=
  let x := s.cell c
  let e : Int := (sof : Int) - (sent : Int) - (x.rd (pf p Port.DS_DELAY_DELAY) : Int)
  let s := s.cwr c Els.CELL_TIME_E_E (unsext 32 e)
  let s := s.modAuth c fun y => { y with timePort := p }
  if !x.time.set then s.setClock c ((x.time.clock : Int) - e).toNat
  else if x.on Els.GEN_STAT_TIME_FROZEN then s
  else if 4 * x.rd Els.CELL_TIME_STEP_THR < e.natAbs then
    let s := s.modTime c fun y => { y with stepDue := some (-e), stepRun := y.stepRun + 1 }
    if x.time.stepRun + 1 = 4 then s.raise (.cell c) { src := Src.TIME_UNLOCK } else s
  else
    let d := slewOf (Config.loopPhase x.loopTc e x.time.freq) e
    s.modTime c fun y =>
      { y with clock := ((y.clock : Int) + d).toNat, freq := clampI (-2 ^ 31) (2 ^ 31) (Config.loopFreq x.loopTc e y.freq), stepDue := none, stepRun := 0, corr := y.corr ++ [(y.pn, d)] }

/-- The steps and reversals of an epoch (R63, R74, R121): the clock, and the epoch with it, moves. -/
def State.cellSteps (s : State) (c : Nat) : State :=
  let x := s.cell c
  let back : Int := match x.time.revertPn with
    | some n => if n ≤ x.time.pn then -((x.time.corr.filter fun p => decide (n ≤ p.1 + 4)).foldl (fun a p => a + p.2) 0) else 0
    | none => 0
  let ann : Int := match x.time.announced with | some (n, v) => if n == x.time.pn then 4 * v else 0 | none => 0
  let own : Int := if x.on Els.GEN_STAT_TIME_FROZEN then 0 else x.time.stepDue.getD 0
  let s := if own != 0 then (s.cinc c Els.CELL_TIME_STAT_STEPS).cellLog c 2 0 0 false (unsext 32 (own / 4)) else s
  s.modTime c fun y =>
    { y with
      clock := ((y.clock : Int) + (back + ann + own)).toNat
      epochAt := ((y.epochAt : Int) + (back + ann + own)).toNat
      stepDue := if x.on Els.GEN_STAT_TIME_FROZEN then y.stepDue else none
      announced := match y.announced with | some (n, v) => if n ≤ y.pn then none else some (n, v) | none => none
      revertPn := match y.revertPn with | some n => if n ≤ y.pn then none else some n | none => none
      corr := (y.corr.filter fun p => decide (y.pn ≤ p.1 + 8) && back == 0) ++ (if own != 0 then [(y.pn, own)] else []) }

end Sys2Proof.Machine
end

