-- ==== Sys2Proof/Machine/DpCode.lean ====
section
/-! DEFINITION. The datapath instructions and their 32-bit words (R164, R165). -/

namespace Sys2Proof

/-- One datapath instruction (R165). `cmp` to `end_` in the order of the table. -/
inductive DI where
  | nop
  | mov (d a : BitVec 4)
  | ldi (d : BitVec 4) (imm : BitVec 18)
  | ldih (d : BitVec 4) (imm : BitVec 14)
  | ld (d : BitVec 4) (x : Addr) (disp : BitVec 8)
  | st (a : BitVec 4) (x : Addr) (disp : BitVec 8)
  | add (d a b : BitVec 4)
  | sub (d a b : BitVec 4)
  | adds (d a b : BitVec 4)
  | subs (d a b : BitVec 4)
  | mul (d a b : BitVec 4)
  | abs (d a : BitVec 4)
  | neg (d a : BitVec 4)
  | min (d a b : BitVec 4)
  | max (d a b : BitVec 4)
  | ash (d a : BitVec 4) (sh : BitVec 6)
  | and (d a b : BitVec 4)
  | or (d a b : BitVec 4)
  | xor (d a b : BitVec 4)
  | csel (d a b : BitVec 4) (cond : BitVec 3)
  | cmp (a b : BitVec 4)
  | clra (acc : Bool)
  | macr (acc : Bool) (a b : BitVec 4) (sh : BitVec 4) (minus : Bool)
  | macm (acc : Bool) (x c : Addr) (sh : BitVec 4) (minus : Bool)
  | accw (acc : Bool) (a : BitVec 4) (sh : BitVec 4)
  | ext (d : BitVec 4) (acc : Bool) (sh : BitVec 7)
  | expa (d : BitVec 4) (acc : Bool)
  | norma (acc : Bool) (a : BitVec 4)
  | exp (d a : BitVec 4)
  | norm (d a b : BitVec 4)
  | br (cond : BitVec 3) (target : BitVec 6)
  | loop (count target : BitVec 6)
  | out (n : BitVec 3) (a : BitVec 4)
  | end_
  deriving DecidableEq, Repr

/-- AM (R164). -/
def AMode.code : AMode → BitVec 2
  | .plain => 0
  | .post => 1
  | .circ => 2
/-- The address mode of AM; 0b11 is reserved. -/
def AMode.ofCode (b : BitVec 2) : Option AMode :=
  if b = 0 then some .plain else if b = 1 then some .post else if b = 2 then some .circ else none

/-- Format W (R164). -/
def fmtW (op : BitVec 6) (d a b : BitVec 4) (sh : BitVec 6) : W32 := op ++ d ++ a ++ b ++ sh ++ (0 : BitVec 8)
/-- Format I. -/
def fmtI (op : BitVec 6) (d : BitVec 4) (imm : BitVec 18) : W32 := op ++ d ++ imm ++ (0 : BitVec 4)
/-- Format M. -/
def fmtM (op : BitVec 6) (d : BitVec 4) (x : Addr) (disp : BitVec 8) : W32 :=
  op ++ d ++ x.p ++ x.o ++ x.am.code ++ x.c ++ disp ++ (0 : BitVec 4)
/-- Format X. -/
def fmtX (op : BitVec 6) (acc : Bool) (x c : Addr) (sh : BitVec 4) (minus : Bool) : W32 :=
  op ++ BitVec.ofBool acc ++ x.p ++ x.o ++ x.am.code ++ x.c ++ c.p ++ c.o ++ c.am.code ++ c.c ++ sh ++ BitVec.ofBool minus
/-- Format A. -/
def fmtA (op : BitVec 6) (acc : Bool) (d : BitVec 4) (sh : BitVec 7) : W32 := op ++ BitVec.ofBool acc ++ d ++ sh ++ (0 : BitVec 14)
/-- Format B. -/
def fmtB (op : BitVec 6) (cond : BitVec 3) (n target : BitVec 6) (a : BitVec 4) : W32 := op ++ cond ++ n ++ target ++ a ++ (0 : BitVec 7)

/-- The word of an instruction (R164, R165). -/
def DI.word : DI → W32
  | .nop => fmtB 0x00 0 0 0 0
  | .mov d a => fmtW 0x01 d a 0 0
  | .ldi d imm => fmtI 0x02 d imm
  | .ldih d imm => fmtI 0x03 d (imm.zeroExtend 18)
  | .ld d x disp => fmtM 0x04 d x disp
  | .st a x disp => fmtM 0x05 a x disp
  | .add d a b => fmtW 0x08 d a b 0
  | .sub d a b => fmtW 0x09 d a b 0
  | .adds d a b => fmtW 0x0A d a b 0
  | .subs d a b => fmtW 0x0B d a b 0
  | .mul d a b => fmtW 0x0C d a b 0
  | .abs d a => fmtW 0x0D d a 0 0
  | .neg d a => fmtW 0x0E d a 0 0
  | .min d a b => fmtW 0x0F d a b 0
  | .max d a b => fmtW 0x10 d a b 0
  | .ash d a sh => fmtW 0x11 d a 0 sh
  | .and d a b => fmtW 0x12 d a b 0
  | .or d a b => fmtW 0x13 d a b 0
  | .xor d a b => fmtW 0x14 d a b 0
  | .csel d a b cond => fmtW 0x15 d a b (cond ++ (0 : BitVec 3))
  | .cmp a b => fmtW 0x16 0 a b 0
  | .clra acc => fmtA 0x18 acc 0 0
  | .macr acc a b sh minus => fmtW 0x19 ((0 : BitVec 3) ++ BitVec.ofBool acc) a b (BitVec.ofBool minus ++ (0 : BitVec 1) ++ sh)
  | .macm acc x c sh minus => fmtX 0x1A acc x c sh minus
  | .accw acc a sh => fmtA 0x1B acc a ((0 : BitVec 3) ++ sh)
  | .ext d acc sh => fmtA 0x1C acc d sh
  | .expa d acc => fmtA 0x1D acc d 0
  | .norma acc a => fmtA 0x1E acc a 0
  | .exp d a => fmtW 0x20 d a 0 0
  | .norm d a b => fmtW 0x21 d a b 0
  | .br cond target => fmtB 0x24 cond 0 target 0
  | .loop count target => fmtB 0x25 0 count target 0
  | .out n a => fmtB 0x26 0 ((0 : BitVec 3) ++ n) 0 a
  | .end_ => fmtB 0x27 0 0 0 0

/-- An operand of format M or X, none where AM is reserved. -/
def addrOf (p o : BitVec 3) (am c : BitVec 2) : Option Addr := (AMode.ofCode am).map fun m => ⟨p, o, m, c⟩

/-- The instruction of a word (R164, R165); none for a reserved opcode or a reserved encoding that R185 lists, and, which R185 does not list, for MACR with
SH[4] = 1, ACCW with SH above 15 and OUT with a number above 7, outside the ranges of R165 (log entry 98, DESIGN CHOICE). Bits that the table gives as 0, or as
of no use to an instruction, are ignored. -/
def DI.ofWord (w : W32) : Option DI :=
  let d := w.extractLsb' 22 4
  let a := w.extractLsb' 18 4
  let b := w.extractLsb' 14 4
  let sh := w.extractLsb' 8 6
  let acc := w.getLsbD 25
  let ad := w.extractLsb' 21 4
  let as := w.extractLsb' 14 7
  let m := addrOf (w.extractLsb' 19 3) (w.extractLsb' 16 3) (w.extractLsb' 14 2) (w.extractLsb' 12 2)
  let disp := w.extractLsb' 4 8
  match (w.extractLsb' 26 6).toNat with
  | 0x00 => some .nop
  | 0x01 => some (.mov d a)
  | 0x02 => some (.ldi d (w.extractLsb' 4 18))
  | 0x03 => some (.ldih d (w.extractLsb' 4 14))
  | 0x04 => m.map fun x => .ld d x disp
  | 0x05 => m.map fun x => .st d x disp
  | 0x08 => some (.add d a b)
  | 0x09 => some (.sub d a b)
  | 0x0A => some (.adds d a b)
  | 0x0B => some (.subs d a b)
  | 0x0C => some (.mul d a b)
  | 0x0D => some (.abs d a)
  | 0x0E => some (.neg d a)
  | 0x0F => some (.min d a b)
  | 0x10 => some (.max d a b)
  | 0x11 => if sh = 32 then none else some (.ash d a sh)
  | 0x12 => some (.and d a b)
  | 0x13 => some (.or d a b)
  | 0x14 => some (.xor d a b)
  | 0x15 => some (.csel d a b (w.extractLsb' 11 3))
  | 0x16 => some (.cmp a b)
  | 0x18 => some (.clra acc)
  | 0x19 => if w.extractLsb' 23 3 = 0 ∧ w.getLsbD 12 = false then
      some (.macr (w.getLsbD 22) a b (w.extractLsb' 8 4) (w.getLsbD 13)) else none
  | 0x1A =>
    match addrOf (w.extractLsb' 22 3) (w.extractLsb' 19 3) (w.extractLsb' 17 2) (w.extractLsb' 15 2),
        addrOf (w.extractLsb' 12 3) (w.extractLsb' 9 3) (w.extractLsb' 7 2) (w.extractLsb' 5 2) with
    | some x, some c => some (.macm acc x c (w.extractLsb' 1 4) (w.getLsbD 0))
    | _, _ => none
  | 0x1B => if w.extractLsb' 18 3 = 0 then some (.accw acc ad (w.extractLsb' 14 4)) else none
  | 0x1C => if as.toNat ≤ 40 then some (.ext ad acc as) else none
  | 0x1D => some (.expa ad acc)
  | 0x1E => some (.norma acc ad)
  | 0x20 => some (.exp d a)
  | 0x21 => some (.norm d a b)
  | 0x24 => some (.br (w.extractLsb' 23 3) (w.extractLsb' 11 6))
  | 0x25 => some (.loop (w.extractLsb' 17 6) (w.extractLsb' 11 6))
  | 0x26 => if w.extractLsb' 20 3 = 0 then some (.out (w.extractLsb' 17 3) (w.extractLsb' 7 4)) else none
  | 0x27 => some .end_
  | _ => none

/-- The guard-corner cost of an instruction in ns, without the iterations of a LOOP (R165). -/
def DI.cost : DI → Nat
  | .nop | .mov .. | .ldi .. | .ldih .. | .and .. | .or .. | .xor .. | .csel .. | .cmp .. | .clra .. | .exp .. | .out .. => 2
  | .ld .. | .st .. => 5
  | .mul .. | .macr .. => 4
  | .macm .. => 6
  | .end_ => 0
  | _ => 3

end Sys2Proof
end

