-- ==== Sys2Proof/Machine/Datapath.lean ====
section
/-! DEFINITION. The engine datapath (R161 to R182): one definition per instruction, on the registers of one engine of a region. An instruction that is
commanded runs on the engine as the next instruction of the Verb it runs (log entry 26, DESIGN CHOICE). -/

namespace Sys2Proof.Machine

/-- What an instruction sees of memory: the region's words, the windows of the Phrase (R175), and the base of the rank keeper's memory, which no Phrase
writes (R227). -/
structure MemView where
  word : Nat → W32
  wins : List Win
  rank : Nat

/-! ### Registers -/

/-- Dn. -/
def Eng.rd (e : Eng) (i : BitVec 4) : W32 := e.d.getD i.toNat 0
/-- Dn written. -/
def Eng.setD (e : Eng) (i : BitVec 4) (w : W32) : Eng := { e with d := e.d.set i.toNat w }
/-- A0 or A1. -/
def Eng.acc (e : Eng) (a : Bool) : BitVec 72 := if a then e.a1 else e.a0
/-- ACC_SATa. -/
def Eng.accSat (e : Eng) (a : Bool) : Bool := if a then e.accSat1 else e.accSat0

/-! ### Flags and clamps (R165, R166, R180) -/

/-- Z and N by a word result. -/
def Eng.zn (e : Eng) (w : W32) : Eng := { e with z := w == 0, n := w.msb }
/-- A word result with Z and N. -/
def Eng.result (e : Eng) (d : BitVec 4) (w : W32) : Eng := (e.setD d w).zn w
/-- The nearest word to an exact value (R165). -/
def clamp32 (x : Int) : W32 := BitVec.ofInt 32 (clampI (-2147483648) 2147483647 x)
/-- Whether a value clamps to a word. -/
def clamps32 (x : Int) : Bool := decide (x < -2147483648) || decide (2147483647 < x)
/-- A clamped word result: Z, N, and WSAT, which is sticky (R170, R180). -/
def Eng.clamped (e : Eng) (d : BitVec 4) (x : Int) : Eng :=
  let e := e.result d (clamp32 x)
  { e with wsat := e.wsat || clamps32 x }
/-- A wrapped word result: Z, N, and V where the signed result differs from the exact one (R170). -/
def Eng.wrapped (e : Eng) (d : BitVec 4) (x : Int) : Eng :=
  { e.result d (BitVec.ofInt 32 x) with v := clamps32 x }

/-- An accumulator takes an exact value (R166, R167): unchanged while its ACC_SAT is 1; out of range it takes the bound, with ACC_SATa and VSAT. -/
def Eng.accum (e : Eng) (a : Bool) (x : Int) : Eng :=
  if e.accSat a then e
  else
    let lo : Int := -(2 ^ 71 : Nat)
    let hi : Int := (2 ^ 71 : Nat) - 1
    let sat := decide (x < lo) || decide (hi < x)
    let v := BitVec.ofInt 72 (clampI lo hi x)
    if a then { e with a1 := v, accSat1 := sat, vsat := e.vsat || sat }
    else { e with a0 := v, accSat0 := sat, vsat := e.vsat || sat }

/-- A condition (R164). -/
def Eng.cond (e : Eng) (c : BitVec 3) : Bool :=
  match c.toNat with
  | 0 => true
  | 1 => e.z
  | 2 => !e.z
  | 3 => e.n
  | 4 => !e.n
  | 5 => e.accSat0 || e.accSat1
  | 6 => !(e.accSat0 || e.accSat1)
  | _ => e.v

/-- A value shifted by a signed count (R165, R169): left exactly, right truncated. -/
def shiftI (x : Int) (n : Int) : Int := if 0 ≤ n then x * (2 ^ n.toNat : Nat) else x / (2 ^ (-n).toNat : Nat)

/-- The number of bits below the top bit of a w-bit value that equal it (R171). -/
def redundant (w : Nat) (x : BitVec w) : Nat :=
  ((List.range (w - 1)).reverse.takeWhile fun i => x.getLsbD i == x.msb).length

/-! ### Addresses (R172 to R175, R182) -/

/-- The pointer, offset, base and length of an operand. -/
def Eng.ptr (e : Eng) (x : Addr) : Nat := (e.p.getD x.p.toNat 0).toNat
def Eng.off (e : Eng) (x : Addr) : Int := (e.ofs.getD x.o.toNat 0).toInt
def Eng.base (e : Eng) (x : Addr) : Nat := (e.cb.getD x.c.toNat 0).toNat
def Eng.len (e : Eng) (x : Addr) : Nat := (e.cl.getD x.c.toNat 0).toNat

/-- The effective address (R172). A plain one is not reduced: below 0 or from 2^23 up it lies outside every window. -/
def Eng.ea (e : Eng) (x : Addr) (disp : BitVec 8) : Int :=
  match x.am with
  | .plain => (e.ptr x : Int) + 4 * disp.toInt
  | _ => e.ptr x

/-- The pointer after an access (R172). -/
def Eng.step (e : Eng) (x : Addr) : Eng :=
  let p : Int := e.ptr x
  match x.am with
  | .plain => e
  | .post => { e with p := e.p.set x.p.toNat (BitVec.ofInt 23 (p + e.off x)) }
  | .circ =>
    let cb : Int := e.base x
    { e with p := e.p.set x.p.toNat (BitVec.ofInt 23 (cb + (p - cb + e.off x) % (e.len x : Int))) }

/-- Whether a circular operand lies in its buffer (R173). -/
def Eng.inBuffer (e : Eng) (x : Addr) : Bool :=
  match x.am with
  | .circ => decide (e.base x ≤ e.ptr x) && decide (e.ptr x < e.base x + e.len x)
  | _ => true

/-- Whether a word of region SRAM lies in a window that permits the access (R175). A store to the rank keeper's 768 KiB (R227, R240) is outside every window
(log entry 97, DESIGN CHOICE). -/
def MemView.permits (m : MemView) (store : Bool) (a : Nat) : Bool :=
  decide (a + 4 ≤ 2 ^ 23) && (m.wins.any fun w => (!store || w.write) && decide (w.base ≤ a) && decide (a + 4 ≤ w.base + w.len))
    && !(store && decide (m.rank ≤ a) && decide (a < m.rank + 0xC0000))
/-- Whether an access to a word is good: aligned, and in a window that permits it (R175, R182). -/
def MemView.good (m : MemView) (store : Bool) (a : Int) : Bool := decide (0 ≤ a) && a % 4 == 0 && m.permits store a.toNat

/-- Whether an access through an operand is good (R182). -/
def Eng.good (e : Eng) (m : MemView) (x : Addr) (store : Bool) (a : Int) : Bool := e.inBuffer x && m.good store a

/-- The word a load returns (R177): the last value the Verb stored there, or the word of memory. -/
def Eng.loadWord (e : Eng) (m : MemView) (a : Nat) : W32 :=
  match e.stores.reverse.find? fun q => q.1 == a with
  | some q => q.2
  | none => m.word a

/-- A load through an operand (R172, R177, R182): 0 and ADDR_ERR for an address error. -/
def Eng.load (e : Eng) (m : MemView) (x : Addr) (disp : BitVec 8) : Eng × W32 :=
  let a := e.ea x disp
  if e.good m x false a then (e.step x, e.loadWord m a.toNat)
  else ({ e.step x with addrErr := true }, 0)

/-- A store through an operand (R177, R182): held as a result; discarded with ADDR_ERR for an address error. -/
def Eng.store (e : Eng) (m : MemView) (x : Addr) (disp : BitVec 8) (w : W32) : Eng :=
  let a := e.ea x disp
  if e.good m x true a then { e.step x with stores := e.stores ++ [(a.toNat, w)] }
  else { e.step x with addrErr := true }

/-- The word a fixed Verb loads from an address (R181, R182): 0 for an address error. -/
def Eng.val (e : Eng) (m : MemView) (a : Nat) : W32 := if m.good false a then e.loadWord m a else 0
/-- The loads of a fixed Verb: an address error among them sets ADDR_ERR (R182). -/
def Eng.loads (e : Eng) (m : MemView) (l : List Nat) : Eng := { e with addrErr := e.addrErr || l.any fun a => !m.good false a }
/-- A store of a fixed Verb, held as a result (R177, R182). -/
def Eng.hold (e : Eng) (m : MemView) (a : Nat) (w : W32) : Eng :=
  if m.good true a then { e with stores := e.stores ++ [(a, w)] } else { e with addrErr := true }

/-! ### Program control (R179) -/

/-- The ends of loop bodies at the index just run: back to the start while the counter lasts. The outer loop counts in LC0, the inner in LC1. -/
def Eng.loopEnd : Nat → Eng → Eng
  | 0, e => { e with ip := e.ip + 1 }
  | n + 1, e =>
    match e.loops with
    | [] => { e with ip := e.ip + 1 }
    | (st, en) :: rest =>
      if e.ip != en then { e with ip := e.ip + 1 }
      else
        let inner := !rest.isEmpty
        let k := (if inner then e.lc1 else e.lc0) - 1
        let e := if inner then { e with lc1 := k } else { e with lc0 := k }
        if k != 0 then { e with ip := st } else Eng.loopEnd n { e with loops := rest }

/-- The instruction that follows is next. -/
def Eng.next (e : Eng) : Eng := Eng.loopEnd 2 e

/-! ### The instructions (R165) -/

def Eng.nop (e : Eng) : Eng := e.next
def Eng.mov (e : Eng) (d a : BitVec 4) : Eng := (e.setD d (e.rd a)).next
def Eng.ldi (e : Eng) (d : BitVec 4) (imm : BitVec 18) : Eng := (e.setD d (imm.signExtend 32)).next
def Eng.ldih (e : Eng) (d : BitVec 4) (imm : BitVec 14) : Eng := (e.setD d (imm ++ (e.rd d).extractLsb' 0 18)).next
def Eng.ld (e : Eng) (m : MemView) (d : BitVec 4) (x : Addr) (disp : BitVec 8) : Eng :=
  let q := e.load m x disp
  (q.1.setD d q.2).next
def Eng.st (e : Eng) (m : MemView) (a : BitVec 4) (x : Addr) (disp : BitVec 8) : Eng := (e.store m x disp (e.rd a)).next
def Eng.add (e : Eng) (d a b : BitVec 4) : Eng := (e.wrapped d ((e.rd a).toInt + (e.rd b).toInt)).next
def Eng.sub (e : Eng) (d a b : BitVec 4) : Eng := (e.wrapped d ((e.rd a).toInt - (e.rd b).toInt)).next
def Eng.adds (e : Eng) (d a b : BitVec 4) : Eng := (e.clamped d ((e.rd a).toInt + (e.rd b).toInt)).next
def Eng.subs (e : Eng) (d a b : BitVec 4) : Eng := (e.clamped d ((e.rd a).toInt - (e.rd b).toInt)).next
def Eng.mul (e : Eng) (d a b : BitVec 4) : Eng := (e.clamped d ((e.rd a).toInt * (e.rd b).toInt / 2 ^ 30)).next
def Eng.abs (e : Eng) (d a : BitVec 4) : Eng := (e.clamped d ((e.rd a).toInt.natAbs : Int)).next
def Eng.neg (e : Eng) (d a : BitVec 4) : Eng := (e.clamped d (-(e.rd a).toInt)).next
def Eng.min (e : Eng) (d a b : BitVec 4) : Eng := (e.result d (if (e.rd b).toInt < (e.rd a).toInt then e.rd b else e.rd a)).next
def Eng.max (e : Eng) (d a b : BitVec 4) : Eng := (e.result d (if (e.rd a).toInt < (e.rd b).toInt then e.rd b else e.rd a)).next
def Eng.ash (e : Eng) (d a : BitVec 4) (sh : BitVec 6) : Eng := (e.clamped d (shiftI (e.rd a).toInt (clampI (-31) 31 sh.toInt))).next
def Eng.and (e : Eng) (d a b : BitVec 4) : Eng := (e.result d (e.rd a &&& e.rd b)).next
def Eng.or (e : Eng) (d a b : BitVec 4) : Eng := (e.result d (e.rd a ||| e.rd b)).next
def Eng.xor (e : Eng) (d a b : BitVec 4) : Eng := (e.result d (e.rd a ^^^ e.rd b)).next
def Eng.csel (e : Eng) (d a b : BitVec 4) (c : BitVec 3) : Eng := (e.setD d (if e.cond c then e.rd a else e.rd b)).next
def Eng.cmp (e : Eng) (a b : BitVec 4) : Eng :=
  ({ e with z := e.rd a == e.rd b, n := decide ((e.rd a).toInt < (e.rd b).toInt) }).next
def Eng.clra (e : Eng) (a : Bool) : Eng :=
  (if a then { e with a1 := 0, accSat1 := false } else { e with a0 := 0, accSat0 := false }).next
/-- A product added to or subtracted from an accumulator, shifted by SH (R163, R166). -/
def Eng.mac (e : Eng) (a : Bool) (x c : W32) (sh : BitVec 4) (minus : Bool) : Eng :=
  let t : Int := x.toInt * c.toInt * (2 ^ sh.toNat : Nat)
  e.accum a ((e.acc a).toInt + (if minus then -t else t))
def Eng.macr (e : Eng) (acc : Bool) (a b : BitVec 4) (sh : BitVec 4) (minus : Bool) : Eng := (e.mac acc (e.rd a) (e.rd b) sh minus).next
/-- The x operand is loaded and its pointer modified before the c operand forms its address (R174). -/
def Eng.macm (e : Eng) (m : MemView) (acc : Bool) (x c : Addr) (sh : BitVec 4) (minus : Bool) : Eng :=
  let qx := e.load m x 0
  let qc := qx.1.load m c 0
  (qc.1.mac acc qx.2 qc.2 sh minus).next
def Eng.accw (e : Eng) (acc : Bool) (a : BitVec 4) (sh : BitVec 4) : Eng :=
  (e.accum acc ((e.acc acc).toInt + (e.rd a).toInt * (2 ^ (30 + sh.toNat) : Nat))).next
def Eng.ext (e : Eng) (d : BitVec 4) (acc : Bool) (s : BitVec 7) : Eng := (e.clamped d ((e.acc acc).toInt / (2 ^ s.toNat : Nat))).next
/-- A count of redundant sign bits writes Z (R165, R171). -/
def Eng.count (e : Eng) (d : BitVec 4) (n : Nat) : Eng := { e.setD d (BitVec.ofNat 32 n) with z := n == 0 }
def Eng.expa (e : Eng) (d : BitVec 4) (acc : Bool) : Eng := (e.count d (redundant 72 (e.acc acc))).next
def Eng.norma (e : Eng) (acc : Bool) (a : BitVec 4) : Eng :=
  (e.accum acc (shiftI (e.acc acc).toInt (clampI (-71) 71 (e.rd a).toInt))).next
def Eng.exp (e : Eng) (d a : BitVec 4) : Eng := (e.count d (redundant 32 (e.rd a))).next
def Eng.norm (e : Eng) (d a b : BitVec 4) : Eng := (e.clamped d (shiftI (e.rd a).toInt (clampI (-31) 31 (e.rd b).toInt))).next
def Eng.br (e : Eng) (c : BitVec 3) (target : BitVec 6) : Eng := if e.cond c then { e with ip := target.toNat } else e.next
def Eng.loop (e : Eng) (count target : BitVec 6) : Eng :=
  let e := if e.loops.isEmpty then { e with lc0 := count } else { e with lc1 := count }
  { e with loops := (e.ip + 1, target.toNat) :: e.loops, ip := e.ip + 1 }
def Eng.out (e : Eng) (n : BitVec 3) (a : BitVec 4) : Eng :=
  ({ e with outs := (e.outs.filter fun (q : Nat × W32) => q.1 != n.toNat) ++ [(n.toNat, e.rd a)] }).next
def Eng.end_ (e : Eng) : Eng := { e with ended := true }

/-- The effect of an instruction. -/
def Eng.run1 (e : Eng) (m : MemView) : DI → Eng
  | .nop => e.nop
  | .mov d a => e.mov d a
  | .ldi d imm => e.ldi d imm
  | .ldih d imm => e.ldih d imm
  | .ld d x disp => e.ld m d x disp
  | .st a x disp => e.st m a x disp
  | .add d a b => e.add d a b
  | .sub d a b => e.sub d a b
  | .adds d a b => e.adds d a b
  | .subs d a b => e.subs d a b
  | .mul d a b => e.mul d a b
  | .abs d a => e.abs d a
  | .neg d a => e.neg d a
  | .min d a b => e.min d a b
  | .max d a b => e.max d a b
  | .ash d a sh => e.ash d a sh
  | .and d a b => e.and d a b
  | .or d a b => e.or d a b
  | .xor d a b => e.xor d a b
  | .csel d a b c => e.csel d a b c
  | .cmp a b => e.cmp a b
  | .clra acc => e.clra acc
  | .macr acc a b sh minus => e.macr acc a b sh minus
  | .macm acc x c sh minus => e.macm m acc x c sh minus
  | .accw acc a sh => e.accw acc a sh
  | .ext d acc sh => e.ext d acc sh
  | .expa d acc => e.expa d acc
  | .norma acc a => e.norma acc a
  | .exp d a => e.exp d a
  | .norm d a b => e.norm d a b
  | .br c target => e.br c target
  | .loop count target => e.loop count target
  | .out n a => e.out n a
  | .end_ => e.end_

/-- A program run until END (R179), from the engine's index; a word that is no instruction, which the loader refuses (R185), ends it. -/
def Eng.runProg (m : MemView) (prog : List W32) : Nat → Eng → Eng
  | 0, e => e
  | n + 1, e =>
    if e.ended then e
    else match prog[e.ip]? with
      | none => e.end_
      | some w => match DI.ofWord w with
        | none => e.end_
        | some i => Eng.runProg m prog n (e.run1 m i)

/-- The Phrase of a number on a region in the image in force. -/
def State.phraseOf (s : State) (r n : Nat) : Option Phrase := s.image.phrases.find? fun p => p.region == r && p.num == n
/-- What a Verb of a Phrase sees of memory (R175): its Phrase's windows. -/
def State.memOf (s : State) (r : Nat) (wins : List Win) : MemView :=
  { word := s.rgnWord r, wins := wins, rank := s.rd (rf r Rgn.RANK_BASE_BASE) }
/-- What the Verb on an engine sees of memory. -/
def State.view (s : State) (r e : Nat) : MemView :=
  match (s.eng r e).run with
  | some g => s.memOf g.home (match s.phraseOf g.home g.phrase with | some p => p.windows | none => [])
  | none => s.memOf r []

/-! ### The commands -/

def execDpNop (r e : Nat) (s : State) : Host.Outcome State Fault Refusal := .next (s.modEng r e fun g => g.nop)
def execDpMov (r e : Nat) (d a : BitVec 4) (s : State) : Host.Outcome State Fault Refusal := .next (s.modEng r e fun g => g.mov d a)
def execDpLdi (r e : Nat) (d : BitVec 4) (imm : BitVec 18) (s : State) : Host.Outcome State Fault Refusal := .next (s.modEng r e fun g => g.ldi d imm)
def execDpLdih (r e : Nat) (d : BitVec 4) (imm : BitVec 14) (s : State) : Host.Outcome State Fault Refusal := .next (s.modEng r e fun g => g.ldih d imm)
def execDpLd (r e : Nat) (d : BitVec 4) (x : Addr) (disp : BitVec 8) (s : State) : Host.Outcome State Fault Refusal :=
  .next (s.modEng r e fun g => g.ld (s.view r e) d x disp)
def execDpSt (r e : Nat) (a : BitVec 4) (x : Addr) (disp : BitVec 8) (s : State) : Host.Outcome State Fault Refusal :=
  .next (s.modEng r e fun g => g.st (s.view r e) a x disp)
def execDpAdd (r e : Nat) (d a b : BitVec 4) (s : State) : Host.Outcome State Fault Refusal := .next (s.modEng r e fun g => g.add d a b)
def execDpSub (r e : Nat) (d a b : BitVec 4) (s : State) : Host.Outcome State Fault Refusal := .next (s.modEng r e fun g => g.sub d a b)
def execDpAdds (r e : Nat) (d a b : BitVec 4) (s : State) : Host.Outcome State Fault Refusal := .next (s.modEng r e fun g => g.adds d a b)
def execDpSubs (r e : Nat) (d a b : BitVec 4) (s : State) : Host.Outcome State Fault Refusal := .next (s.modEng r e fun g => g.subs d a b)
def execDpMul (r e : Nat) (d a b : BitVec 4) (s : State) : Host.Outcome State Fault Refusal := .next (s.modEng r e fun g => g.mul d a b)
def execDpMin (r e : Nat) (d a b : BitVec 4) (s : State) : Host.Outcome State Fault Refusal := .next (s.modEng r e fun g => g.min d a b)
def execDpMax (r e : Nat) (d a b : BitVec 4) (s : State) : Host.Outcome State Fault Refusal := .next (s.modEng r e fun g => g.max d a b)
def execDpAnd (r e : Nat) (d a b : BitVec 4) (s : State) : Host.Outcome State Fault Refusal := .next (s.modEng r e fun g => g.and d a b)
def execDpOr (r e : Nat) (d a b : BitVec 4) (s : State) : Host.Outcome State Fault Refusal := .next (s.modEng r e fun g => g.or d a b)
def execDpXor (r e : Nat) (d a b : BitVec 4) (s : State) : Host.Outcome State Fault Refusal := .next (s.modEng r e fun g => g.xor d a b)
def execDpNorm (r e : Nat) (d a b : BitVec 4) (s : State) : Host.Outcome State Fault Refusal := .next (s.modEng r e fun g => g.norm d a b)
def execDpAbs (r e : Nat) (d a : BitVec 4) (s : State) : Host.Outcome State Fault Refusal := .next (s.modEng r e fun g => g.abs d a)
def execDpNeg (r e : Nat) (d a : BitVec 4) (s : State) : Host.Outcome State Fault Refusal := .next (s.modEng r e fun g => g.neg d a)
def execDpExp (r e : Nat) (d a : BitVec 4) (s : State) : Host.Outcome State Fault Refusal := .next (s.modEng r e fun g => g.exp d a)
def execDpAsh (r e : Nat) (d a : BitVec 4) (sh : BitVec 6) (s : State) : Host.Outcome State Fault Refusal := .next (s.modEng r e fun g => g.ash d a sh)
def execDpCsel (r e : Nat) (d a b : BitVec 4) (cond : BitVec 3) (s : State) : Host.Outcome State Fault Refusal := .next (s.modEng r e fun g => g.csel d a b cond)
def execDpCmp (r e : Nat) (a b : BitVec 4) (s : State) : Host.Outcome State Fault Refusal := .next (s.modEng r e fun g => g.cmp a b)
def execDpClra (r e : Nat) (acc : Bool) (s : State) : Host.Outcome State Fault Refusal := .next (s.modEng r e fun g => g.clra acc)
def execDpMacr (r e : Nat) (acc : Bool) (a b sh : BitVec 4) (minus : Bool) (s : State) : Host.Outcome State Fault Refusal := .next (s.modEng r e fun g => g.macr acc a b sh minus)
def execDpMacm (r e : Nat) (acc : Bool) (x c : Addr) (sh : BitVec 4) (minus : Bool) (s : State) : Host.Outcome State Fault Refusal := .next (s.modEng r e fun g => g.macm (s.view r e) acc x c sh minus)
def execDpAccw (r e : Nat) (acc : Bool) (a sh : BitVec 4) (s : State) : Host.Outcome State Fault Refusal := .next (s.modEng r e fun g => g.accw acc a sh)
def execDpExt (r e : Nat) (d : BitVec 4) (acc : Bool) (sh : BitVec 7) (s : State) : Host.Outcome State Fault Refusal := .next (s.modEng r e fun g => g.ext d acc sh)
def execDpExpa (r e : Nat) (d : BitVec 4) (acc : Bool) (s : State) : Host.Outcome State Fault Refusal := .next (s.modEng r e fun g => g.expa d acc)
def execDpNorma (r e : Nat) (acc : Bool) (a : BitVec 4) (s : State) : Host.Outcome State Fault Refusal := .next (s.modEng r e fun g => g.norma acc a)
def execDpBr (r e : Nat) (cond : BitVec 3) (target : BitVec 6) (s : State) : Host.Outcome State Fault Refusal := .next (s.modEng r e fun g => g.br cond target)
def execDpLoop (r e : Nat) (count target : BitVec 6) (s : State) : Host.Outcome State Fault Refusal := .next (s.modEng r e fun g => g.loop count target)
def execDpOut (r e : Nat) (n : BitVec 3) (a : BitVec 4) (s : State) : Host.Outcome State Fault Refusal := .next (s.modEng r e fun g => g.out n a)
def execDpEnd (r e : Nat) (s : State) : Host.Outcome State Fault Refusal := .next (s.modEng r e fun g => g.end_)

end Sys2Proof.Machine
end

