-- ==== Sys2Proof/Machine/Take.lean ====
section
/-! DEFINITION. The dispatcher (R134 to R154): triggers, ready lists, TAKE, stealing, completion and release in Sentence order. -/

namespace Sys2Proof

/-- The ready list of a Phrase's Verbs on its home (R133, R139). -/
def Phrase.listKey (p : Phrase) : Nat := if p.level = 0 then p.home else 8 + p.home * 8 + p.level
/-- The contexts a Sentence takes: one for up to 64 Verbs, two for up to 128. -/
def Phrase.ctxNeed (p : Phrase) (sen : Nat) : Nat :=
  Machine.ceilDiv (p.verbs.filter fun v => match v.sentence with | some q => q.1 == sen | none => false).length 64
/-- The Sentences of a Phrase. -/
def Phrase.sentences (p : Phrase) : List Nat := ((p.verbs.filterMap fun v => v.sentence.map Prod.fst)).eraseDups
/-- Insertion of a Verb index by its place in its Sentence. -/
def insPos (vs : List VerbDecl) (i : Nat) : List Nat → List Nat
  | [] => [i]
  | j :: t =>
    let pos (k : Nat) : Nat := match vs[k]? with | some v => (match v.sentence with | some q => q.2 | none => 0) | none => 0
    if pos i < pos j then i :: j :: t else j :: insPos vs i t
/-- The Verbs of a Phrase in release order. -/
def Phrase.releaseOrder (p : Phrase) : List Nat := (List.range p.verbs.length).foldl (fun l i => insPos p.verbs i l) []


end Sys2Proof

namespace Sys2Proof.Machine

/-! ### Phrases and activations -/

/-- The Phrases of a region in the image in force. -/
def State.phrasesOf (s : State) (r : Nat) : List Phrase := if s.imageSet then s.image.phrases.filter fun p => p.region == r else []
/-- An activation. -/
def State.act (s : State) (r phrase num : Nat) : Option Act := (s.dsp r).acts.find? fun a => a.phrase == phrase && a.num == num
/-- The state with an activation changed. -/
def State.modAct (s : State) (r phrase num : Nat) (f : Act → Act) : State :=
  s.modDisp r fun d => { d with acts := d.acts.map fun a => if a.phrase == phrase && a.num == num then f a else a }
/-- A Verb of an activation. -/
def Act.vst (a : Act) (v : Nat) : VSt := a.verbs.getD v {}
/-- An activation with one Verb changed. -/
def Act.modVerb (a : Act) (v : Nat) (f : VSt → VSt) : Act := { a with verbs := a.verbs.set v (f (a.vst v)) }
/-- The output `o` of a Verb; 0 where it wrote none. -/
def Act.outOf (a : Act) (v o : Nat) : W32 := fget 0 (a.vst v).outs o
/-- The value of an input. -/
def Act.input (a : Act) : Src1 → W32
  | .verb v o => a.outOf v o
  | .const w => w
/-- Whether an input is available (R134). -/
def Act.available (a : Act) : Src1 → Bool
  | .verb v _ => (a.vst v).st == 3 || (a.vst v).st == 4
  | .const _ => true
/-- Whether an input carries the saturation tag (R181). -/
def Act.tagged (a : Act) : Src1 → Bool
  | .verb v _ => (a.vst v).tag
  | .const _ => false

/-- The deadline of a Phrase in a period that began at `epochAt` (R147). -/
def State.deadlineOf (s : State) (p : Phrase) (epochAt : Nat) : Nat :=
  epochAt + (match p.deadline with | some n => n | none => s.period - s.rd Reg.BEACON_LEAD_LEAD - 500)

/-! ### Trace records (R153, R154) -/

/-- A trace record of a dispatch event: written to the region's buffer of 256, or counted. A level-0 Verb is of both clusters of its pair. -/
def State.traceEvt (s : State) (r : Nat) (p : Phrase) (act verb ev : Nat) (eng : Option Nat) (xreg sat cancelled : Bool) : State :=
  let cl := s.rd (rf r Rgn.TRACE_CFG_CLUSTERS)
  let sel := if p.level = 0 then cl.testBit (2 * p.home) || cl.testBit (2 * p.home + 1) else cl.testBit p.home
  if !(s.on (rf r Rgn.TRACE_CFG_EN) && (s.rd (rf r Rgn.TRACE_CFG_EVENTS)).testBit ev && (s.rd (rf r Rgn.TRACE_CFG_LEVELS)).testBit p.level && sel) then s
  else if 256 ≤ (s.dsp r).trace.length then
    (s.inc (rf r Rgn.TRACE_STAT_LOST)).modDisp r fun d => { d with traceLost := true }
  else
    let opc := match p.verbs[verb]? with | some v => v.opc | none => 0
    let n := s.ns % 2 ^ 48 + (timeQ s.time.ctr + 4 * p.level + 32 * ev) * 2 ^ 48
      + (b2n (s.dsp r).traceLost + 2 * b2n xreg + 4 * b2n sat + 8 * b2n cancelled) * 2 ^ 56
      + (match eng with | some e => e | none => 0x3FF) * 2 ^ 64 + (p.num % 4096 + p.home % 8 * 4096) * 2 ^ 80
      + verb % 65536 * 2 ^ 96 + opc % 256 * 2 ^ 112 + act % 256 * 2 ^ 120
    s.modDisp r fun d => { d with trace := d.trace ++ [BitVec.ofNat 128 n], traceLost := false }

/-! ### Reorder-buffer contexts and readiness (R139, R142) -/

/-- The contexts reserved at load for the class-0 and class-1 Sentences of a region. -/
def State.reserved (s : State) (r : Nat) : Nat :=
  (s.phrasesOf r).foldl (fun n p => if p.cls ≤ 1 then n + (p.sentences.map p.ctxNeed).sum else n) 0
/-- Whether an activation holds the context of a Sentence: a Verb of it has entered a list and is not released. A class-2 Sentence thus gives its context back
whenever none of its Verbs is ready, running or unreleased (log entry 90, DESIGN CHOICE: R142 does not say when). -/
def Act.holds (a : Act) (p : Phrase) (sen : Nat) : Bool :=
  p.verbs.zipIdx.any fun q => (match q.1.sentence with | some x => x.1 == sen | none => false) && [1, 2, 3].contains (a.vst q.2).st
/-- The contexts that class-2 activations of a region hold. -/
def State.ctxUsed (s : State) (r : Nat) : Nat :=
  (s.dsp r).acts.foldl (fun n a => match s.phraseOf r a.phrase with
    | some p => if p.cls == 2 then n + ((p.sentences.filter fun x => a.holds p x).map p.ctxNeed).sum else n
    | none => n) 0
/-- Whether a Verb may enter its ready list (R142). -/
def State.ctxFree (s : State) (r : Nat) (p : Phrase) (a : Act) (v : VerbDecl) : Bool :=
  match v.sentence with
  | none => true
  | some q => p.cls != 2 || a.holds p q.1 || decide (s.ctxUsed r + p.ctxNeed q.1 + s.reserved r ≤ 16)

/-- Whether the ready list of a Phrase has room for `n` more Verbs (R139). -/
def State.listRoom (s : State) (r : Nat) (p : Phrase) (n : Nat) : Bool := decide ((fget [] (s.dsp r).lists p.listKey).length + n ≤ 64)
/-- A Verb whose inputs are all available enters its ready list, or is held back for a context (R134, R139, R142) or for room in the list (R139; log entry 89,
DESIGN CHOICE). -/
def State.readyVerb (s : State) (r : Nat) (p : Phrase) (num i : Nat) (v : VerbDecl) : State :=
  match s.act r p.num num with
  | none => s
  | some a =>
    let st := (a.vst i).st
    if (st != 0 && st != 5 && st != 6) || !v.inputs.all a.available then s
    else if !s.listRoom r p 1 then s.modAct r p.num num fun a => a.modVerb i fun x => { x with st := 6 }
    else if s.ctxFree r p a v then
      let s := s.modAct r p.num num fun a => a.modVerb i fun x => { x with st := 1, readyAt := s.ns }
      let s := s.modDisp r fun d => { d with lists := fmod [] p.listKey (fun l => l ++ [⟨p.num, num, i⟩]) d.lists }
      s.traceEvt r p num i 0 none false false false
    else if st != 5 then
      (s.inc (rf r Rgn.DISP_STAT_ROB_WAIT)).modAct r p.num num fun a => a.modVerb i fun x => { x with st := 5 }
    else s
/-- The same for every Verb of an activation. Of the Verbs that one event makes ready together, the mutex of R146 may put any first; the model takes them in rising
Verb index, and Phrases with one trigger in image order (log entry 91, DESIGN CHOICE). -/
def State.readyAct (s : State) (r : Nat) (p : Phrase) (num : Nat) : State :=
  p.verbs.zipIdx.foldl (fun s q => s.readyVerb r p num q.2 q.1) s

/-- The Verbs held back for a context or for room in their list try again (R139, R142). -/
def State.retryHeld (s : State) (r : Nat) : State :=
  (s.dsp r).acts.foldl (fun s a => match s.phraseOf r a.phrase with
    | some p => if a.verbs.any fun x => x.st == 5 || x.st == 6 then s.readyAct r p a.num else s
    | none => s) s

/-! ### Triggers (R133, R134, R139, R195) -/

/-- The law slot of a wrapper that does not run: in IDLE the one that is not ACTIVE (R214). The wrapper's control word: [0] ACTIVE, [2:1] state. -/
def State.idleSlot (s : State) (p : Phrase) : Option Nat :=
  match p.wrapWords with
  | some w => let c := (s.rgnWord p.region w).toNat; if bits c 1 2 = 0 then some (1 - c % 2) else none
  | none => none

/-- What an activation takes of the instant of its trigger (R134, R193, R200, R204, R208, R224). -/
def State.newAct (s : State) (r : Nat) (p : Phrase) (entry : List W32) : Act :=
  { phrase := p.num
    num := 0
    pn := s.pn
    epochAt := s.time.epochAt
    entry := entry
    rt := s.mode.atEpoch == 9
    loops := s.rd (rf r Rgn.LOOP_STATE0_CLOSED) + s.rd (rf r Rgn.LOOP_STATE1_CLOSED) * 2 ^ 32
    refs := match p.arm with
      | some a => (List.range 6).map fun i => s.rgnWord r (s.rd (af r a Arm.ARM_PBASE_BASE) + 0xC0 + 4 * i)
      | none => []
    sv := s.stn.sv.map fun (q : Nat × SvSt) => (q.1, q.2.ring) }
/-- The activation with its Verbs: those of a wrapper's slot that does not run have no part in it (R214). -/
def Act.withVerbs (a : Act) (p : Phrase) (num : Nat) (off : Option Nat) : Act :=
  { a with num := num, verbs := p.verbs.map fun v => if v.slot.isSome && v.slot == off then { st := 4 } else {} }
/-- How many Verbs are ready at the trigger (R134). -/
def Act.readyCount (a : Act) (p : Phrase) : Nat :=
  (p.verbs.zipIdx.filter fun q => (a.vst q.2).st == 0 && q.1.inputs.all a.available).length
/-- An activation starts (R134), or its entry finds the list of the Phrase full (R139): it is dropped. -/
def State.startAct (s : State) (r : Nat) (p : Phrase) (a : Act) : State :=
  let num := (s.dsp r).nextAct
  let a := a.withVerbs p num (s.idleSlot p)
  if !s.listRoom r p (max 1 (a.readyCount p)) then s.raise (.region r) { src := Src.READY_OVF }
  else
    let s := s.modDisp r fun d =>
      { d with acts := d.acts ++ [a], nextAct := num + 1, actCount := fset p.num (fget 0 d.actCount p.num + 1) d.actCount }
    s.readyAct r p num

/-- Whether a Phrase may be triggered: control Phrases only in M7, M8 and M9, and in M11 where the host enables them for test (R195). -/
def State.mayTrigger (s : State) (p : Phrase) (test : Bool) : Bool :=
  !p.control || s.modeNo == 7 || s.modeNo == 8 || s.modeNo == 9 || (s.modeNo == 11 && test)

/-- Whether every Verb of the Sentences of an activation is released. -/
def Act.sentencesDone (a : Act) (p : Phrase) : Bool := p.verbs.zipIdx.all fun q => q.1.sentence.isNone || (a.vst q.2).st == 4
/-- The class-2 trigger that a Phrase holds pending starts its activation (R134). -/
def State.startHeld (s : State) (r : Nat) (p : Phrase) : State :=
  match (s.dsp r).held.find? fun q => q.1 == p.num with
  | some (_, a) => (s.modDisp r fun d => { d with held := fdel p.num d.held }).startAct r p a
  | none => s
/-- The dispatcher ends an activation (R150, R182): what it held is free again, and a held trigger starts the next one (R134, R142). -/
def State.endAct (s : State) (r : Nat) (p : Phrase) (num : Nat) : State := ((s.dropAct r p.num num).startHeld r p).retryHeld r
/-- The sources of a missed deadline: DEADLINE_MISS, and DEADLINE_REPEAT after REPEAT_N consecutive periods, of the arm of the Phrase (R150, R341). The slack
a miss records is negative and otherwise not stated (R152): a free value. -/
def State.missed (s : State) (r : Nat) (p : Phrase) (pn : Nat) : State :=
  let old := fget (0, 0) (s.dsp r).missRun p.num
  let n := if old.2 + 1 = pn then old.1 + 1 else 1
  let arm := p.arm.map fun a => (r, a)
  let s := s.modDisp r fun d => { d with missRun := fset p.num (n, pn) d.missRun }
  let s := s.raise (.region r) { src := Src.DEADLINE_MISS, arm := arm }
  let s := if s.rd (rf r Rgn.DISP_DL_REPEAT_N) ≤ n then s.raise (.region r) { src := Src.DEADLINE_REPEAT, arm := arm } else s
  let s := match p.arm with | some a => s.modArm r a fun x => { x with missed := true } | none => s
  (s.slackIs r (-1 - (s.freeVal.toNat % 32768 : Nat))).used
/-- A class-1 activation past its deadline is ended unless its Sentences are all released (R150). -/
def State.endLateAct (s : State) (r : Nat) (p : Phrase) (a : Act) : State :=
  if p.cls = 1 && !a.sentencesDone p then ((s.markCancelled r p.num a.num).endAct r p a.num).missed r p a.pn else s

/-- A triggering entry (R134): it starts an activation, or is dropped or held by the class rules; a full list drops it (R139). A class-1 Phrase takes one
in a period at most (R133), and an activation of an earlier period has been ended at its deadline. -/
def State.trigger (s : State) (r : Nat) (p : Phrase) (entry : List W32) (test : Bool) : State :=
  let d := s.dsp r
  let olds := d.acts.filter fun a => a.phrase == p.num
  if d.quiesced || !s.mayTrigger p test then s
  else if p.cls = 0 && (!olds.isEmpty || decide (p.maxAct ≤ fget 0 d.actCount p.num)) then s.raise (.region r) { src := Src.L0_OVERRUN }
  else if p.cls = 1 then
    if 0 < fget 0 d.actCount p.num then s else (olds.foldl (fun s a => s.endLateAct r p a) s).startAct r p (s.newAct r p entry)
  else if p.cls = 2 && !olds.isEmpty then
    if fhas d.held p.num then s.inc (rf r Rgn.DISP_STAT_TRIG_DROP)
    else s.modDisp r fun d => { d with held := fset p.num (s.newAct r p entry) d.held }
  else s.startAct r p (s.newAct r p entry)

/-- Every Phrase of a region with a trigger takes an entry. -/
def State.triggerAll (s : State) (r : Nat) (t : Trig) (entry : List W32) (test : Bool) : State :=
  (s.phrasesOf r).foldl (fun s p => if p.trig == t then s.trigger r p entry test else s) s

/-- TRIGGER_POST (R134): a triggering entry of `t` (a Glint report, a timer, a host doorbell) reaches the dispatcher of region `r`. -/
def execTriggerPost (r : Nat) (t : Trig) (entry : List W32) (test : Bool) (s : State) : Host.Outcome State Fault Refusal :=
  .next (if r < s.dies then s.triggerAll r t entry test else s)

/-! ### TAKE (R137, R138) -/

/-- The cluster of an engine: 16 engines each. -/
def clusterOf (e : Nat) : Nat := e / 16
/-- The first Verb at the head of a list, in the order of the keys. -/
def DispSt.headOf (d : DispSt) (keys : List Nat) : Option (Nat × Ready) :=
  keys.findSome? fun k => match fget [] d.lists k with | x :: _ => some (k, x) | [] => none
/-- The lists of steps 1 and 2 of R138. -/
def ownKeys (c : Nat) : List Nat := (c / 2) :: ((List.range 7).map fun i => 8 + c * 8 + i + 1)
/-- Whether the dispatcher grants: not while quiesced for a power state or clock-gated in IDLE. -/
def State.grants (s : State) (r : Nat) : Bool := !(s.dsp r).quiesced && !s.mode.gated

/-- A list padded with a default to a length. -/
def padTo {α : Type} (n : Nat) (x : α) (l : List α) : List α := (l ++ List.replicate n x).take n

/-- The registers an engine holds at the grant of a Verb (R161, R162). -/
def State.loaded (s : State) (home : Nat) (p : Phrase) (a : Act) (v : VerbDecl) : Eng :=
  { d := padTo 16 0 (v.inputs.map a.input)
    p := (padTo 8 0 p.ctx.p).zipIdx.map fun q =>
      if p.ctx.persist.contains q.2 then fget q.1 (s.dsp home).ptrs (p.num * 8 + q.2) else q.1
    ofs := padTo 8 0 p.ctx.ofs
    cb := padTo 4 0 p.ctx.cb
    cl := padTo 4 0 p.ctx.cl
    tagIn := v.inputs.any a.tagged }

/-- Engine `e` of region `r` is granted the Verb at the head of a list of region `home`. -/
def State.grantVerb (s : State) (r e home key : Nat) (q : Ready) (stolen : Bool) : State :=
  match s.phraseOf home q.phrase, s.act home q.phrase q.act with
  | some p, some a =>
    match p.verbs[q.verb]? with
    | some v =>
      let g : Grant := ⟨home, q.phrase, q.act, q.verb, stolen, home != r, s.ns⟩
      let s := s.modDisp home fun d => { d with lists := fset key (fget [] d.lists key).tail d.lists }
      let s := s.modAct home q.phrase q.act fun a => a.modVerb q.verb fun x => { x with st := 2 }
      let s := if home != r then s.modDisp home fun d => { d with away := d.away ++ [(r * 128 + e, g)] } else s
      let s := s.modEng r e fun _ => { s.loaded home p a v with run := some g }
      (s.traceEvt home p q.act q.verb (if stolen then 2 else 1) (some (r * 128 + e)) (home != r) false false).retryHeld home
    | none => s
  | _, _ => s

/-- TAKE (R138): an engine that runs nothing takes the first Verb of its own lists, or blocks until one is ready. -/
def State.take (s : State) (r e : Nat) : State :=
  if s.dies ≤ r || 128 ≤ e || (s.eng r e).run.isSome then s
  else
    match (if s.grants r then (s.dsp r).headOf (ownKeys (clusterOf e)) else none) with
    | some (k, q) => s.grantVerb r e r k q false
    | none => s.modEng r e fun g => if g.blocked then g else { g with blocked := true, blockedFrom := s.ns }
def execTake (r e : Nat) (s : State) : Host.Outcome State Fault Refusal := .next (s.take r e)

/-- The other clusters of a region by distance in the ring 0 to 7, ties to the lower number (R143). -/
def ringOrder (c : Nat) : List Nat :=
  [1, 2, 3].flatMap (fun d => let x := (c + d) % 8; let y := (c + 8 - d) % 8; [min x y, max x y]) ++ [(c + 4) % 8]

/-- STEAL (R143): an engine blocked for STEAL_DELAY takes the head of a level 1 to 7 list of another cluster of its region, lowest level first. -/
def State.steal (s : State) (r e : Nat) : State :=
  let g := s.eng r e
  if s.dies ≤ r || 128 ≤ e || g.run.isSome || !g.blocked || !s.grants r || (s.rd (rf r Rgn.DISP_CFG_STEAL_EN)).testBit 0 == false then s
  else
    let s := s.runTo (g.blockedFrom + 2 * s.rd (rf r Rgn.DISP_CFG_STEAL_DELAY))
    let keys := [1, 2, 3, 4, 5, 6, 7].flatMap fun l => (ringOrder (clusterOf e)).map fun c => 8 + c * 8 + l
    if (s.ns < g.blockedFrom + 2 * s.rd (rf r Rgn.DISP_CFG_STEAL_DELAY)) || ((s.dsp r).headOf (ownKeys (clusterOf e))).isSome then s
    else match (s.dsp r).headOf keys with
      | some (k, q) => s.grantVerb r e r k q true
      | none => s
def execSteal (r e : Nat) (s : State) : Host.Outcome State Fault Refusal := .next (s.steal r e)

/-- The other dies by distance in die number modulo their number, ties to the lower (R144). -/
def dieOrder (n r : Nat) : List Nat :=
  ((List.range n).flatMap fun d => let x := (r + d) % n; let y := (r + n - d) % n; [min x y, max x y]).eraseDups.filter fun x => x != r
/-- The first portable Verb at the head of a level 4 to 7 list of a die. -/
def State.portableHead (s : State) (h : Nat) : Option (Nat × Ready) :=
  ([4, 5, 6, 7].flatMap fun l => (List.range 8).map fun c => 8 + c * 8 + l).findSome? fun k =>
    match fget [] (s.dsp h).lists k with
    | q :: _ =>
      match s.phraseOf h q.phrase with
      | some p => if (match p.verbs[q.verb]? with | some v => v.portable | none => false) then some (k, q) else none
      | none => none
    | [] => none
/-- CROSS_REGION_STEAL (R144): an engine blocked for XSTEAL_DELAY takes a portable level 4 to 7 Verb of the nearest die that lends one,
while no source acting at severity 3 stops that on either (R347). -/
def State.crossSteal (s : State) (r e : Nat) : State :=
  let g := s.eng r e
  let ok (x : Nat) : Bool := (s.rd (rf x Rgn.DISP_CFG_STEAL_EN)).testBit 1 && !s.noLending x
  if s.dies ≤ r || 128 ≤ e || g.run.isSome || !g.blocked || !s.grants r || !ok r then s
  else
    let s := s.runTo (g.blockedFrom + 2 * s.rd (rf r Rgn.DISP_CFG_XSTEAL_DELAY))
    let own := ownKeys (clusterOf e) ++ (if (s.rd (rf r Rgn.DISP_CFG_STEAL_EN)).testBit 0 then
      [1, 2, 3, 4, 5, 6, 7].flatMap fun l => (ringOrder (clusterOf e)).map fun c => 8 + c * 8 + l else [])
    if (s.ns < g.blockedFrom + 2 * s.rd (rf r Rgn.DISP_CFG_XSTEAL_DELAY)) || ((s.dsp r).headOf own).isSome then s
    else
      match (dieOrder s.dies r).findSome? fun h => if ok h then (s.portableHead h).map fun q => (h, q) else none with
      | some (h, k, q) => s.grantVerb r e h k q true
      | none => s
def execCrossRegionSteal (r e : Nat) (s : State) : Host.Outcome State Fault Refusal := .next (s.crossSteal r e)

/-- When STEAL_LOST falls due for a grant (R145): after the 2 ns tick of the 2 µs limit, in which a result is still in time. -/
def Grant.lostAt (g : Grant) : Nat := 2 * ((g.since + 2000) / 2 + 1)
/-- A Verb stolen from region `h` is taken back (R145): it is ready again at the head of its home list, and the source is raised; a later result of the thief is
discarded. -/
def State.takeBack (s : State) (h : Nat) (w : Nat × Grant) : State :=
  let g := w.2
  let s := s.modDisp h fun d => { d with away := d.away.filter fun x => x != w }
  match s.phraseOf h g.phrase, s.act h g.phrase g.act with
  | some p, some _ =>
    let s := s.modAct h g.phrase g.act fun a => a.modVerb g.verb fun x => { x with st := 1, readyAt := s.ns }
    let s := s.modDisp h fun d => { d with lists := fmod [] p.listKey (fun l => ⟨g.phrase, g.act, g.verb⟩ :: l) d.lists }
    (s.traceEvt h p g.act g.verb 0 none false false false).raise (.region h) { src := Src.STEAL_LOST }
  | _, _ => s.raise (.region h) { src := Src.STEAL_LOST }
/-- STEAL_LOST (R145): 2 µs after the grant of the oldest Verb away from region `h` without a result. -/
def State.stealLost (s : State) (h : Nat) : State :=
  match (s.dsp h).away with
  | [] => s
  | w :: _ =>
    let s := s.runTo w.2.lostAt
    if s.ns < w.2.lostAt then s else s.takeBack h w
def execStealLost (h : Nat) (s : State) : Host.Outcome State Fault Refusal := .next (s.stealLost h)

/-! ### Completion and release (R140, R141, R150, R181 to R183) -/

/-- A member put into the change of the period that ends at the epoch with PN `k`. -/
def PubSt.put (p : PubSt) (k member : Nat) (w : W32) : PubSt :=
  if p.changes.any fun q => q.1 == k then { p with changes := p.changes.map fun q => if q.1 = k then (k, fset member w q.2) else q }
  else { p with changes := p.changes ++ [(k, [(member, w)])] }
/-- A GOOSE member updated by a released result (R207): the updates of a period are one change, due at the next epoch plus STN_GOOSE.OFS. -/
def State.gooseUpdate (s : State) (set member : Nat) (w : W32) : State :=
  { s with stn := { s.stn with pubs := fmod {} set (fun (p : PubSt) => p.put s.pnNext member w) s.stn.pubs } }

/-- Feed-forward word `word` of an arm written by FF_AC (R205): a held one is counted, and a word held HOLD_N periods in a row raises FF_LOST. -/
def State.ffWritten (s : State) (r a word : Nat) (held : Bool) : State :=
  let n := if held then fget 0 (s.armSt r a).ffRun word + 1 else 0
  let s := s.modArm r a fun x => { x with ffRun := fset word n x.ffRun }
  let s := if held then s.inc (af r a Arm.ARM_STAT_FF_HOLD) else s
  s.setCond (.region r) { src := Src.FF_LOST, arm := some (r, a) } ((s.armSt r a).ffRun.any fun q => decide (s.rd (af r a Arm.ARM_FF_HOLD_N) ≤ q.2))

/-- The partner's copy was applied in this 2 ns tick: it overwrites a release to the same words (R375). -/
def State.copiedNow (s : State) : Bool := s.mirror.copyTick == some (s.ns / 2)
/-- One result made visible (R141). -/
def State.showResult (s : State) (r : Nat) : Result → State
  | .store a w => s.setWord r a w
  | .record c rec0 => s.modSlot (idxRegion c) (idxTree c) (idxSlot c) fun x => { x with staged := some rec0 }
  | .goose set m w => s.gooseUpdate set m w
  | .dir a d => (if s.copiedNow then s else s.modArm r a fun x => { x with dirPrev := d }).wr (af r a Arm.ARM_SEL_DIR) (b2n d)
  | .armOut a n d neg clamp =>
    let s := ((s.wr (af r a Arm.ARM_OUT_N_INT) n).wr (af r a Arm.ARM_OUT_DUTY) d).wr (af r a Arm.ARM_OUT_NEG) (b2n neg)
    if clamp then s.inc (af r a Arm.ARM_STAT_NCLAMP) else s
  | .edgeCap a n => s.incBy (af r a Arm.ARM_STAT_EDGE_CAP) n
  | .pointer ph i v => s.modDisp r fun d => { d with ptrs := fset (ph * 8 + i) v d.ptrs }
  | .lim a u tag => s.modArm r a fun x => { x with limPrev := u, uOut := u, outTag := tag }
  | .ff a w held => s.ffWritten r a w held
  | .handover ph slew dl n =>
    s.postEvent 0x05 [(2, 1, r), (3, 1, b2n slew), (4, 2, ph), (8, 8, s.ns), (16, 4, dl.toNat), (20, 2, n)] false
  | .slewStart a => s.raise (.region r) { src := Src.HOVR_SLEW, arm := some (r, a) }

/-- Whether the partner's copy overwrites a result whole: one to a mirrored word or a mirrored persistent pointer (R375). -/
def State.overwritten (s : State) (r : Nat) (x : Result) : Bool :=
  s.copiedNow && match x with
    | .store a _ => (s.image.mirroredOf r).contains (.word a)
    | .pointer ph i _ => (s.image.mirroredOf r).contains (.pointer ph i)
    | _ => false
/-- A result becomes visible, unless the copy overwrites it. -/
def State.applyResult (s : State) (r : Nat) (x : Result) : State := if s.overwritten r x then s else s.showResult r x
/-- Results made visible, in order. -/
def State.applyResults (s : State) (r : Nat) (l : List Result) : State := l.foldl (fun s x => s.applyResult r x) s

/-- Whether a complete Verb may be released (R140): every lower-numbered Verb of its Sentence has completed. -/
def Act.mayRelease (a : Act) (p : Phrase) (i : Nat) : Bool :=
  (a.vst i).st == 3 && match p.verbs[i]? with
    | some v => match v.sentence with
      | none => true
      | some q => p.verbs.zipIdx.all fun w => match w.1.sentence with
          | some u => u.1 != q.1 || decide (q.2 ≤ u.2) || [3, 4].contains (a.vst w.2).st
          | none => true
    | none => false

/-- The slack of a class-1 Sentence whose last Verb has been released (R152). -/
def State.sentenceOut (s : State) (r : Nat) (p : Phrase) (num sen : Nat) : State :=
  match s.act r p.num num with
  | some a =>
    if p.verbs.zipIdx.all fun q => (match q.1.sentence with | some x => x.1 != sen | none => true) || (a.vst q.2).st == 4 then
      s.slackIs r ((s.deadlineOf p a.epochAt : Int) - s.ns)
    else s
  | none => s
/-- The release of Verb `i` (R140, R141): its results become visible. Those of a class-1 Sentence are kept until the Sentences of the activation are all
released (R38, R150). -/
def State.releaseVerb (s : State) (r : Nat) (p : Phrase) (num i : Nat) (x : VSt) : State :=
  let s := s.modAct r p.num num fun a => a.modVerb i fun y => { y with st := 4 }
  let s := s.traceEvt r p num i 4 none false x.tag false
  match p.cls == 1, p.verbs[i]?.bind fun v => v.sentence with
  | true, some q => (s.modAct r p.num num fun a => { a with passed := a.passed ++ x.results }).sentenceOut r p num q.1
  | _, _ => s.applyResults r x.results
/-- Every release that is due in an activation. -/
def State.releaseAct (s : State) (r : Nat) (p : Phrase) (num : Nat) : State :=
  p.releaseOrder.foldl (fun s i =>
    match s.act r p.num num with
    | none => s
    | some a => if a.mayRelease p i then s.releaseVerb r p num i (a.vst i) else s) s

/-- Whether every Verb is released. -/
def Act.allDone (a : Act) : Bool := a.verbs.all fun x => x.st == 4

/-- A class-1 activation whose Sentences are all released makes their results visible (R38, R148). -/
def State.commitAct (s : State) (r : Nat) (p : Phrase) (num : Nat) : State :=
  match s.act r p.num num with
  | none => s
  | some a =>
    if p.cls != 1 || !a.sentencesDone p then s
    else (s.applyResults r a.passed).modAct r p.num num fun a => { a with passed := [] }

/-- The end of an activation whose Verbs are all released: a held trigger of class 2 starts the next one, and Phrases triggered by its
completion are triggered (R133, R134). -/
def State.finishAct (s : State) (r : Nat) (p : Phrase) (num : Nat) : State :=
  match s.act r p.num num with
  | none => s
  | some a =>
    if !a.allDone then s
    else
      let s := (s.modDisp r fun d => { d with acts := d.acts.filter fun b => !(b.phrase == p.num && b.num == num) }).startHeld r p
      s.triggerAll r (.completion p.num) [] false

/-- The sources and counters of a completed Verb (R181, R183), on the region of the engine that ran it, also where the Verb was stolen across regions (log entry 94,
DESIGN CHOICE). -/
def State.engFaults (s : State) (r : Nat) (e : Eng) : State :=
  let s := if e.vsat then (s.inc (rf r Rgn.ENG_STAT_SAT_VERBS)).raise (.region r) { src := Src.ENG_SAT } else s
  let s := if e.wsat then (s.inc (rf r Rgn.ENG_STAT_WSAT_VERBS)).raise (.region r) { src := Src.ENG_WSAT } else s
  if e.addrErr then (s.inc (rf r Rgn.ENG_STAT_ADDR_ERRS)).raise (.region r) { src := Src.ENG_ADDR } else s

/-- The block request of a completed BLOCK_REQ whose condition was true: raised at completion, as R158 has it, not at its release in Sentence order, in which R141
lists it (log entry 92, DESIGN CHOICE). -/
def State.blockReq (s : State) (h : Nat) (e : Eng) : State :=
  match e.blockReq with
  | some (true, v) => s.raise (.region h) { src := Src.PHRASE_BLOCK, conv := some v }
  | some (false, a) => s.raise (.region h) { src := Src.PHRASE_BLOCK, arm := some (h, a) }
  | none => s

/-- The results of a completed Verb beside its OUT operands, which are all that a portable one has (R141, R162, R177, R178). -/
def Eng.results (e : Eng) (p : Phrase) (portable : Bool) : List Result :=
  if portable then [] else e.stores.map (fun q => .store q.1 q.2) ++ p.ctx.persist.map (fun i => .pointer p.num i (e.p.getD i 0)) ++ e.res

/-- The completion of a Verb at its home: its operands pass along the graph, its results are released in order, successors become ready. -/
def State.completeHome (s : State) (p : Phrase) (g : Grant) (e : Eng) : State :=
  let h := g.home
  let tag := e.tagIn || e.vsat || e.wsat
  let s := s.modAct h p.num g.act fun a => a.modVerb g.verb fun x =>
    { x with st := 3, outs := e.outs.foldl (fun m q => fset q.1 q.2 m) [], tag := tag, results := e.results p (match p.verbs[g.verb]? with | some v => v.portable | none => false) }
  let s := s.blockReq h e
  let s := (s.releaseAct h p g.act).commitAct h p g.act
  ((s.readyAct h p g.act).finishAct h p g.act).retryHeld h

/-- VERB_COMPLETE (R140): engine `e` of region `r` signals completion, `q` quarter nanoseconds on. The results of an activation that has ended
(R150), of a Verb taken back (R145), or with ADDR_ERR (R182) are discarded; the last ends the activation. A result that arrives after the limit of R145, or
after the deadline, finds its Verb taken back, or its activation ended, whether or not that event has been commanded. -/
def State.verbComplete (s : State) (r e q : Nat) : State :=
  let x := s.eng r e
  match x.run with
  | none => s
  | some g =>
    let s := s.runBy q
    let w := (r * 128 + e, g)
    let away := (s.dsp g.home).away.contains w
    let lost := g.xregion && away && decide (g.lostAt ≤ s.ns)
    let s := s.modEng r e fun _ => {}
    let s := if lost then s.takeBack g.home w else s.modDisp g.home fun d => { d with away := d.away.filter fun y => y != w }
    let s := s.engFaults r x
    match s.phraseOf g.home g.phrase with
    | none => s
    | some p =>
      let a := s.act g.home g.phrase g.act
      let late := match a with | some a => p.cls == 1 && !a.sentencesDone p && decide (s.deadlineOf p a.epochAt < s.ns) | none => false
      let s := s.traceEvt g.home p g.act g.verb 3 (some (r * 128 + e)) g.xregion (x.tagIn || x.vsat || x.wsat) (x.cancelled || late)
      match a with
      | none => s
      | some a =>
        if late then s.endLateAct g.home p a
        else if g.xregion && (lost || !away) then s
        else if x.addrErr then s.endAct g.home p g.act
        else s.completeHome p g x
def execVerbComplete (r e q : Nat) (s : State) : Host.Outcome State Fault Refusal := .next (s.verbComplete r e q)

/-! ### The speed gauges (R151, R405) and the slack (R152) -/

/-- A completed calibration Verb of a cluster (R405): K moves by at most 1/256 toward agreement of the predicted with the measured duration, and the
event record is posted. -/
def State.calibrated (s : State) (r c measured predicted : Nat) : State :=
  if !(s.dsp r).calPend.contains c || measured = 0 then s
  else
    let f := (rf r Rgn.DISP_GAUGE_K0_K).at (4 * c)
    let k := s.rd f
    let k' := min 65535 (clampN (k - 64) (k + 64) (k * predicted / measured))
    let s := (s.wr f k').modDisp r fun d => { d with calPend := d.calPend.filter fun x => x != c }
    s.postEvent 0x08 [(2, 1, r), (3, 1, c), (8, 8, s.ns), (16, 2, s.mode.calMv), (18, 2, k')] false

/-- GAUGE_MEASURE (R151): the speeds of the clusters of region `r` in unsigned Q2.14, and the calibration Verbs that completed in the period (cluster,
measured and predicted duration). The slowest is shown; below 1.0 on 2 consecutive periods it raises CORE_SLOW. -/
def State.gauge (s : State) (r : Nat) (speeds : List Nat) (cal : List (Nat × Nat × Nat)) : State :=
  if s.dies ≤ r || speeds.isEmpty then s
  else
    let ratio := speeds.foldl min 65535
    let s := s.wr (rf r Rgn.DISP_GAUGE_RATIO) ratio
    let n := if ratio < 16384 then (s.dsp r).gaugeLow + 1 else 0
    let s := s.modDisp r fun d => { d with gaugeLow := n }
    let s := s.setCond (.region r) { src := Src.CORE_SLOW } (decide (2 ≤ n))
    let s := if 2 ≤ n then { s with mode := { s.mode with coreSlowSince := true } } else s
    let s := cal.foldl (fun s q => s.calibrated r q.1 q.2.1 q.2.2) s
    if s.mode.gaugeWait then { s with mode := { s.mode with gaugeWait := false } }.judgePending else s
def execGaugeMeasure (r : Nat) (speeds : List Nat) (cal : List (Nat × Nat × Nat)) (s : State) : Host.Outcome State Fault Refusal :=
  .next (s.gauge r speeds cal)

/-- DISP_SLACK_READ (R152, R485): the value is returned and the field reset to +32,767. -/
def execDispSlackRead (r : Nat) (s : State) : Host.Outcome State Fault Refusal :=
  .next (let q := s.takeSlack r; { q.1 with lastRead := BitVec.ofNat 32 q.2 })

end Sys2Proof.Machine
end

