-- ==== Sys2Proof/Machine/Rank.lean ====
section
/-! DEFINITION. CLASS1_DEADLINE and SNAPSHOT_COMPLETE (R38, R147 to R150, R227, R228, R238 to R241, R374, R420). -/

namespace Sys2Proof.Machine

/-! ### The deadline (R150) -/

/-- The class-1 activations of a region whose Sentences are not all released are ended (R150): all of them, or those of one Phrase. -/
def State.endLate (s : State) (r : Nat) (phrase : Option Nat) : State :=
  (s.dsp r).acts.foldl (fun s a =>
    match s.phraseOf r a.phrase with
    | some p =>
      if phrase.isNone || phrase == some p.num then s.endLateAct r p a else s
    | none => s) s

/-! ### The records of the coming period (R38, R102, R246) -/

/-- A record that repeats the previous one: CAL and EDGE_OFS are 0. -/
def CmdRec.again (x : CmdRec) : CmdRec := { x with cal := false, edge := 0 }
/-- The record frozen for the coming epoch: the one staged, or the previous one again (R38, R246); OFF in M5, M6 and M10. -/
def SlotSt.freezeRec (x : SlotSt) (off : Bool) : SlotSt :=
  { x with recNext := if off then ⟨0, false, 0, 0⟩ else match x.staged with | some y => y | none => CmdRec.again x.recNow, staged := none }
/-- The records of a region are frozen. -/
def State.freezeRecs (s : State) (r : Nat) : State :=
  let off := s.modeNo == 5 || s.modeNo == 6 || s.modeNo == 10
  (s.treesOf r).foldl (fun s t => s.modTree r t fun x => { x with slots := x.slots.map fun (p : Nat × SlotSt) => (p.1, SlotSt.freezeRec p.2 off) }) s

/-! ### STATE frames (R374) -/

/-- A 4-bit entry of the command map: CMD of the record frozen for the coming epoch, 0xF for none. -/
def State.mapEntry (s : State) (r i : Nat) : BitVec 4 :=
  let t := i / 128
  if s.on (tf r t Tree.TREE_CFG_EN) && (i % 128 < s.slotsN r t) && s.mapSerial r t (i % 128) != 0 then (s.slot r t (i % 128)).recNext.cmd else 15
/-- The arm block of a local arm. -/
def State.armCopy (s : State) (r a : Nat) : ArmCopy :=
  let cells := s.armCells r a
  let pwm := cells.zipIdx.find? fun q => let c := (s.cellSlot q.1).recNext.cmd; c == 3 || c == 5
  { nInt := BitVec.ofNat 13 (s.rd (af r a Arm.ARM_OUT_N_INT))
    duty := BitVec.ofNat 16 (s.rd (af r a Arm.ARM_OUT_DUTY))
    neg := s.on (af r a Arm.ARM_OUT_NEG)
    dirPrev := (s.armSt r a).dirPrev
    pwmIdx := match pwm with | some q => BitVec.ofNat 16 q.2 | none => 0xFFFF }
/-- The mirrored words of a region in image order. A persistent pointer takes one word, its address in bits 22:0 (R374; log entry 24, DESIGN CHOICE). -/
def State.mirroredWords (s : State) (r : Nat) : List W32 :=
  (s.image.mirroredOf r).map fun
    | .word a => s.rgnWord r a
    | .pointer ph i => (fget 0 (s.dsp r).ptrs (ph * 8 + i)).zeroExtend 32
/-- The copy set of a region as frames of at most 1,024 bytes: two of the map, one of the arm block and 240 words, then 256 words each. -/
def State.copySet (s : State) (r : Nat) : List StateSeg :=
  let ws := s.mirroredWords r
  let map := (List.range 4096).map (s.mapEntry r)
  let n := 3 + ceilDiv (ws.length - 240) 256
  (List.range n).map fun i =>
    { region := r
      seg := i
      last := i + 1 == n
      map := if i < 2 then (map.drop (2048 * i)).take 2048 else []
      arms := if i = 2 then (List.range 4).map (s.armCopy r) else []
      words := if i < 2 then [] else if i = 2 then ws.take 240 else (ws.drop (240 + 256 * (i - 3))).take 256 }

/-- CLASS1_DEADLINE (R38, R150, R239, R374): the class-1 deadline of region `r`; with a Phrase, the earlier deadline that Phrase declares. Late
activations end; at the region's deadline the records of the coming period and the snapshot are frozen, the unit in M7 or M9 sends its copy set and
the unit in M8 expects its partner's. -/
def State.class1Deadline (s : State) (r : Nat) (phrase : Option Nat) : State :=
  if s.dies ≤ r || !s.epochs || !s.running then s
  else match phrase with
  | some n =>
    match s.phraseOf r n with
    | some p => (s.runTo (s.deadlineOf p s.time.epochAt)).endLate r (some n)
    | none => s
  | none =>
    let s := s.runTo (s.time.epochAt + s.period - s.rd Reg.BEACON_LEAD_LEAD - 500)
    if (s.rgn r).frozenPn == some s.pn then s
    else
      let s := (s.endLate r none).freezeRecs r
      let s := if 6 ≤ s.modeNo then s.freeze r
        else (s.rgnArms r).foldl (fun s p => (s.armCells r p.2).foldl (fun s c => s.addTerm r p.2 c) s) s
      let s := s.modRgn r fun x => { x with frozenPn := some s.pn }
      let s := if s.modeNo == 7 || s.modeNo == 9 then
          let segs := s.copySet r
          s.modMirror fun m => { m with txState := m.txState.filter (fun g => g.region != r) ++ segs }
        else s
      if s.modeNo == 8 then s.modMirror fun m => { m with copyDue := some s.pn } else s
def execClass1Deadline (r : Nat) (phrase : Option Nat) (s : State) : Host.Outcome State Fault Refusal := .next (s.class1Deadline r phrase)

/-! ### Orders (R238) -/

/-- Whether key `a` comes before key `b`: primary key ascending, lower thermal score, lower arm-order index. -/
def keyBefore (a b : Int × Int × Nat) : Bool :=
  if a.1 != b.1 then decide (a.1 < b.1) else if a.2.1 != b.2.1 then decide (a.2.1 < b.2.1) else decide (a.2.2 < b.2.2)
/-- Insertion by key. -/
def insKey (x : Int × Int × Nat) : List (Int × Int × Nat) → List (Int × Int × Nat)
  | [] => [x]
  | y :: t => if keyBefore x y then x :: y :: t else y :: insKey x t
/-- The arm-order indices of the available cells in the charge or the discharge order. -/
def orderOf (band tieQ : Nat) (charge : Bool) (l : List SnapCell) : List Nat :=
  let q := 2 ^ tieQ * 16384
  let keys := l.zipIdx.filterMap fun p =>
    if !p.1.avail then none
    else
      let b : Int := if p.1.inc then (band * 16384 : Nat) else 0
      let k : Int := if charge then ((p.1.vPred : Int) - b) / q else -(((p.1.vPred : Int) + b) / q)
      some (k, p.1.temp, p.2)
  (keys.foldl (fun acc x => insKey x acc) []).map fun x => x.2.2

/-! ### The snapshot buffers (R240, R241) -/

/-- A code or sum converted to Q8.24 by a GAIN (Q2.30) and a SHIFT (R190), clamped. -/
def scale (c : Int) (gain : W32) (shift : Nat) : W32 := clamp32 (c * gain.toInt * (2 ^ shift : Nat) / 2 ^ 30)
/-- The place of snapshot buffer `b` of local arm `a`. -/
def State.snapAt (s : State) (r a b : Nat) : Nat := s.rd (rf r Rgn.RANK_BASE_BASE) + 0x40000 + b % 2 * 0x40000 + a * 0x10000
/-- The sum of floor(V_PRED) over the available cells. -/
def SnapArm.vSum (x : SnapArm) : Nat := (x.cells.map fun c => if c.avail then c.vPred / 16384 else 0).sum
/-- The sum of half C_EST times floor(V_PRED) squared, in units of 2^32 µF·code² (R241). -/
def SnapArm.wArm (x : SnapArm) : Nat := (x.cells.map fun c => if c.avail then c.cEst * (c.vPred / 16384) ^ 2 else 0).sum / 2 ^ 41
/-- N_AV. -/
def SnapArm.nAv (x : SnapArm) : Nat := (x.cells.filter fun c => c.avail).length
/-- The number of available cells with INC = 1. -/
def SnapArm.incAv (x : SnapArm) : Nat := (x.cells.filter fun c => c.avail && c.inc).length
/-- The positions of an order (R240): index and PFX of each, and the end mark. -/
def posWords (l : List SnapCell) (ord : List Nat) : List Byte :=
  let inc (i : Nat) : Nat := match l[i]? with | some c => b2n c.inc | none => 0
  let res := ord.foldl (fun (acc : List Byte × Nat) i => (acc.1 ++ leBytes 4 (i + acc.2 * 2 ^ 13), acc.2 + inc i)) ([], 0)
  res.1 ++ leBytes 4 (0x1FFF + res.2 * 2 ^ 13)
/-- The position of a cell in an order, 0x1FFF where it has none. -/
def posIn (ord : List Nat) (i : Nat) : Nat := match ord.findIdx? fun j => j == i with | some n => n | none => 0x1FFF
/-- The snapshot of an arm in its buffer, and the arm's observer table (R228, R240). -/
def State.writeSnapArm (s : State) (r pn : Nat) (x : SnapArm) : State :=
  let a := x.arm
  let pb := s.rd (af r a Arm.ARM_PBASE_BASE)
  let sh := (s.rgnWord r (pb + 0x10)).toNat
  let vw := scale x.vSum (s.rgnWord r (pb + 0x0C)) (bits sh 0 4)
  let ww := scale x.wArm (s.rgnWord r (pb + 0x14)) (bits sh 8 4)
  let band := s.rd (af r a Arm.ARM_SEL_SWAP_BAND)
  let tq := s.rd (af r a Arm.ARM_RANK_TIE_Q)
  let ch := orderOf band tq true x.cells
  let dc := orderOf band tq false x.cells
  let avg := if x.nAv = 0 then 0 else x.vSum / x.nAv
  let b := s.snapAt r a pn
  let hdr := leBytes 4 x.nAv ++ leBytes 4 vw.toNat ++ leBytes 4 ww.toNat ++ leBytes 4 x.cells.length ++ leBytes 4 avg ++ leBytes 4 x.incAv
    ++ leBytes 4 (b2n x.dirPrev) ++ leBytes 4 (unsext 32 x.i) ++ leBytes 8 pn ++ leBytes 24 0
  let cells := x.cells.zipIdx.flatMap fun q =>
    leBytes 4 (posIn ch q.2 + posIn dc q.2 * 2 ^ 13 + b2n q.1.avail * 2 ^ 26 + b2n q.1.inc * 2 ^ 27 + b2n q.1.calDue * 2 ^ 28 + b2n q.1.isol * 2 ^ 29)
  let s := s.rgnWrite r b (hdr ++ cells)
  let s := s.rgnWrite r (b + 0x4040) (posWords x.cells ch)
  let s := s.rgnWrite r (b + 0x8080) (posWords x.cells dc)
  let obs := x.cells.flatMap fun c => leBytes 4 c.vPred ++ leBytes 4 (c.vBase + c.age * 2 ^ 18) ++ leBytes 4 c.cEst
    ++ leBytes 4 (b2n c.avail + 2 * b2n c.inc + 4 * b2n c.calib + 8 * b2n c.isol + 16 * b2n c.excl + 32 * b2n c.stale + 64 * b2n c.noBase + unsext 16 c.temp * 256)
  let s := s.rgnWrite r (s.rd (rf r Rgn.RANK_BASE_BASE) + a * 0x10000) obs
  s.modRgn r fun y => { y with snapIdx := fset (pn % 2 * 4 + a) (x.cells.map fun c => c.cell) y.snapIdx }

/-! ### Telemetry (R420) -/

/-- A field of TELEM_SEL of ring `n`. -/
def State.telem (s : State) (n : Nat) (f : Fld) : Nat := s.rd (ringF n f)
/-- The arm record (type 0x10). -/
def State.armTelem (s : State) (n r pn : Nat) (x : SnapArm) : State :=
  let a := x.arm
  let b := s.snapAt r a pn
  let st := s.armSt r a
  s.postRing n 0x10 [(2, 1, r), (3, 1, a), (4, 2, x.nAv), (6, 2, s.rd (af r a Arm.ARM_OUT_N_INT)), (8, 4, pn), (12, 4, st.uOut.toNat),
    (16, 4, (s.rgnWord r (b + 4)).toNat), (20, 4, unsext 32 x.i), (24, 2, s.rd (af r a Arm.ARM_OUT_DUTY)),
    (26, 1, s.rd (af r a Arm.ARM_OUT_NEG) + 2 * b2n st.dirPrev + 4 * b2n st.missed + 8 * b2n st.outTag), (28, 4, (s.rgnWord r (b + 8)).toNat)] false
/-- The cell record (type 0x11). -/
def State.cellTelem (s : State) (n : Nat) (ts : Bool) (x : SnapCell) : State :=
  let y := s.cellSlot x.cell
  let g := y.last
  let cv := match g with | some g => g.cv.toNat + b2n g.valid * 2 ^ 18 + g.tag.toNat * 2 ^ 19 | none => 0
  let stt := match g with | some g => g.status.word | none => 0
  let flt := match g with | some g => g.fault.word | none => 0
  let tmp := match g with | some g => g.temp0.toNat | none => 0
  s.postRing n 0x11 [(2, 2, x.cell), (4, 3, cv), (7, 1, y.recNext.cmd.toNat + 16 * b2n y.recNext.cal), (8, 3, stt), (12, 2, tmp), (16, 4, flt),
    (20, 4, x.vPred), (24, 6, if ts then timeNs y.lastAt else 0), (30, 1, if ts then timeQ y.lastAt else 0)] false
/-- The records of one region on one telemetry ring: arms, the cells of the period's turn, or the Phrases' words (type 0x12). -/
def State.telemRing (s : State) (n r pn : Nat) (arms : List SnapArm) : State :=
  if !(s.telem n Reg.TELEM_SEL_REGIONS).testBit r then s
  else
    let dv := s.telem n Reg.TELEM_SEL_DIV
    match s.telem n Reg.TELEM_SEL_CLASS with
    | 0 => arms.foldl (fun s x => s.armTelem n r pn x) s
    | 1 => arms.foldl (fun s x => x.cells.zipIdx.foldl (fun s q =>
        if q.2 % dv = pn % dv then s.cellTelem n (s.telem n Reg.TELEM_SEL_TS == 1) q.1 else s) s) s
    | 2 => (s.phrasesOf r).foldl (fun s p =>
        if p.tele.isEmpty then s
        else s.postRing n 0x12 ([(2, 2, p.num), (4, 4, pn)] ++ (p.tele.take 6).zipIdx.map fun q => (8 + 4 * q.2, 4, (s.rgnWord r q.1).toNat)) false) s
    | _ => s

/-- SNAPSHOT_COMPLETE (R239, R420): the frozen snapshot of region `r` is in its buffer, with the observer table, and the telemetry records of the
period are posted. -/
def State.snapshotComplete (s : State) (r : Nat) : State :=
  match (s.rgn r).snap with
  | none => s
  | some x =>
    let s := x.arms.foldl (fun s a => s.writeSnapArm r x.pn a) s
    let s := s.modRgn r fun y => { y with snap := none }
    let s := (s.ringsOfKind 3).foldl (fun s n => s.telemRing n r x.pn x.arms) s
    x.arms.foldl (fun s a => s.modArm r a.arm fun y => { y with missed := false }) s
def execSnapshotComplete (r : Nat) (s : State) : Host.Outcome State Fault Refusal := .next (s.snapshotComplete r)

end Sys2Proof.Machine
end

