-- ==== Sys2Proof/Machine/Writers.lean ====
section
/-! DEFINITION. What the Verbs of an image may store to region memory (R175, R193, R197, R199, R214 to R216), and the programs of the image (R179, R185). -/

namespace Sys2Proof.Machine

/-- Whether an instruction is a memory instruction, and whether it stores (R178). -/
def memOp : DI → Bool
  | .ld .. | .st .. | .macm .. => true
  | _ => false
def storeOp : DI → Bool
  | .st .. => true
  | _ => false
/-- The instructions of a program, none where a word is reserved (R185). -/
def decodeProg (l : List W32) : Option (List DI) := l.mapM DI.ofWord

/-- The block of a loop (R503). -/
def State.loopAt (s : State) (r l : Nat) : Nat := s.rd (rf r Rgn.LOOP_BASE_BASE) + l * 0x140
/-- The parameter block of a local arm (R502). -/
def State.armAt (s : State) (r a ofs : Nat) : Nat := s.rd (af r a Arm.ARM_PBASE_BASE) + ofs
/-- A byte of it. -/
def State.armByte (s : State) (r a ofs : Nat) : Nat := leVal (s.rgnRead r (s.armAt r a ofs) 1)
/-- The local arm of a Phrase: its own, or the lowest of its converter share (R215). -/
def State.armOfPhrase (s : State) (p : Phrase) : Nat :=
  match p.arm, p.trig with
  | some a, _ => a
  | none, .sample n => if 8 ≤ n then (match (s.convArms (n - 8)).find? fun q => q.1 == p.region with | some q => q.2 | none => 0) else n
  | none, _ => 0

end Sys2Proof.Machine

namespace Sys2Proof
open Sys2Proof.Machine

/-- Whether a Verb is a program of the image, not one of the library's HSEL and FF_AC (log entry 27, DESIGN CHOICE). -/
def VerbDecl.custom (v : VerbDecl) : Bool := v.opc == 0x0F && v.params.getD 0 0 != 1 && v.params.getD 0 0 != 2

end Sys2Proof

namespace Sys2Proof.Machine

/-- The words of the wrapper that HSEL may store (R214 to R216): the control word and the three after it, and for each slot its preset word and Y_LAST of its loop. -/
def State.wrapStores (s : State) (p : Phrase) : List (Nat × Nat) :=
  match p.wrapWords with
  | none => []
  | some w => (w, 16) :: [0, 1].flatMap fun k => [(p.wrapSlots.getD (3 * k) 0, 4), (s.loopAt p.region (p.wrapSlots.getD (3 * k + 2) 0) + 8, 4)]
/-- The ranges (base, bytes) of region memory a Verb may store to: the state words and Y_LAST of its loop, LIM_DIR of the arm's loops, the output and the wrapper's
words of HSEL, the word of FF_AC, and, for a program with a store, every window that its Phrase may write (R175). -/
def State.stores (s : State) (p : Phrase) (v : VerbDecl) : List (Nat × Nat) :=
  let k (i : Nat) : Nat := v.params.getD i 0
  let lb := s.loopAt p.region (k 0)
  let arm := s.armOfPhrase p
  match v.opc with
  | 0x03 => [(lb + 0x34 + 32 * k 1, 8), (lb + 8, 4)]
  | 0x04 => [(lb + 0x12C, 4), (lb + 8, 4)]
  | 0x05 => [0xD8, 0xD9, 0xDA].map fun o => (s.loopAt p.region (s.armByte p.region arm o) + 0x0C, 4)
  | 0x0F =>
    if k 0 = 1 then (k 1, 4) :: s.wrapStores p
    else if k 0 = 2 then [(s.armAt p.region arm (0xD0 + 4 * k 1), 4)]
    else if (match decodeProg v.prog with | some l => l.any storeOp | none => false) then
      (p.windows.filter fun w => w.write).map fun w => (w.base, w.len)
    else []
  | _ => []
/-- Whether two ranges share a byte. -/
def overlap (a b : Nat × Nat) : Bool := decide (a.1 < b.1 + b.2) && decide (b.1 < a.1 + a.2)

end Sys2Proof.Machine
end

