-- ==== Sys2Proof/Machine/Verbs.lean ====
section
/-! DEFINITION. The Verbs of R135: what each does on the engine that runs it, with the operands, the parameters of the image and region memory. What a
Verb makes visible is held on the engine until VERB_COMPLETE. A command for a Verb that the engine does not run has no effect (log entry 27, DESIGN CHOICE). -/

namespace Sys2Proof.Machine

/-! ### Shared -/

/-- Parameter `i` of a Verb. -/
def prm (v : VerbDecl) (i : Nat) : Nat := v.params.getD i 0
/-- What the engine runs, if it is a Verb of this opcode. -/
def State.runs (s : State) (r e opc : Nat) : Option (Grant × Phrase × Act × VerbDecl) :=
  match (s.eng r e).run with
  | none => none
  | some g =>
    match s.phraseOf g.home g.phrase, s.act g.home g.phrase g.act with
    | some p, some a => (match p.verbs[g.verb]? with | some v => if v.opc == opc then some (g, p, a, v) else none | none => none)
    | _, _ => none
/-- The effect of a Verb on its engine. -/
def State.onVerb (s : State) (r e opc : Nat) (f : Grant → Phrase → Act → VerbDecl → Eng → Eng) : State :=
  match s.runs r e opc with
  | some (g, p, a, v) => s.modEng r e fun x => f g p a v x
  | none => s

/-- An output word. -/
def Eng.put (e : Eng) (n : Nat) (w : W32) : Eng := { e with outs := e.outs.filter (fun q => q.1 != n) ++ [(n, w)] }
/-- A result held for release. -/
def Eng.give (e : Eng) (x : Result) : Eng := { e with res := e.res ++ [x] }
/-- Operand n. -/
def Eng.opd (e : Eng) (n : Nat) : W32 := e.d.getD n 0
/-- A value clamped to a word, with Z, N and WSAT (R169, R180, R181). -/
def Eng.word (e : Eng) (x : Int) : Eng × W32 :=
  let e := e.zn (clamp32 x)
  ({ e with wsat := e.wsat || clamps32 x }, clamp32 x)
/-- An integer as a word. -/
def natW (n : Nat) : W32 := BitVec.ofNat 32 n
/-- A word of the parameter block of a local arm (R502). -/
def State.armWord (s : State) (r a ofs : Nat) : W32 := s.rgnWord r (s.armAt r a ofs)
/-- Whether a loop is CLOSED (R208). -/
def State.loopClosed (s : State) (r l : Nat) : Bool :=
  if l < 32 then (s.rd (rf r Rgn.LOOP_STATE0_CLOSED)).testBit l else (s.rd (rf r Rgn.LOOP_STATE1_CLOSED)).testBit (l - 32)
/-- Whether a loop is CLOSED for an activation: the states in force at the epoch of its trigger (R208). -/
def Act.closed (a : Act) (l : Nat) : Bool := a.loops.testBit l
/-- The memory of a Verb (R175, R181). -/
def State.mem (s : State) (g : Grant) (p : Phrase) : MemView := s.memOf g.home p.windows
/-- The limit set in force for an activation (R224): RT in M9, RUN otherwise. -/
def limitSet (a : Act) : Nat := if a.rt then 0xA0 else 0x80

/-! ### FETCH and MAC (R135, R168, R193, R194) -/

/-- FETCH: words `first` on of the triggering entry, at most 8. -/
def execVerbFetch (r e : Nat) (s : State) : Host.Outcome State Fault Refusal :=
  .next (s.onVerb r e 0x01 fun _ _ a v x => (List.range (min 8 (prm v 1))).foldl (fun x i => x.put i (a.entry.getD (prm v 0 + i) 0)) x)

/-- The words of memory that a source of an error row takes (R193, R224), and its value: entry words and rank words are operands 0 to 8; I_DC_REF follows the
limit set in force. -/
def State.source (s : State) (g : Grant) (p : Phrase) (a : Act) (x : Eng) (i : Nat) : List Nat × W32 :=
  let m := s.mem g p
  let at_ (o : Nat) : Nat := s.armAt g.home (s.armOfPhrase p) o
  let ref := at_ (0xC0 + 4 * (i - 9))
  let k := at_ (limitSet a + 0x0C)
  if i ≤ 8 then ([], x.opd i)
  else if i = 10 && x.val m k == 1 then ([k, at_ (limitSet a + 0x10)], x.val m (at_ (limitSet a + 0x10)))
  else if i ≤ 12 then ((if i = 10 then [k, ref] else [ref]), if m.good false ref then a.refs.getD (i - 9) 0 else 0)
  else if i ≤ 14 then ([at_ (0xD0 + 4 * (i - 13))], x.val m (at_ (0xD0 + 4 * (i - 13))))
  else ([], 0x01000000)

/-- What a MAC Verb loads, and its terms. Parameters: the address of the coefficients, the number of operands taken directly, the number of selected sources,
and the address of their indices. Direct operands start at operand 9 where sources are selected, otherwise at 0. -/
def State.macTerms (s : State) (g : Grant) (p : Phrase) (a : Act) (v : VerbDecl) (x : Eng) : List Nat × List (W32 × W32) :=
  let m := s.mem g p
  let nd := prm v 1
  let ns := prm v 2
  let idx (j : Nat) : Nat := (x.val m (prm v 3 + j / 4 * 4)).toNat / 256 ^ (j % 4) % 256
  let src := (List.range ns).map fun j => s.source g p a x (idx j)
  let xs := (List.range nd).map (fun i => x.opd (if ns = 0 then i else 9 + i)) ++ src.map Prod.snd
  let cs := (List.range xs.length).map fun i => prm v 0 + 4 * i
  (((List.range ns).map fun j => prm v 3 + j / 4 * 4) ++ src.flatMap Prod.fst ++ cs, xs.zip (cs.map (x.val m)))

/-- CLRA, the products in order, and EXT at s = 30 (R168). -/
def Eng.dot (x : Eng) (terms : List (W32 × W32)) : Eng :=
  let x := terms.foldl (fun x q => x.mac false q.1 q.2 0 false) { x with a0 := 0, accSat0 := false }
  let q := x.word (x.a0.toInt / 2 ^ 30)
  q.1.put 0 q.2
/-- MAC (R168). -/
def execVerbMac (r e : Nat) (s : State) : Host.Outcome State Fault Refusal :=
  .next (s.onVerb r e 0x02 fun g p a v x => let q := s.macTerms g p a v x; (x.loads (s.mem g p) q.1).dot q.2)

/-! ### Sections, integrators and limits (R196 to R199) -/

/-- K_OUT and Y_LAST at the end of a loop (R197). -/
def Eng.endLoop (x : Eng) (m : MemView) (lb : Nat) (y : W32) : Eng :=
  let q := (x.loads m [lb + 4]).word (y.toInt * (x.val m (lb + 4)).toInt / 2 ^ 30)
  (q.1.put 0 q.2).hold m (lb + 8) q.2

/-- The products of one section (R196), each sum exact before extraction: y0 and y, then s1 and s2. -/
def Eng.section (e : Eng) (x b0 b1 b2 a1 a2 s1 s2 : W32) (sh : Nat) : Eng × W32 × W32 × W32 :=
  let m (c w : W32) : Int := c.toInt * w.toInt
  let sum := m b0 x + s1.toInt * 2 ^ 30
  let q0 := e.word (sum / 2 ^ 30)
  let qy := q0.1.word (sum / (2 ^ (30 - sh) : Nat))
  let q1 := qy.1.word ((m b1 x - m a1 q0.2 + s2.toInt * 2 ^ 30) / 2 ^ 30)
  let q2 := q1.1.word ((m b2 x - m a2 q0.2) / 2 ^ 30)
  (q2.1, qy.2, q1.2, q2.2)

/-- BIQ (R196, R208): section `params 1` of loop `params 0`. An OPEN loop keeps its states, and its output is Y_LAST. -/
def State.biq (s : State) (g : Grant) (p : Phrase) (a : Act) (v : VerbDecl) (e : Eng) : Eng :=
  let m := s.mem g p
  let l := prm v 0
  let i := prm v 1
  let lb := s.loopAt g.home l
  let w (o : Nat) : W32 := e.val m (lb + o)
  let cfg := (w 0).toNat
  let ends := !cfg.testBit 4 && i + 1 == bits cfg 0 4
  if !a.closed l then (e.loads m (if ends then [lb, lb + 8] else [lb])).put 0 (if ends then w 8 else e.opd 0)
  else
    let o := 0x20 + 32 * i
    let e := e.loads m (lb :: (List.range 8).map fun k => lb + o + 4 * k)
    let q := e.section (e.opd 0) (w o) (w (o + 4)) (w (o + 8)) (w (o + 12)) (w (o + 16)) (w (o + 20)) (w (o + 24)) (bits (w (o + 28)).toNat 0 3)
    let e := (q.1.hold m (lb + o + 20) q.2.2.1).hold m (lb + o + 24) q.2.2.2
    if ends then e.endLoop m lb q.2.1 else e.put 0 q.2.1
def execVerbBiq (r e : Nat) (s : State) : Host.Outcome State Fault Refusal := .next (s.onVerb r e 0x03 fun g p a v x => s.biq g p a v x)

/-- The new state of an INT stage (R199), exact: unchanged while LIM_DIR is non-zero and has the sign of e. -/
def intState (st ki lo hi e : W32) (limDir : Int) : Int :=
  if (0 < limDir && 0 < e.toInt) || (limDir < 0 && e.toInt < 0) then st.toInt
  else min hi.toInt (max lo.toInt (st.toInt + ki.toInt * e.toInt / 2 ^ 30))
/-- INT (R199, R197): the INT stage of loop `params 0`. -/
def State.intg (s : State) (g : Grant) (p : Phrase) (a : Act) (v : VerbDecl) (e : Eng) : Eng :=
  let m := s.mem g p
  let l := prm v 0
  let lb := s.loopAt g.home l
  let w (o : Nat) : W32 := e.val m (lb + o)
  if !a.closed l then (e.loads m [lb + 8]).put 0 (w 8)
  else
    let y : W32 := BitVec.ofInt 32 (intState (w 0x12C) (w 0x120) (w 0x124) (w 0x128) (e.opd 0) (w 0x0C).toInt)
    ((e.loads m ([0x0C, 0x120, 0x124, 0x128, 0x12C].map (lb + ·))).hold m (lb + 0x12C) y).endLoop m lb y
def execVerbInt (r e : Nat) (s : State) : Host.Outcome State Fault Refusal := .next (s.onVerb r e 0x04 fun g p a v x => s.intg g p a v x)

/-- The output of LIM (R199): the rate limit, then the magnitude limit. -/
def limOut (u prev lo hi rate : Int) : Int := clampI lo hi (clampI (prev - rate) (prev + rate) u)
/-- LIM (R199): LIM_DIR goes into each of the arm's loop blocks. -/
def State.lim (s : State) (g : Grant) (p : Phrase) (a : Act) (e : Eng) : Eng :=
  let m := s.mem g p
  let arm := s.armOfPhrase p
  let at_ (o : Nat) : Nat := s.armAt g.home arm (limitSet a + o)
  let w (o : Nat) : Int := (e.val m (at_ o)).toInt
  let e := e.loads m ([at_ 0, at_ 4, at_ 8, s.armAt g.home arm 0xD8])
  let u := (e.opd 0).toInt
  let y := limOut u (s.armSt g.home arm).limPrev.toInt (w 0) (w 4) (w 8)
  let dir : Int := if y < u then 1 else if u < y then -1 else 0
  let e := [0xD8, 0xD9, 0xDA].foldl (fun e o => e.hold m (s.loopAt g.home (s.armByte g.home arm o) + 0x0C) (BitVec.ofInt 32 dir)) e
  (e.put 0 (BitVec.ofInt 32 y)).give (.lim arm (BitVec.ofInt 32 y) (e.tagIn || e.vsat || e.wsat))
def execVerbLim (r e : Nat) (s : State) : Host.Outcome State Fault Refusal := .next (s.onVerb r e 0x05 fun g p a _ x => s.lim g p a x)

/-! ### VEC, CMP, CHOOSE (R135) -/

/-- VEC: `params 0` is the operation (0 add, 1 subtract, 2 scale, 3 absolute value), `params 1` the number n of words. The second operands are operands
n on, or, where the Verb takes no more than n, the words of `params` from 2 on. Each clamps as ADDS, SUBS, MUL and ABS do. -/
def Eng.vec (e : Eng) (v : VerbDecl) : Eng :=
  let n := Nat.min 16 (prm v 1)
  (List.range n).foldl (fun e i =>
    let a := (e.opd i).toInt
    let b : Int := if n < v.inputs.length then (e.opd (n + i)).toInt else (natW (prm v (2 + i))).toInt
    let q := e.word (match prm v 0 with | 0 => a + b | 1 => a - b | 2 => a * b / 2 ^ 30 | _ => (a.natAbs : Int))
    q.1.put i q.2) e
def execVerbVec (r e : Nat) (s : State) : Host.Outcome State Fault Refusal := .next (s.onVerb r e 0x06 fun _ _ _ v x => x.vec v)

/-- CMP: compares operands 0 and 1 as the CMP instruction does, and yields the condition that `params 0` names (R164) as 0 or 1. -/
def Eng.compare (e : Eng) (v : VerbDecl) : Eng :=
  let e := { e with z := e.opd 0 == e.opd 1, n := decide ((e.opd 0).toInt < (e.opd 1).toInt) }
  e.put 0 (natW (b2n (e.cond (BitVec.ofNat 3 (prm v 0)))))
def execVerbCmp (r e : Nat) (s : State) : Host.Outcome State Fault Refusal := .next (s.onVerb r e 0x07 fun _ _ _ v x => x.compare v)

/-- CHOOSE: operand 1 where the condition in operand 0 is true, else operand 2. -/
def Eng.choose (e : Eng) : Eng := e.put 0 (if e.opd 0 != 0 then e.opd 1 else e.opd 2)
def execVerbChoose (r e : Nat) (s : State) : Host.Outcome State Fault Refusal := .next (s.onVerb r e 0x08 fun _ _ _ _ x => x.choose)

/-! ### Modulation and selection (R192, R218 to R222, R244 to R247) -/

/-- Whether negative insertion is permitted (R222). -/
def State.negAllowed (s : State) (r a : Nat) (rt : Bool) : Bool := s.on (af r a Arm.ARM_CFG_FB) && s.on (af r a Arm.ARM_CFG_NEG_EN) && rt

/-- The quotient of R218 in units of 2^-16, clamped, and whether it was clamped or V_SUM was not positive. -/
def nLevel (u vSum : Int) (nAv : Nat) (neg : Bool) : Int × Bool :=
  if vSum ≤ 0 then (0, true)
  else
    let n := Int.tdiv (u * (nAv : Int) * 65536) vSum
    let m := clampI (if neg then -((nAv * 65536 : Nat) : Int) else 0) ((nAv * 65536 : Nat) : Int) n
    (m, m != n)
/-- The PSC duty of R221 in units of 2^-16, and whether V_SUM was not positive. -/
def pscDuty (u vSum : Int) : Int × Bool := if vSum ≤ 0 then (0, true) else (Int.tdiv (u * 65536) vSum, false)

/-- NLEVEL (R218, R221): operands u, V_SUM, N_AV; outputs N_INT, DUTY, polarity and, in PSC mode, d in units of 2^-16. -/
def State.nlevel (s : State) (g : Grant) (p : Phrase) (a : Act) (e : Eng) : Eng :=
  let arm := s.armOfPhrase p
  let u := (e.opd 0).toInt
  let vs := (e.opd 1).toInt
  if s.on (af g.home arm Arm.ARM_CFG_MOD) then
    let q := pscDuty u vs
    let duty := if 0 < q.1 ∧ q.1 < 65536 then q.1.toNat else 0
    ((((e.put 0 0).put 1 (natW duty)).put 2 0).put 3 (clamp32 q.1)).give (.armOut arm 0 duty false q.2)
  else
    let q := nLevel u vs (e.opd 2).toNat (s.negAllowed g.home arm a.rt)
    let m := q.1.natAbs
    let neg := decide (q.1 < 0)
    ((((e.put 0 (natW (m / 65536))).put 1 (natW (m % 65536))).put 2 (natW (b2n neg))).put 3 0).give (.armOut arm (m / 65536) (m % 65536) neg q.2)
def execVerbNlevel (r e : Nat) (s : State) : Host.Outcome State Fault Refusal := .next (s.onVerb r e 0x09 fun g p a _ x => s.nlevel g p a x)

/-- RANKQ (R192): the first four words of the snapshot of the period before the activation's, which this Verb and SELECT read without a window (log entry 97,
DESIGN CHOICE). -/
def execVerbRankq (r e : Nat) (s : State) : Host.Outcome State Fault Refusal :=
  .next (s.onVerb r e 0x0A fun g p a _ x =>
    let b := s.snapAt g.home (s.armOfPhrase p) (a.pn + 1)
    (List.range 4).foldl (fun x i => x.put i (s.rgnWord g.home (b + 4 * i))) x)

/-- The direction SELECT chooses (R244); true for discharge. -/
def chooseDir (i idead : Int) (neg prev : Bool) : Bool :=
  let s := if neg then -i else i
  if idead ≤ s then false else if s ≤ -idead then true else prev

/-- The edge offset of changing cell j (R247), and whether MAX limited it. -/
def edgeOffset (base step group mx j : Nat) : Nat × Bool :=
  let x := base + j / group * step
  (min x mx, decide (mx < x))

/-- What SELECT reads once for its segment: the order's base, N_INT, DUTY, polarity, PFX at the cut, n_I and n_R (R245). -/
structure Cut where
  ord : Nat
  nInt : Nat
  duty : Nat
  neg : Bool
  pN : Nat
  nI : Nat
  nR : Nat
  psc : Option Int
  deriving DecidableEq, Repr

/-- The record of an available cell (R245): its entry word, with the changing number j where it changes. -/
def selectRec (k : Cut) (inc cal : Bool) (pos pfx : Nat) : CmdRec × Option Nat :=
  if pos < k.nInt then
    let a := pos - pfx
    (⟨if k.neg then 4 else 1, cal, 0, 0⟩, if inc then none else some (if a < k.nR then 2 * a + 1 else k.nR + a))
  else if pos = k.nInt ∧ k.duty ≠ 0 then (⟨if k.neg then 5 else 3, cal, BitVec.ofNat 16 k.duty, 0⟩, none)
  else
    let b := pfx - k.pN
    (⟨2, cal, 0, 0⟩, if inc then some (if b < k.nI then 2 * b else k.nI + b) else none)

/-- The record of an available cell in PSC mode (R221, R246). -/
def pscRec (d : Int) (cal : Bool) : CmdRec :=
  if 65536 ≤ d then ⟨1, cal, 0, 0⟩ else if d ≤ 0 then ⟨2, cal, 0, 0⟩ else ⟨6, cal, BitVec.ofInt 16 d, 0⟩

/-- The record of one cell (R242, R245, R246). `idx`: its index in the snapshot of the arm, if it is there. -/
def State.selectCell (s : State) (r b : Nat) (k : Cut) (idx : Option Nat) : CmdRec × Option Nat :=
  match idx with
  | none => (⟨2, false, 0, 0⟩, none)
  | some i =>
    let w := (s.rgnWord r (b + 0x40 + 4 * i)).toNat
    let cal := w.testBit 28
    if w.testBit 29 then (⟨7, cal, 0, 0⟩, none)
    else if !w.testBit 26 then (⟨2, cal, 0, 0⟩, none)
    else match k.psc with
    | some d => (pscRec d cal, none)
    | none =>
      let pos := if k.ord = 0x4040 then bits w 0 13 else bits w 13 13
      selectRec k (w.testBit 27) cal pos (bits (s.rgnWord r (b + k.ord + 4 * pos)).toNat 13 13)

/-- SELECT (R244 to R247): the records of segment `params 0` of 64 cells in arm order. Operands: N_INT, DUTY, polarity, and d in PSC mode, the outputs of
NLEVEL; i is the word ARM_RANK.I_IDX of the activation's sample entry. -/
def State.select (s : State) (g : Grant) (p : Phrase) (a : Act) (v : VerbDecl) (e : Eng) : Eng :=
  let h := g.home
  let arm := s.armOfPhrase p
  let b := s.snapAt h arm (a.pn + 1)
  let neg := e.opd 2 != 0
  let disch := chooseDir (a.entry.getD (s.rd (af h arm Arm.ARM_RANK_I_IDX)) 0).toInt (s.rd (af h arm Arm.ARM_SEL_IDEAD)) neg (s.rgnWord h (b + 24) == 1)
  let ord := if disch then 0x8080 else 0x4040
  let nInt := (e.opd 0).toNat
  let pN := bits (s.rgnWord h (b + ord + 4 * nInt)).toNat 13 13
  let k : Cut := ⟨ord, nInt, (e.opd 1).toNat, neg, pN, nInt - pN, (s.rgnWord h (b + 20)).toNat - pN,
    if s.on (af h arm Arm.ARM_CFG_MOD) then some (e.opd 3).toInt else none⟩
  let old := fget [] (s.rgn h).snapIdx ((a.pn + 1) % 2 * 4 + arm)
  let cells := ((s.armCells h arm).drop (64 * prm v 0)).take 64
  let e := cells.foldl (fun e c =>
    let q := s.selectCell h b k (old.findIdx? fun x => x == c)
    match q.2 with
    | none => e.give (.record c q.1)
    | some j =>
      let o := edgeOffset (s.rd (af h arm Arm.ARM_EDGE_BASE)) (s.rd (af h arm Arm.ARM_EDGE_STEP)) (s.rd (af h arm Arm.ARM_EDGE_GROUP))
        (s.rd (af h arm Arm.ARM_EDGE_MAX)) j
      let e := e.give (.record c { q.1 with edge := BitVec.ofNat 16 o.1 })
      if o.2 then e.give (.edgeCap arm 1) else e) e
  if k.psc.isSome then e else e.give (.dir arm disch)
def execVerbSelect (r e : Nat) (s : State) : Host.Outcome State Fault Refusal := .next (s.onVerb r e 0x0B fun g p a v x => s.select g p a v x)

/-! ### Station Verbs, block requests (R204, R207, R158) -/

/-- SVRD (R204): stream `params 0` at depth `params 1`, members `params` 2 on (at most 6). What the words hold where the depth is unavailable is not stated:
free values. -/
def State.svrd (s : State) (g : Grant) (a : Act) (v : VerbDecl) (e : Eng) : Eng :=
  let _ := g
  let lost := b2n (fget {} s.stn.sv (prm v 0)).lost * 128
  match (fget [] a.sv (prm v 0))[prm v 1]? with
  | none => ((List.range 7).foldl (fun e i => e.put i (BitVec.setWidth 32 (Config.freeValue (s.free + i)))) e).put 7 (natW (64 + lost))
  | some x =>
    let ms := (v.params.drop 2).take 6
    let e := ms.zipIdx.foldl (fun e q => e.put q.2 (match x.words[q.1]? with | some w => w.1 | none => 0)) e
    let bad := ms.zipIdx.foldl (fun n q => match x.words[q.1]? with | some w => if w.2 then n else n + 2 ^ q.2 | none => n + 2 ^ q.2) 0
    (e.put 6 (BitVec.ofInt 32 (x.time - (a.epochAt : Int)))).put 7 (natW (bad + lost))
def execVerbSvrd (r e : Nat) (s : State) : Host.Outcome State Fault Refusal :=
  .next { s.onVerb r e 0x0C (fun g _ a v x => s.svrd g a v x) with free := s.free + 7 }

/-- GOOSE_PUT (R207): member `params 1` of published dataset `params 0` takes operand 0, as a result. -/
def execVerbGoosePut (r e : Nat) (s : State) : Host.Outcome State Fault Refusal :=
  .next (s.onVerb r e 0x0D fun _ _ _ v x => x.give (.goose (prm v 0) (prm v 1) (x.opd 0)))

/-- BLOCK_REQ (R158): with a true condition in operand 0, a block of arm or, with `params 0` = 1, converter `params 1` is requested at completion. -/
def execVerbBlockReq (r e : Nat) (s : State) : Host.Outcome State Fault Refusal :=
  .next (s.onVerb r e 0x0E fun _ _ _ v x => if x.opd 0 != 0 then { x with blockReq := some (prm v 0 == 1, prm v 1) } else x)

/-! ### PROG (R179), with the library programs HSEL (R214 to R216) and the extrapolation of FF_AC (R205) -/

/-- A word moved toward another by at most a step. -/
def toward (x y step : Int) : Int := clampI (x - step) (x + step) y

/-- The preset of the incoming slot (R215): the preset word increased by Δ / g, the quotient truncated toward minus infinity (R169); a loop that is OPEN holds the
preset output (R216). -/
def State.preset (s : State) (g : Grant) (p : Phrase) (a : Act) (slot : Nat) (delta : Int) (e : Eng) : Eng :=
  let m := s.mem g p
  let at_ := p.wrapSlots.getD (3 * slot) 0
  let gain := (natW (p.wrapSlots.getD (3 * slot + 1) 0)).toInt
  let l := p.wrapSlots.getD (3 * slot + 2) 0
  let lb := s.loopAt g.home l
  let q := (e.loads m [at_]).word ((e.val m at_).toInt + Int.fdiv (delta * 2 ^ 30) gain)
  let e := q.1.hold m at_ q.2
  if a.closed l then e
  else
    let y := (e.loads m [lb + 4]).word (q.2.toInt * (e.val m (lb + 4)).toInt / 2 ^ 30)
    y.1.hold m (lb + 8) y.2

/-- HSEL (R214, R215): operands are the outputs of slots A and B, `params 1` the address of the output word. The wrapper's words: control, previous output,
SLEW periods, Δ. -/
def State.hsel (s : State) (g : Grant) (p : Phrase) (a : Act) (v : VerbDecl) (e : Eng) : Eng :=
  let h := g.home
  let m := s.mem g p
  let w := p.wrapWords.getD 0
  let e := e.loads m [w, w + 4, w + 8, w + 12]
  let ctl := (e.val m w).toNat
  let act := ctl % 2
  let arm := s.armOfPhrase p
  let tol : Int := s.rd (af h arm Arm.ARM_HOVR_TOL_TOL)
  let slew : Int := s.rd (af h arm Arm.ARM_HOVR_SLEW_SLEW)
  let yOld := (e.opd act).toInt
  let yNew := (e.opd (1 - act)).toInt
  let prev := (e.val m (w + 4)).toInt
  let n := (e.val m (w + 8)).toNat
  let delta := e.val m (w + 12)
  let out (e : Eng) (y : Int) : Eng := let y' := clamp32 y; ((e.put 0 y').hold m (prm v 1) y').hold m (w + 4) y'
  let ctlTo (e : Eng) (a st : Nat) : Eng := e.hold m w (natW (a + 2 * st))
  match bits ctl 1 2 with
  | 1 =>
    let d := yOld - yNew
    let q := e.word d
    if d.natAbs ≤ tol.natAbs then
      (ctlTo (s.preset g p a (1 - act) d (out q.1 yOld)) (1 - act) 0).give (.handover p.num false q.2 0)
    else (((ctlTo (out q.1 (toward yOld yNew slew)) act 2).hold m (w + 8) 1).hold m (w + 12) q.2).give (.slewStart arm)
  | 2 =>
    if (yNew - prev).natAbs ≤ slew.natAbs then
      (ctlTo (out e yNew) (1 - act) 0).give (.handover p.num true delta (n + 1))
    else (out e (toward prev yNew slew)).hold m (w + 8) (natW (n + 1))
  | _ => out e yOld

/-- The extrapolation of FF_AC (R205): operands v0, t0, status 0, v1, t1, status 1; `params 1` is which of FF0 and FF1 is written, `params 2` which of the members
that the SVRDs select is used. -/
def State.ffAc (s : State) (g : Grant) (p : Phrase) (v : VerbDecl) (e : Eng) : Eng :=
  let arm := s.armOfPhrase p
  let t : Int := (s.period + s.period / 2 : Nat)
  let o (i : Nat) : Int := (e.opd i).toInt
  let bad (st : W32) : Bool := st.toNat.testBit (prm v 2) || st.toNat.testBit 6 || st.toNat.testBit 7
  if bad (e.opd 2) || bad (e.opd 5) || decide (2 * (o 1 - o 4) < t - o 1) then e.give (.ff arm (prm v 1) true)
  else
    let q := e.word (o 0 + Int.fdiv ((o 0 - o 3) * (t - o 1)) (o 1 - o 4))
    (q.1.hold (s.mem g p) (s.armAt g.home arm (0xD0 + 4 * prm v 1)) q.2).give (.ff arm (prm v 1) false)

/-- PROG (R179): the program of the Verb, from its first instruction to END. `params 0` = 1 names the library's HSEL, 2 the extrapolation of FF_AC. -/
def State.prog (s : State) (r en : Nat) (g : Grant) (p : Phrase) (a : Act) (v : VerbDecl) (e : Eng) : Eng :=
  match prm v 0 with
  | 1 => s.hsel g p a v e
  | 2 => s.ffAc g p v e
  | _ => Eng.runProg (s.view r en) v.prog 70000 e
def execVerbProg (r e : Nat) (s : State) : Host.Outcome State Fault Refusal := .next (s.onVerb r e 0x0F fun g p a v x => s.prog r e g p a v x)

end Sys2Proof.Machine
end

