-- ==== Sys2Proof/Machine/Meas.lean ====
section
/-! DEFINITION. The measurement lanes (R187 to R190) and the loop states (R208 to R213). -/

namespace Sys2Proof.Machine

/-! ### Frames (R187, R188) -/

/-- Bytes 1 to 14 of a frame. -/
def measBytes (f : MeasFrame) : List Byte := f.hdr :: f.codes.flatMap (fun c => leBytes 3 c.toNat) ++ [f.status]
/-- The counters of a lane. -/
def measCrc (r l : Nat) : Fld := (rf r Rgn.MEAS_STAT0_CRC_ERR).at (4 * l)
def measRate (r l : Nat) : Fld := (rf r Rgn.MEAS_STAT0_RATE_DROP).at (4 * l)

/-- When the region's lane check in M4 falls due: every PWR_GLIM.INT from the entry to M4 on (R406). -/
def State.glimDue (s : State) (r : Nat) : Nat := max (s.rgn r).glimAt s.mode.idleFrom + 1000000 * s.rd (rf r Rgn.PWR_GLIM_INT)
/-- Whether a lane is powered: not in M0 and M3, and in M4 only the lanes of PWR_GLIM.LANES in the 50 µs before the check (R396, R406). -/
def State.lanePowered (s : State) (r l : Nat) : Bool :=
  if s.modeNo == 3 then false
  else if s.modeNo == 4 then (s.rd (rf r Rgn.PWR_GLIM_LANES)).testBit l && decide (s.glimDue r ≤ s.ns + 50000)
  else true

/-- MEAS_FRAME_RECEIVE (R187, R188): byte 0 of a frame arrives on lane `l` of region `r`, `q` quarter nanoseconds on; its CRC check completes
136 ns and `d` quarter nanoseconds later, at most 16 ns of them (R189). A lane that the lane pair shares with an enabled tree carries no frames (R9). -/
def State.measFrame (s : State) (r l q d : Nat) (f : MeasFrame) : State :=
  if s.dies ≤ r || 8 ≤ l || !s.running || s.on (tf r (24 + l) Tree.TREE_CFG_EN) then s
  else
    let s := s.runBy q
    let now := quarters s.time.ctr
    let old := fget [] (s.rgn r).lanes l
    if !s.lanePowered r l then s
    else if crc16 (measBytes f) != f.crc.toNat || f.codes.length != 4 then s.inc (measCrc r l)
    else if old.any fun x => decide (now < x.start + 1920) then s.inc (measRate r l)
    else
      let s := s.modRgn r fun x => { x with lanes := fset l (⟨now, now + 544 + min 64 d, f⟩ :: old.take 1) x.lanes }
      if f.status.toNat / 16 != 0 then s.raise (.region r) { src := Src.MEAS_SENSOR } else s
def execMeasFrameReceive (r l q d : Nat) (f : MeasFrame) (s : State) : Host.Outcome State Fault Refusal := .next (s.measFrame r l q d f)

/-! ### The latch (R189, R190) -/

/-- A code converted by a table entry of 12 bytes (R190, R502): floor(c x GAIN x 2^SHIFT), clamped, plus OFFSET, clamped again. -/
def State.convert (s : State) (r at_ : Nat) (c : Int) : W32 :=
  clamp32 ((scale c (s.rgnWord r at_) ((s.rgnWord r (at_ + 4)).toNat % 16)).toInt + (s.rgnWord r (at_ + 8)).toInt)

/-- The frame of a lane that the latch takes: the last whose check completed in the 2 ns tick of the instant or earlier. -/
def latched (l : List LaneFrame) (now : Nat) : Option LaneFrame := l.find? fun x => decide (x.done / 8 ≤ now / 8)

/-- The value of a channel at the latch, or none where it is STALE (R190). -/
def State.channelNow (s : State) (r ch now : Nat) : Option W32 :=
  let c := ch % 4
  match latched (fget [] (s.rgn r).lanes (ch / 4)) now with
  | none => none
  | some x =>
    if 4 * s.rd (rf r Rgn.MEAS_CFG_MAX_AGE) < now - x.start || !x.f.status.toNat.testBit c || x.f.hdr.toNat % 4 < c then none
    else some (s.convert r (s.rd (rf r Rgn.MEAS_TAB_BASE_BASE) + 12 * ch) (x.f.codes.getD c 0).toInt)

/-- Every channel of the region latched: its value or the last one that was not stale, and how many periods in a row it has been STALE. -/
def State.latchAll (s : State) (r : Nat) : State :=
  let now := quarters s.time.ctr
  (List.range 32).foldl (fun s ch =>
    match s.channelNow r ch now with
    | some w => s.modRgn r fun x => { x with good := fset ch w x.good, stale := fdel ch x.stale }
    | none => s.modRgn r fun x => { x with stale := fmod 0 ch (· + 1) x.stale }) s

/-- The value of a channel at the end of a powered interval in M4, or none without a valid frame in it (R406). -/
def State.channelGlim (s : State) (r ch : Nat) : Option W32 :=
  let c := ch % 4
  match latched (fget [] (s.rgn r).lanes (ch / 4)) (quarters s.time.ctr) with
  | none => none
  | some x =>
    if x.start + 200000 < quarters s.time.ctr || !x.f.status.toNat.testBit c || x.f.hdr.toNat % 4 < c then none
    else some (s.convert r (s.rd (rf r Rgn.MEAS_TAB_BASE_BASE) + 12 * ch) (x.f.codes.getD c 0).toInt)
/-- Whether a channel is outside its Glimmer window (R406, R502), or has no valid frame while MISS_WAKE is 1. -/
def State.glimBad (s : State) (r ch : Nat) : Bool :=
  let t := s.rd (rf r Rgn.MEAS_TAB_BASE_BASE) + 0x180 + 8 * ch
  match s.channelGlim r ch with
  | some w => decide (w.toInt < (s.rgnWord r t).toInt) || decide ((s.rgnWord r (t + 4)).toInt < w.toInt)
  | none => s.on (rf r Rgn.PWR_GLIM_MISS_WAKE)
/-- GLIMMER_LANE_CHECK (R406): the check of region `r` that falls due in M4; a channel outside its window is wake event 2. -/
def State.glimCheck (s : State) (r : Nat) : State :=
  if s.dies ≤ r || s.modeNo != 4 || !s.running then s
  else
    let s := s.runTo (s.glimDue r)
    let s := s.modRgn r fun x => { x with glimAt := s.ns }
    if (List.range 32).any fun ch => (s.rd (rf r Rgn.PWR_GLIM_MASK)).testBit ch && s.glimBad r ch then s.noteWake 2 else s
def execGlimmerLaneCheck (r : Nat) (s : State) : Host.Outcome State Fault Refusal := .next (s.glimCheck r)

/-- The channels of a local arm's entry (R189). -/
def State.armChans (s : State) (r a : Nat) : List Nat :=
  [Arm.ARM_MEAS_W0, Arm.ARM_MEAS_W1, Arm.ARM_MEAS_W2, Arm.ARM_MEAS_W3, Arm.ARM_MEAS_W4, Arm.ARM_MEAS_W5, Arm.ARM_MEAS_W6].map fun f => s.rd (af r a f)
/-- The converter shares of a region, with their channels (R201, log entry 29, DESIGN CHOICE). -/
def State.shares (s : State) (r : Nat) : List (Nat × List Nat) :=
  (s.convs.filter fun c => (s.convArms c).any fun p => p.1 == r).map fun c =>
    (c, match s.image.convMeas.find? fun q => q.1 == r && q.2.1 == c with | some q => q.2.2 | none => [])
/-- A sample entry (R189): words 0 to 6, and VALID and STALE of each in word 7. -/
def State.entryOf (s : State) (r : Nat) (chans : List Nat) : List W32 :=
  let x := s.rgn r
  let st := chans.zipIdx.foldl (fun n q => if fhas x.stale q.1 then n + 2 ^ (8 + q.2) else n + 2 ^ q.2) 0
  padTo 7 0 (chans.map fun c => fget 0 x.good c) ++ [natW st]

/-- MEAS_LATCH (R189, R190): at epoch + MEAS_LATCH the region latches every channel and posts the entries of its arms and converter shares. `test`:
whether the host has enabled the control Phrases in M11 (R195). -/
def State.measLatch (s : State) (r : Nat) (test : Bool) : State :=
  if s.dies ≤ r || !s.epochs || !s.running then s
  else
    let s := (s.runTo (s.time.epochAt + s.rd (rf r Rgn.MEAS_LATCH_LATCH))).latchAll r
    let arms := (s.rgnArms r).map Prod.snd
    let mapped := arms.flatMap (s.armChans r) ++ (s.shares r).flatMap Prod.snd
    let s := s.setCond (.region r) { src := Src.MEAS_STALE }
      (mapped.any fun c => decide (s.rd (rf r Rgn.MEAS_CFG_STALE_N) ≤ fget 0 (s.rgn r).stale c))
    let s := arms.foldl (fun s a =>
      let en := s.entryOf r (s.armChans r a)
      let i := s.rd (af r a Arm.ARM_RANK_I_IDX)
      let s := s.modArm r a fun x => { x with iNow := (en.getD i 0).toInt, iStale := ((en.getD 7 0).toNat).testBit (8 + i), noEntry := false }
      s.triggerAll r (.sample a) en test) s
    (s.shares r).foldl (fun s q => s.triggerAll r (.sample (8 + q.1)) (s.entryOf r q.2) test) s
def execMeasLatch (r : Nat) (test : Bool) (s : State) : Host.Outcome State Fault Refusal := .next (s.measLatch r test)

/-! ### Loop states (R208 to R213) -/

/-- A loop's CLOSED bit (R209). -/
def State.setLoop (s : State) (r l : Nat) (closed : Bool) : State :=
  let f := if l < 32 then rf r Rgn.LOOP_STATE0_CLOSED else rf r Rgn.LOOP_STATE1_CLOSED
  s.wr f (if closed then setBit (s.rd f) (l % 32) else clrBit (s.rd f) (l % 32))
/-- Every s1, s2 and INT state word of a loop at 0 (R210). -/
def State.clearLoop (s : State) (r l : Nat) : State :=
  let lb := s.loopAt r l
  (((List.range 8).flatMap fun i => [0x34 + 32 * i, 0x38 + 32 * i]) ++ [0x12C]).foldl (fun s o => s.setWord r (lb + o) 0) s
/-- One loop action takes effect (R209, R210). -/
def State.loopAct (s : State) (r l action : Nat) : State :=
  if action = 0 then s.setLoop r l false
  else if action = 1 then s.setLoop r l true
  else (s.clearLoop r l).setLoop r l true
/-- The action that the last of a list of requests asks of each loop (R209). -/
def loopLast (l : List (Nat × Nat × Nat)) : FMap Nat := l.foldl (fun m q => fset q.1 q.2.1 m) []
/-- LOOP_STATE_APPLY (R209): at the epoch the requested states of region `r` apply; a request written in the 2 ns tick of the epoch or after it waits for the next. -/
def State.loopApply (s : State) (r : Nat) : State :=
  if s.dies ≤ r || !s.epochs then s
  else
    let due (q : Nat × Nat × Nat) : Bool := decide (q.2.2 < s.time.epochAt / 2)
    ((loopLast ((s.rgn r).loopReq.filter due)).foldl (fun s q => s.loopAct r q.1 q.2) s).modRgn r fun x =>
      { x with loopReq := x.loopReq.filter fun q => !due q }
def execLoopStateApply (r : Nat) (s : State) : Host.Outcome State Fault Refusal := .next (s.loopApply r)

end Sys2Proof.Machine
end

