-- ==== Sys2Proof/Machine/Ptp.lean ====
section
/-! DEFINITION. Frames of the station ports as bytes: their class, and what Basath writes into a one-step PTP message (R81, R82, R86, R419). The places
of the fields in an Ethernet frame and a PTP message are those of the standards that R81 names (log entry 87, PRESUMED). A frame ends with its check
sequence. -/

namespace Sys2Proof.Machine

/-- The value of `n` big-endian bytes from offset `o`. -/
def beAt (l : List Byte) (o n : Nat) : Nat := ((l.drop o).take n).foldl (fun v b => 256 * v + b.toNat) 0
/-- The `n` bytes of a number, the most significant first. -/
def beOf (n v : Nat) : List Byte := (leBytes n v).reverse
/-- A byte string with `b` written at offset `o`. -/
def putAt (l : List Byte) (o : Nat) (b : List Byte) : List Byte := l.take o ++ b ++ l.drop (o + b.length)

/-- Where the payload of an Ethernet frame begins: with or without one 802.1Q tag (R81). -/
def etherData (l : List Byte) : Nat := if beAt l 12 2 = 0x8100 then 18 else 14
/-- The Ethertype of a frame. -/
def etherType (l : List Byte) : Nat := beAt l (etherData l - 2) 2
/-- Whether a PTP frame is of a version that Basath accepts: 2, minor 0 or 1 (R81). -/
def ptpVersionOk (l : List Byte) : Bool := let v := beAt l (etherData l + 1) 1; v % 16 == 2 && decide (v / 16 ≤ 1)
/-- messageType of a PTP frame: 0 Sync, 1 Delay_Req, 2 Pdelay_Req, 3 Pdelay_Resp. -/
def ptpType (l : List Byte) : Nat := beAt l (etherData l) 1 % 16
/-- The class of a frame (R419): 0 PTP, 1 sampled values, 2 GOOSE, 3 any other. -/
def frameClass (l : List Byte) : Nat :=
  match etherType l with
  | 0x88F7 => if ptpVersionOk l then 0 else 3
  | 0x88BA => 1
  | 0x88B8 => 2
  | _ => 3

/-- What tells one Pdelay_Req from another: its sourcePortIdentity and sequenceId, as one number. -/
def pdelayKey (l : List Byte) : Nat := beAt l (etherData l + 20) 10 * 65536 + beAt l (etherData l + 30) 2
/-- The same of the Pdelay_Req that a Pdelay_Resp answers: requestingPortIdentity and sequenceId. -/
def pdelayAnswers (l : List Byte) : Nat := beAt l (etherData l + 44) 10 * 65536 + beAt l (etherData l + 30) 2

/-- A frame with its check sequence computed again (R82). -/
def refcs (l : List Byte) : List Byte := let b := l.take (l.length - 4); b ++ leBytes 4 (crc32 b)
/-- A PTP Timestamp of a time in quarter nanoseconds: seconds and nanoseconds (R82). -/
def ptpTime (q : Nat) : List Byte := beOf 6 (q / 4 / 1000000000) ++ beOf 4 (q / 4 % 1000000000)
/-- A one-step message as it leaves with the egress timestamp `q` in quarter nanoseconds (R81, R82): originTimestamp of a Sync, and the residence time from
`req`, the timestamp of the Pdelay_Req that a Pdelay_Resp answers, in its correctionField, which counts 2^-16 ns. -/
def oneStep (l : List Byte) (q : Nat) (req : Option Nat) : List Byte :=
  let h := etherData l
  if frameClass l != 0 then l
  else match ptpType l, req with
    | 0, _ => refcs (putAt l (h + 34) (ptpTime q))
    | 3, some t => refcs (putAt l (h + 8) (beOf 8 ((beAt l (h + 8) 8 + (q - t) * 2 ^ 14) % 2 ^ 64)))
    | _, _ => l

end Sys2Proof.Machine
end

