-- ==== Sys2Proof/Machine/Station.lean ====
section
/-! DEFINITION. Sampled values and GOOSE (R202 to R207), and the ride-through signal (R391). -/

namespace Sys2Proof.Machine

/-- The bytes of the station table on die 0 (R504). -/
def State.stnBytes (s : State) (o n : Nat) : List Byte := s.rgnRead 0 (s.rd Reg.STN_TAB_BASE_BASE + o) n
/-- A zero-padded name of 64 bytes. -/
def padName (l : List Byte) : List Byte := padTo 64 0 l
/-- The state with a stream, a subscription or a publication changed. -/
def State.modSv (s : State) (i : Nat) (f : SvSt → SvSt) : State := { s with stn := { s.stn with sv := fmod {} i f s.stn.sv } }
def State.modGoose (s : State) (i : Nat) (f : GooseSt → GooseSt) : State := { s with stn := { s.stn with goose := fmod {} i f s.stn.goose } }
def State.modPub (s : State) (i : Nat) (f : PubSt → PubSt) : State := { s with stn := { s.stn with pubs := fmod {} i f s.stn.pubs } }

/-- The triggering entry of a frame of the station network: eight members, then the ingress timestamp: the low and the high word of TIME_NS, and the quarter
nanoseconds (R83; log entry 30, DESIGN CHOICE). -/
def withIngress (ws : List W32) (t : Time) : List W32 :=
  padTo 8 0 ws ++ [BitVec.ofNat 32 (timeNs t), BitVec.ofNat 32 (timeNs t / 2 ^ 32), BitVec.ofNat 32 (timeQ t)]
/-- The resolution delay of a station port (R94), in ns. -/
def stnDelay : Nat := 200

/-! ### Sampled values (R202 to R204) -/

/-- The subscription a frame matches: enabled, with its MAC address, APPID and svID. -/
def State.svMatch (s : State) (f : SvFrame) : Option Nat :=
  (List.range 32).find? fun i =>
    s.on (Reg.SV_CFG_EN.win i) && leVal (s.stnBytes (128 * i) 6) == f.mac.toNat && leVal (s.stnBytes (128 * i + 6) 2) == f.appid.toNat
      && s.stnBytes (128 * i + 64) 64 == padName f.svid
/-- The sample time of an ASDU (R203), in ns; `later`: the ASDUs after it in the frame. -/
def svTime (ingress rate lat cnt later : Nat) (synch : Bool) : Int :=
  if synch then
    let ofs : Int := cnt * 1000000000 / rate
    (ingress : Int) - ((ingress : Int) - ofs) % 1000000000
  else (ingress : Int) - lat - later * 1000000000 / rate
/-- The members an ASDU gives (R202): converted by consecutive entries of the scale table; valid while the validity bits of the quality are 0 (log entry 30, PRESUMED). -/
def State.svWords (s : State) (i : Nat) (x : SvAsdu) : List (W32 × Bool) :=
  let n := min 16 (leVal (s.stnBytes (128 * i + 8) 1))
  let t := leVal (s.stnBytes (128 * i + 10) 2)
  (List.range n).map fun m =>
    let u := x.units.getD (leVal (s.stnBytes (128 * i + 12 + m) 1)) (0, 1)
    (s.convert 0 (s.rd Reg.STN_TAB_BASE_BASE + 0x1000 + 12 * ((t + m) % 512)) u.1.toInt, u.2.toNat % 4 == 0)
/-- SV_LOST is active on the chip while a stream is lost. -/
def State.showSvLost (s : State) : State := s.setCond .chip { src := Src.SV_LOST } (s.stn.sv.any fun p => p.2.lost)

/-- SV_FRAME_RECEIVE (R202 to R204): a frame of 1 to 8 ASDUs that matches a subscription is stored and triggers the subscribing Phrases. -/
def State.svFrame (s : State) (f : SvFrame) : State :=
  match s.svMatch f with
  | none => s
  | some i =>
    if f.asdus.isEmpty || 8 < f.asdus.length then s
    else
      let s := s.runTo (timeNs f.ingress)
      let rate := max 1 (s.rd (Reg.SV_RATE_RATE.win i))
      let n := f.asdus.length
      let s := f.asdus.zipIdx.foldl (fun s q =>
        let c := q.1.cnt.toNat
        let y := fget {} s.stn.sv i
        let gap := match y.cnt with | some p => c != (p + 1) % rate | none => false
        let s := if gap then s.inc (Reg.SV_STAT_GAP.win i) else s
        let a : Asdu := ⟨svTime (timeNs f.ingress) rate (s.rd (Reg.SV_LAT_LAT.win i)) c (n - 1 - q.2) (q.1.synch != 0), s.svWords i q.1⟩
        s.modSv i fun y => { y with ring := (a :: y.ring).take 4, cnt := some c }) s
      let s := ((s.modSv i fun y => { y with lastAt := some (timeNs f.ingress), lost := false }).wr (Reg.SV_STAT_LOST.win i) 0).showSvLost
      let en := withIngress (match (fget {} s.stn.sv i).ring with | a :: _ => (a.words.map Prod.fst).take 8 | [] => []) f.ingress
      (List.range s.dies).foldl (fun s r => s.triggerAll r (.sv i) en false) s
def execSvFrameReceive (f : SvFrame) (s : State) : Host.Outcome State Fault Refusal := .next (s.svFrame f)

/-- SV_LOST (R203): stream `i` has had no frame for LOSS_N / SV_RATE, and the resolution delay has passed (R94). -/
def State.svLost (s : State) (i : Nat) : State :=
  if 32 ≤ i || !s.on (Reg.SV_CFG_EN.win i) then s
  else
    let wait := s.rd (Reg.SV_CFG_LOSS_N.win i) * 1000000000 / max 1 (s.rd (Reg.SV_RATE_RATE.win i))
    let due := match (fget {} s.stn.sv i).lastAt with | some t => t + wait + stnDelay | none => s.ns
    let s := s.runTo due
    if s.ns < due then s else ((s.modSv i fun y => { y with lost := true }).wr (Reg.SV_STAT_LOST.win i) 1).showSvLost
def execSvLost (i : Nat) (s : State) : Host.Outcome State Fault Refusal := .next (s.svLost i)

/-! ### GOOSE subscriptions (R206) and the ride-through signal (R391) -/

/-- The subscription a message matches: MAC address, APPID, gocbRef, datSet and confRev. -/
def State.gooseMatch (s : State) (m : GooseMsg) : Option Nat :=
  (List.range 16).find? fun i =>
    let o := 0x2800 + 256 * i
    leVal (s.stnBytes o 6) == m.mac.toNat && leVal (s.stnBytes (o + 6) 2) == m.appid.toNat && leVal (s.stnBytes (o + 8) 4) == m.confRev.toNat
      && leVal (s.stnBytes (o + 12) 1) == m.members.length && !m.members.isEmpty && decide (m.members.length ≤ 32)
      && s.stnBytes (o + 64) 64 == padName m.gocbRef && s.stnBytes (o + 128) 64 == padName m.datSet
/-- The arrival deadline of a subscription has passed: the event is raised, and the dataset keeps its values, marked expired (R206, R342). -/
def State.gooseExpired (s : State) (i : Nat) : State :=
  (s.modGoose i fun g => { g with deadline := none, expired := true }).raise .chip { src := Src.GOOSE_TAL }
/-- The ride-through member of a dataset (R391). -/
def State.rtMember (s : State) (g : GooseSt) : Bool := (g.words.getD (s.rd Reg.MODE_RT_MEMBER) 0) != 0
/-- A new stNum of the ride-through subscription: TRUE in M7 makes the warden request M9; FALSE starts the count of periods (R391). -/
def State.rideThrough (s : State) (i : Nat) (old : GooseSt) : State :=
  if !(s.on Reg.MODE_RT_EN && s.rd Reg.MODE_RT_SUB == i) then s
  else
    let now := s.rtMember (fget {} s.stn.goose i)
    let was := old.stNum.isSome && s.rtMember old
    if now && !was then (if s.modeNo == 7 then s.request { who := .warden, target := 9 } else s)
    else if !now && (was || old.stNum.isNone) then { s with mode := { s.mode with rtFalse := s.pn } }
    else s

/-- GOOSE_RECEIVE (R206): a message that matches a subscription renews its deadline; a new stNum brings its members and triggers the Phrases. One whose
start-of-frame timestamp lies beyond the deadline comes after the deadline has passed (R93, R94). -/
def State.gooseRx (s : State) (m : GooseMsg) : State :=
  match s.gooseMatch m with
  | none => s
  | some i =>
    let s := s.runTo (timeNs m.ingress)
    let old := fget {} s.stn.goose i
    let late := match old.deadline with | some d => decide (d < quarters m.ingress) | none => false
    let s := if late then s.gooseExpired i else s
    let s := s.modGoose i fun g => { g with deadline := some (quarters m.ingress + 4000000 * m.tal.toNat), expired := false }
    if old.stNum == some m.stNum then s
    else
      let s := s.modGoose i fun g => { g with stNum := some m.stNum, words := m.members }
      let s := s.rideThrough i old
      (List.range s.dies).foldl (fun s r => s.triggerAll r (.goose i) (withIngress (m.members.take 8) m.ingress) false) s
def execGooseReceive (m : GooseMsg) (s : State) : Host.Outcome State Fault Refusal := .next (s.gooseRx m)

/-- GOOSE_TAL (R206): the arrival deadline of subscription `i` has passed by the resolution delay of a station port (R94). -/
def State.gooseTal (s : State) (i : Nat) : State :=
  match (fget {} s.stn.goose i).deadline with
  | none => s
  | some t =>
    let due := t + 4 * stnDelay
    let s := s.runToQ due
    if quarters s.time.ctr < due then s else s.gooseExpired i
def execGooseTal (i : Nat) (s : State) : Host.Outcome State Fault Refusal := .next (s.gooseTal i)

/-- RT_HOLD_EXPIRY (R391): in M9 the member has been FALSE for HOLD consecutive periods; an expired dataset leaves the mode unchanged. -/
def State.rtExpiry (s : State) : State :=
  let g := fget {} s.stn.goose (s.rd Reg.MODE_RT_SUB)
  if s.on Reg.MODE_RT_EN && s.modeNo == 9 && !g.expired && g.stNum.isSome && !s.rtMember g && decide (s.mode.rtFalse + s.rd Reg.MODE_RT_HOLD ≤ s.pn) then
    s.request { who := .warden, target := 7 }
  else s
def execRtHoldExpiry (s : State) : Host.Outcome State Fault Refusal := .next s.rtExpiry

/-! ### The medium of a station port (R78, R80, R82, R86, R87) -/

/-- The corrections of a station port (R78), in quarter nanoseconds. -/
def rxAdj (p : Nat) : Fld := if p = 0 then Reg.STN_LAT0_RX_ADJ else Reg.STN_LAT1_RX_ADJ
def txAdj (p : Nat) : Fld := if p = 0 then Reg.STN_LAT0_TX_ADJ else Reg.STN_LAT1_TX_ADJ
/-- A timestamp of now with a correction added. -/
def State.stampAdj (s : State) (f : Fld) : Time :=
  BitVec.ofNat 96 (((quarters s.time.ctr : Int) + sext 16 (s.rd f)).toNat * 2 ^ 30)
/-- When byte 0 of a frame passes the balls of a port for a launch time at the corrected reference plane (R77, R86), in quarter nanoseconds. -/
def State.ballAt (s : State) (p t : Nat) : Nat := ((4 * t : Nat) - sext 16 (s.rd (txAdj p)) : Int).toNat
/-- How long a frame of `n` bytes takes the medium at 10 Gb/s, with its preamble and the gap before the next (log entry 87, PRESUMED), in quarter nanoseconds. -/
def mediumQ (n : Nat) : Nat := ceilDiv ((n + 20) * 32) 10
/-- The queue of a port. -/
def State.txQueue (s : State) (p : Nat) : List TxFrame := fget [] s.stn.tx p
/-- The timed frame of a queue with the earliest launch time, the first queued at equal times (R87). -/
def nextTimed (l : List TxFrame) : Option TxFrame :=
  l.foldl (fun (b : Option TxFrame) x => match x.launch, b with
    | some t, some y => (match y.launch with | some u => if t < u then some x else b | none => some x)
    | some _, none => some x
    | none, _ => b) none
/-- When the change that a publication sends next is due (R207): STN_GOOSE.OFS after its epoch. -/
def State.changeAt (s : State) (p : PubSt) : Option Nat :=
  match p.changes with
  | q :: _ => some ((if q.1 ≤ s.pn then s.time.epochAt else s.nextEpoch) + s.rd Reg.STN_GOOSE_OFS)
  | [] => none
/-- The launch times that wait at a port: of its queue, and of the changes of publications, which are timed frames too (R86, R207). -/
def State.launches (s : State) (p : Nat) : List Nat :=
  ((s.txQueue p).filterMap fun x => x.launch) ++ s.stn.pubs.filterMap fun (q : Nat × PubSt) => s.changeAt q.2
/-- Whether an untimed frame that begins at `q` would still be in transmission at a launch time of the port (R86). -/
def State.holdsBack (s : State) (p q n : Nat) : Bool := (s.launches p).any fun t => decide (s.ballAt p t < q + mediumQ n)
/-- The medium of a port is taken from `q` on by a frame of `n` bytes. -/
def State.takeMedium (s : State) (p q n : Nat) : State := { s with stn := { s.stn with busy := fset p (q + mediumQ n) s.stn.busy } }

/-! ### Published datasets (R207) -/

/-- The members of a dataset as a message carries them: up to the highest one that has been put. R504 gives byte 12 of a publication to two fields, so
its member count is not used (log entry 31, DESIGN CHOICE). -/
def State.pubWords (s : State) (n : Nat) : List W32 :=
  let ws := (fget {} s.stn.pubs n).words
  (List.range (min 32 (ws.foldl (fun m q => max m (q.1 + 1)) 0))).map fun m => fget 0 ws m
/-- A message on both station ports: it carries twice the interval to the next one as timeAllowedtoLive, here in ns. The length of its encoding, which the
manual does not give, is left open. `launch`: the launch time of a timed frame; one whose time has passed, or whose medium is taken, goes at once (log
entry 31, DESIGN CHOICE). -/
def State.pubSend (s : State) (n interval : Nat) (launch : Option Nat) : State :=
  let ws := s.pubWords n
  let len := 64 + s.freeVal.toNat % 1459
  let now := quarters s.time.ctr
  let at_ (p : Nat) : Nat := max (fget 0 s.stn.busy p) (match launch with | some t => max now (s.ballAt p t) | none => now)
  let s := (((s.takeMedium 0 (at_ 0) len).takeMedium 1 (at_ 1) len)).used
  s.modPub n fun p => { p with interval := interval, nextAt := some (s.ns + interval), sent := some (p.stNum, 2 * interval, ws, s.ns) }
/-- GOOSE_CHANGE_SEND (R207): at the epoch after its period plus STN_GOOSE.OFS the oldest change of dataset `n` is sent with stNum one higher. -/
def State.gooseChange (s : State) (n : Nat) : State :=
  match (fget {} s.stn.pubs n).changes with
  | [] => s
  | (k, ws) :: rest =>
    let t := s.time.epochAt + s.rd Reg.STN_GOOSE_OFS
    let s := if k ≤ s.pn then s.runTo t else s
    if s.pn < k || decide (s.ns < t) then s
    else
      (s.modPub n fun p => { p with stNum := p.stNum + 1, changes := rest, words := ws.foldl (fun m q => fset q.1 q.2 m) p.words }).pubSend n
        (1000 * s.rd (Reg.GOOSE_T1_T1.win n)) (some t)
def execGooseChangeSend (n : Nat) (s : State) : Host.Outcome State Fault Refusal := .next (s.gooseChange n)

/-- GOOSE_RETRANSMIT (R207): the message again, with an interval twice the last, up to GOOSE_T0; it is held back before a timed frame (R86). -/
def State.gooseAgain (s : State) (n : Nat) : State :=
  let p := fget {} s.stn.pubs n
  match p.nextAt with
  | none => s
  | some t =>
    let s := s.runTo t
    let now := quarters s.time.ctr
    if s.ns < t || [0, 1].any (fun p => s.holdsBack p (max now (fget 0 s.stn.busy p)) 1522) then s
    else s.pubSend n (min (2 * p.interval) (1000000 * s.rd (Reg.GOOSE_T0_T0.win n))) none
def execGooseRetransmit (n : Nat) (s : State) : Host.Outcome State Fault Refusal := .next (s.gooseAgain n)

end Sys2Proof.Machine
end

