-- ==== Sys2Proof/Machine/Host.lean ====
section
/-! DEFINITION. The host interface: doorbells, rings, interrupts, the wedged function, station frames, and the commands of a ring other than Clauses
(R412 to R421, R432, R84 to R87). -/

namespace Sys2Proof.Machine

/-! ### The wedged function (R432) -/

/-- The host function wedges: no DMA and no message from then on, the staged Clause is discarded, the armed one abandoned with HOST_LOST. -/
def State.wedge (s : State) : State :=
  if s.wedged then s
  else
    let s := { s with host := { s.host with cplWait := [], readOpen := false } }
    ((s.wr Reg.HOST_STAT_WEDGED 1).dropStaged).abandonClause Rsn.HOST_LOST none

/-- HOST_WEDGE (R432): 0 link down or hot reset, 1 Bus Master Enable cleared, 2 entry to D3hot, after reset exit. Bus Master Enable counts only while a
ring is enabled. -/
def State.hostWedge (s : State) (cause : Nat) : State :=
  let anyRing := (List.range 64).any fun n => s.on (ringF n Reg.RING_CFG_EN)
  if s.modeNo == 0 || (cause == 1 && !anyRing) then s
  else (if cause == 0 then { s with host := { s.host with pcieUp := false } } else s).wedge
def execHostWedge (cause : Nat) (s : State) : Host.Outcome State Fault Refusal := .next (s.hostWedge cause)

/-! ### Doorbells and rings (R412, R414) -/

/-- New entries of a command ring are fetched, up to CMD_MAX. -/
def RingSt.fetch (x : RingSt) (mx : Nat) : RingSt :=
  let n := min mx ((x.prod + 65536 - x.fetched) % 65536)
  { x with fetched := (x.fetched + n) % 65536, waiting := x.waiting + n }
/-- IDX of a ring is taken. -/
def State.takeIdx (s : State) (n idx : Nat) : State :=
  if !s.on (ringF n Reg.RING_CFG_EN) then s
  else if s.rd (ringF n Reg.RING_CFG_KIND) == 1 then
    s.modRing n fun x => RingSt.fetch { x with prod := idx % 65536 } (s.rd Reg.HOST_CFG_CMD_MAX)
  else (s.modRing n fun x => { x with cons := idx % 65536 }).flushCpl n
/-- When the doorbell page is read next: once a period in M5 to M11, every POLL_INT in M1 to M4, never in M0. -/
def State.doorbellAt (s : State) : Option Nat :=
  if s.modeNo == 0 then none
  else if s.epochs then some (s.time.epochAt + s.rd Reg.HOST_DB_OFS)
  else some (s.host.pollAt + 1000 * s.rd Reg.HOST_DB_POLL_INT)
/-- A failed doorbell read or descriptor write (R432). -/
def State.dmaFails (s : State) : State :=
  let s := s.raise .chip { src := Src.HOST_DMA_ERR }
  let s := { s with host := { s.host with fails := s.host.fails + 1 } }
  if s.rd Reg.HOST_CFG_FAIL_N ≤ s.host.fails then s.wedge else s
/-- DOORBELL_READ (R414): the page read that falls due, once a period in M5 to M11. `idx`: the IDX words it returns; `res`: 0 it completes, 1 it is still
outstanding when the next one falls due, which abandons and counts it, 2 it fails. -/
def State.doorbell (s : State) (idx : List (Nat × Nat)) (res : Nat) : State :=
  match s.doorbellAt with
  | none => s
  | some t =>
    if s.wedged || (s.epochs && decide (t ≤ s.host.pollAt)) then s
    else
      let s := s.runTo t
      let s := if s.host.readOpen then s.inc Reg.HOST_STAT_DB_SKIP else s
      let s := { s with host := { s.host with pollAt := s.ns, readOpen := res == 1 } }
      if res == 1 then s
      else if res == 2 then s.dmaFails
      else (idx.foldl (fun s q => if q.1 < 64 then s.takeIdx q.1 q.2 else s) s) |> fun s => { s with host := { s.host with fails := 0 } }
def execDoorbellRead (idx : List (Nat × Nat)) (res : Nat) (s : State) : Host.Outcome State Fault Refusal := .next (s.doorbell idx res)

/-- RING_CFG_WRITE (R412): RING_CFG of the ring that RING_SEL names; discarded while that ring is enabled. Enabling sets both indices to 0; a second event
or trace ring is not enabled. -/
def State.ringCfg (s : State) (v : W32) : State :=
  s.onWrite fun s =>
    let n := s.rd Reg.RING_SEL_N
    if s.on (ringF n Reg.RING_CFG_EN) then s
    else
      let w (s : State) (f : Fld) : State := s.wr (ringF n f) (bits v.toNat (f.lsb % 32) f.width)
      let s := w (w (w (w (w (w s Reg.RING_CFG_KIND) Reg.RING_CFG_LOG2) Reg.RING_CFG_VEC) Reg.RING_CFG_MOD) Reg.RING_CFG_CPL) Reg.RING_CFG_PORT
      let k := s.rd (ringF n Reg.RING_CFG_KIND)
      if !v.toNat.testBit 31 then s
      else if (k == 4 || k == 5) && (s.ringOfKind k).isSome then s.wr Reg.HOST_STAT_CFG_ERR 1
      else (s.wr (ringF n Reg.RING_CFG_EN) 1).modRing n fun _ => {}
def execRingCfgWrite (v : W32) (s : State) : Host.Outcome State Fault Refusal := .next (s.ringCfg v)

/-! ### Interrupts (R415) -/

/-- MSIX_MODERATION_EXPIRY (R415): the moderation timer of vector `v` ends and its message issues. -/
def State.modExpiry (s : State) (v : Nat) : State :=
  match s.host.modTimer.find? fun p => p.1 == v with
  | none => s
  | some p =>
    let s := s.runTo p.2
    if s.ns < p.2 || s.wedged then s else { s with host := { s.host with modTimer := fdel v s.host.modTimer } }.issueMsix v
def execMsixModerationExpiry (v : Nat) (s : State) : Host.Outcome State Fault Refusal := .next (s.modExpiry v)

/-- MSIX_UNMASK (R415): vector `v` is unmasked, and a message held in its PBA bit issues. -/
def State.unmask (s : State) (v : Nat) : State :=
  if 64 ≤ v || !s.takesWrites then s
  else
    let s := { s with host := { s.host with msixUnmasked := v :: s.host.msixUnmasked.filter fun x => x != v } }
    if s.host.pba.testBit v && !s.wedged then { s with host := { s.host with pba := clrBit s.host.pba v } }.issueMsix v else s
def execMsixUnmask (v : Nat) (s : State) : Host.Outcome State Fault Refusal := .next (s.unmask v)

/-! ### Trace delivery (R421) -/

/-- TRACE_DELIVER (R154, R415, R421): the oldest trace record of region `r` goes to the trace ring, or waits while that is full. -/
def State.traceDeliver (s : State) (r : Nat) : State :=
  match s.ringOfKind 5, (s.dsp r).trace with
  | some n, x :: rest =>
    if s.ringFull n || s.wedged then s
    else
      let k := (s.dsp r).traceCount + 1
      (s.modDisp r fun d => { d with trace := rest, traceCount := k }).putDesc n 0x30 [(2, 1, r), (4, 4, k), (16, 16, x.toNat)] false false
  | _, _ => s
def execTraceDeliver (r : Nat) (s : State) : Host.Outcome State Fault Refusal := .next (s.traceDeliver r)

/-! ### Station frames (R77, R78, R86, R87, R419) -/

/-- STN_FRAME_RECEIVE (R419): a frame arrives on port `p`; `sub`: it is of a subscription; `mine`: it is addressed to the port; `fcs`: its check sequence is
right. It goes to the receive ring of the port: every PTP frame of a version that R81 accepts, a frame of a subscription, and with RX_CFG.OTHER any other that is
addressed to the port. A Pdelay_Req is kept with its timestamp for
the one-step answer (R81). -/
def State.stnRx (s : State) (p q : Nat) (frame : List Byte) (sub mine fcs : Bool) : State :=
  if 2 ≤ p then s
  else
    let s := s.runBy q
    if !fcs then s
    else
      let cls := frameClass frame
      let t := s.stampAdj (rxAdj p)
      let s := if cls = 0 ∧ ptpType frame = 2 then
          { s with stn := { s.stn with pdelay := fmod [] p (fun l => (pdelayKey frame, quarters t) :: l.filter fun x => x.1 != pdelayKey frame) s.stn.pdelay } }
        else s
      let takes := cls == 0 || (sub && (cls == 1 || cls == 2)) || (mine && s.on Reg.RX_CFG_OTHER)
      match (s.ringsOfKind 6).find? fun n => s.rd (ringF n Reg.RING_CFG_PORT) == p with
      | some n =>
        if !takes then s
        else s.postRing n 0x20 [(2, 1, p), (3, 1, cls), (4, 2, frame.length), (8, 8, timeNs t), (16, 1, timeQ t)] false
      | none => s
def execStnFrameReceive (p q : Nat) (frame : List Byte) (sub mine fcs : Bool) (s : State) : Host.Outcome State Fault Refusal :=
  .next (s.stnRx p q frame sub mine fcs)

/-- A frame leaves the queue. -/
def State.unqueue (s : State) (p : Nat) (x : TxFrame) : State :=
  { s with stn := { s.stn with tx := fmod [] p (fun l => l.erase x) s.stn.tx } }
/-- The frame as it leaves with an egress timestamp: with one-step, the timestamp written in (R81, R82). -/
def State.frameOut (s : State) (p : Nat) (x : TxFrame) (t : Time) : List Byte :=
  if x.oneStep then oneStep x.frame (quarters t) (((fget [] s.stn.pdelay p).find? fun y => y.1 == pdelayAnswers x.frame).map Prod.snd) else x.frame
/-- A queued frame is transmitted now, and its command completes with the egress timestamp (R80, R418). -/
def State.egress (s : State) (p : Nat) (x : TxFrame) (status : Nat) : State :=
  let t := s.stampAdj (txAdj p)
  let out := s.frameOut p x t
  let s := (s.unqueue p x).takeMedium p (quarters s.time.ctr) x.frame.length
  let s := { s with stn := { s.stn with out := fset p out s.stn.out } }
  s.complete x.cmd.ring x.cmd.tag 0x07 x.cmd.notify status (if x.retTs then timeNs t else 0) ((if x.retTs then timeQ t else 0) + 4)
/-- STN_FRAME_TRANSMIT (R86, R87): port `p` transmits: with `timed`, the timed frame that is next, byte 0 at the corrected plane at its launch time, late where
that has passed or the medium is taken; otherwise the first untimed frame, unless it would run into a launch time. -/
def State.stnTx (s : State) (p : Nat) (timed : Bool) : State :=
  let l := s.txQueue p
  let free := fget 0 s.stn.busy p
  match timed, nextTimed l with
  | true, some x =>
    let t := s.ballAt p (x.launch.getD 0)
    let late := decide (t < quarters s.time.ctr) || decide (t < free)
    if !late then (s.runToQ t).egress p x Cpl.OK
    else if x.late then (s.runToQ free).egress p x Cpl.TX_LATE
    else (s.unqueue p x).complete x.cmd.ring x.cmd.tag 0x07 x.cmd.notify Cpl.TX_LATE 0 0
  | true, none => s
  | false, _ =>
    match l.find? fun x => x.launch.isNone with
    | none => s
    | some x =>
      let s := s.runToQ free
      if s.holdsBack p (quarters s.time.ctr) x.frame.length then s else s.egress p x Cpl.OK
def execStnFrameTransmit (p : Nat) (timed : Bool) (s : State) : Host.Outcome State Fault Refusal := .next (s.stnTx p timed)

/-! ### Commands (R416 to R418) -/

/-- A command of a ring that may start runs and completes with the status, result and DETAIL it answers. -/
def State.command (s : State) (c : HostCmd) (op : Nat) (f : State → State × Nat × Nat × Nat) : State :=
  if !s.mayStart c.ring c.fence then s
  else
    let q := f (s.start c.ring)
    q.1.complete c.ring c.tag op c.notify q.2.1 q.2.2.1 q.2.2.2

/-- The opcodes of R416. -/
def opcodes : List Nat := [0x01, 0x02, 0x03, 0x04, 0x05, 0x06, 0x07, 0x10, 0x11, 0x12, 0x13, 0x14]
/-- NOP, opcode 0x01 (R416). A descriptor with an opcode that R416 does not list, which no other row takes, completes with BAD_COMMAND. -/
def execNopCommand (c : NopCmd) (s : State) : Host.Outcome State Fault Refusal :=
  .next (s.command c.cmd c.op fun s => (s, if opcodes.contains c.op then Cpl.OK else Cpl.BAD_COMMAND, 0, 0))

/-- Whether a Verb of a loaded Phrase of a region may store to a word (R175, R193). -/
def State.phraseWrites (s : State) (r ad : Nat) : Bool :=
  (s.phrasesOf r).any fun p => p.verbs.any fun v => (s.stores p v).any (overlap (ad, 4))
/-- The local arm whose reference record holds a word (R193, R502). -/
def State.refWord (s : State) (r ad : Nat) : Bool :=
  (List.range 4).any fun a => let b := s.rd (af r a Arm.ARM_PBASE_BASE); decide (b + 0xC0 ≤ ad) && decide (ad < b + 0xD0)
/-- The loop and the offset in its block of an address (R503). -/
def State.loopWord (s : State) (r ad : Nat) : Option (Nat × Nat) :=
  let b := s.rd (rf r Rgn.LOOP_BASE_BASE)
  if b ≤ ad ∧ ad < b + 64 * 0x140 then some ((ad - b) / 0x140, (ad - b) % 0x140) else none
/-- Whether a word of a loop block is a coefficient or state word (R197, R211): not Y_LAST, LIM_DIR or the reserved words. -/
def loopGuarded (o : Nat) : Bool := decide (o < 8) || (decide (0x20 ≤ o) && decide (o < 0x130))
/-- The words a parameter write carries, with their addresses. -/
def paramWords (ad : Nat) (l : List Byte) : List (Nat × W32) :=
  (List.range (l.length / 4)).map fun i => (ad + 4 * i, BitVec.ofNat 32 (leAt l (4 * i) 4))
/-- Whether a byte belongs to the cell map of a region (R440). -/
def State.mapByte (s : State) (r ad : Nat) : Bool :=
  let b := s.rd (rf r Rgn.ENUM_MAP_BASE_BASE)
  decide (b ≤ ad) && decide (ad < b + 0x8000)
/-- Whether a word may not be written by the host (R193, R211, R227, R440). -/
def State.wordRefused (s : State) (r : Nat) (q : Nat × W32) : Bool :=
  s.rankByte r q.1 || (s.epochs && s.mapByte r q.1) || (s.refWord r q.1 && s.phraseWrites r q.1)
    || match s.loopWord r q.1 with
      | some (l, o) => s.loopClosed r l && loopGuarded o && s.rgnWord r q.1 != q.2
      | none => false
/-- A word written by the host: Y_LAST and LIM_DIR keep their values (R211), a word of a reference record changes at the next epoch (R193). -/
def State.paramWord (s : State) (r : Nat) (q : Nat × W32) : State :=
  match s.loopWord r q.1 with
  | some (_, o) => if o = 8 || o = 12 then s else s.setWord r q.1 q.2
  | none => if s.refWord r q.1 && s.epochs then s.modRgn r fun x => { x with refWrites := fset q.1 q.2 x.refWrites } else s.setWord r q.1 q.2

/-- PARAM_WRITE (R416, R418): `data` is what the buffer holds, none where its read fails. -/
def State.paramWrite (s : State) (r ad : Nat) (data : Option (List Byte)) : State × Nat × Nat × Nat :=
  match data with
  | none => (s, Cpl.DMA_ERROR, 0, 0)
  | some l =>
    if s.dies ≤ r || ad % 4 != 0 || l.length % 4 != 0 || l.length < 4 || 65536 < l.length || 0x800000 < ad + l.length then (s, Cpl.BAD_COMMAND, 0, 0)
    else
      let ws := paramWords ad l
      if ws.any (s.wordRefused r) then (s, Cpl.REFUSED, 0, 0) else (ws.foldl (fun s q => s.paramWord r q) s, Cpl.OK, 0, 0)
def execParamWrite (c : HostCmd) (r ad : Nat) (data : Option (List Byte)) (s : State) : Host.Outcome State Fault Refusal :=
  .next (s.command c 0x02 fun s => s.paramWrite r ad data)

/-- What a read of the security block of die 0 shows: SERIAL, the owner hash and SEC_SVN_MIN (R475, R476). -/
def State.secItems (s : State) : List (Nat × List Byte) :=
  [(Config.unitSerialAt, leBytes 8 (s.rd Reg.SEC_SERIAL_SERIAL)),
   (Config.ownerHashAt, (List.range 12).flatMap fun i => leBytes 4 (s.rd (Reg.SEC_OWNER_HASH0.at (4 * i)))),
   (Config.svnMinAt, leBytes 8 (s.rd Reg.SEC_SVN_MIN_SVN))]
/-- The bytes a PARAM_READ of region memory returns; the security block lies at the start of die 0's MRAM (R475, R476). -/
def State.readBytes (s : State) (r a n : Nat) : List Byte :=
  (List.range n).map fun i =>
    if r == 0 && decide (mramBase ≤ a + i) && decide (a + i < mramBase + 0x1000) then secByte s.secItems (a + i - mramBase)
    else memGet s.sram (rgnKey r (a + i))
/-- PARAM_READ (R416): SRAM or MRAM bytes go to the host; the result is their number. The manual bounds its length by the memory only. -/
def State.paramRead (s : State) (r ad len : Nat) : State × Nat × Nat × Nat :=
  if s.dies ≤ r || ad % 4 != 0 || 0xA00000 < ad + len then (s, Cpl.BAD_COMMAND, 0, 0)
  else ({ s with lastRead := BitVec.ofNat 32 (leVal (s.readBytes r ad (min len 4))) }, Cpl.OK, len, 0)
def execParamRead (c : HostCmd) (r ad len : Nat) (s : State) : Host.Outcome State Fault Refusal :=
  .next (s.command c 0x03 fun s => s.paramRead r ad len)

/-- STN_TX (R86, R87, R416): the frame is queued and the command completes at transmission; a launch time on a frame that is neither PTP nor GOOSE, a ninth timed
frame, or a launch more than 1 s ahead, is refused. `frame`: what the buffer holds, none where its read fails. -/
def State.stnSend (s : State) (c : HostCmd) (p : Nat) (frame : Option (List Byte)) (launch : Option Nat) (late : Bool) (ts : TxStamp) : State :=
  if !s.mayStart c.ring c.fence then s
  else
    let s := s.start c.ring
    let done (st : Nat) : State := s.complete c.ring c.tag 0x07 c.notify st 0 0
    match frame with
    | none => done Cpl.DMA_ERROR
    | some l =>
      let wrong := launch.isSome && frameClass l != 0 && frameClass l != 2
      if 2 ≤ p || l.length < 64 || 1522 < l.length || wrong then done Cpl.BAD_COMMAND
      else if launch.isSome && decide (8 ≤ (s.launches p).length) then done Cpl.TX_QUEUE_FULL
      else if (match launch with | some t => decide (s.ns + 1000000000 < t) | none => false) then done Cpl.TX_TOO_FAR
      else { s with stn := { s.stn with tx := fmod [] p (fun q => q ++ [⟨c, l, launch, late, ts.oneStep, ts.ret⟩]) s.stn.tx } }
def execStnTx (c : HostCmd) (p : Nat) (frame : Option (List Byte)) (launch : Option Nat) (late : Bool) (ts : TxStamp) (s : State) : Host.Outcome State Fault Refusal :=
  .next (s.stnSend c p frame launch late ts)

/-! ### Cell commands (R125 to R128, R367, R416) -/

/-- A management transaction of the host is queued on the cell's tree; on a tree that is DISABLED, IDLE or FAILED it fails at once (R128). -/
def State.cellCommand (s : State) (c : HostCmd) (op cell kind len : Nat) (bad : Bool) (payload : List Byte) : State :=
  if !s.mayStart c.ring c.fence then s
  else
    let s := s.start c.ring
    let r := idxRegion cell
    let t := idxTree cell
    let done (st : Nat) : State := s.complete c.ring c.tag op c.notify st 0 0
    let st := s.treeState r t
    if bad || s.dies ≤ r || 32768 ≤ cell || s.slotsN r t ≤ idxSlot cell then done Cpl.BAD_COMMAND
    else if st == 0 || st == 1 || st == 6 then done Cpl.MGMT_FAIL
    else s.modTree r t fun x => x.queue kind (idxSlot cell) false payload (.host c.ring c.tag op c.notify len)

/-- CELL_REG (R416, R508): one read or one write of an Elsum register. -/
def execCellReg (c : HostCmd) (cell : Nat) (write : Bool) (addr : Nat) (value : W32) (s : State) : Host.Outcome State Fault Refusal :=
  .next (s.cellCommand c 0x05 cell 1 4 (addr % 4 != 0 || 65536 ≤ addr)
    (RegOp.bytes ⟨write, addr, if write then 0xFFFFFFFF else 0, if write then value else 0⟩))

/-- CELL_MEM (R416, R509): a read or a write of cell memory of at most 1,024 bytes; a write carries the buffer, none where its read fails. -/
def execCellMem (c : HostCmd) (cell addr len : Nat) (data : Option (List Byte)) (write : Bool) (s : State) : Host.Outcome State Fault Refusal :=
  .next (if write && data.isNone then s.command c 0x06 fun s => (s, Cpl.DMA_ERROR, 0, 0)
    else if write then s.cellCommand c 0x06 cell 2 len (len = 0 || 1024 < len || (data.getD []).length != len) (leBytes 4 addr ++ leBytes 2 len ++ leBytes 2 0 ++ data.getD [])
    else s.cellCommand c 0x06 cell 3 len (len = 0 || 1024 < len) (leBytes 4 addr ++ leBytes 2 len ++ leBytes 2 0))

end Sys2Proof.Machine
end

