-- ==== Sys2Proof/Machine/Mode.lean ====
section
/-! DEFINITION. The commands of modes, power states and AVSBus (R386 to R408) that act on the unit. -/

namespace Sys2Proof.Machine

/-! ### Wakes and descent (R392 to R398) -/

/-- The exit latency of a power state in nanoseconds (R392, R393). -/
def State.exitLatency (s : State) (p : Nat) : Nat :=
  if p = 1 then 2 * s.period else if p = 2 then 5000000 else if p = 3 then 80000000 else 0

/-- Whether wake event `ev` acts in power state `p` (R395). -/
def wakeActs (ev p : Nat) : Bool :=
  if ev = 1 ∨ ev = 2 then p == 2 else if ev = 6 then p == 1 || p == 2 else true

/-- The wake event that acts: the lowest one noted, enabled and defined for the power state (R395; log entry 25, DEDUCED). -/
def State.wakeEvent (s : State) : Option Nat :=
  (List.range 7).find? fun ev =>
    s.mode.wakePend.testBit ev && (ev == 0 || (s.rd Reg.WAKE_CFG_EN).testBit (ev - 1)) && wakeActs ev (s.rd Reg.MODE_STAT_PSTATE)

/-- WAKE_EVENT (R395): from IDLE to ACTIVE; from GLIMMER or DORMANT the warden requests M5. During an entry the event waits for an abort point (R397). -/
def State.wake (s : State) : State :=
  if s.mode.entry.isSome then s
  else
    let p := s.rd Reg.MODE_STAT_PSTATE
    let ev := s.wakeEvent
    let s := { s with mode := { s.mode with wakePend := 0 } }
    match ev with
    | none => s
    | some n =>
      if p == 0 then s
      else
        let s := s.wr Reg.WAKE_STAT_CAUSE n
        let s := if n != 0 then s.wr Reg.WAKE_STAT_HELD 1 else s
        if p == 1 then
          let s := s.wr Reg.MODE_STAT_PSTATE 0
          { s with mode := { s.mode with gaugeWait := true, gated := false, idleFrom := s.ns } }
        else if s.mode.running.isSome then s
        else s.request { who := .warden, target := 5 }
def execWakeEvent (s : State) : Host.Outcome State Fault Refusal := .next s.wake

/-- Whether a power state is permitted by LAT_TOL and PWR_CFG (R393). -/
def State.permits (s : State) (p : Nat) : Bool :=
  decide (s.exitLatency p ≤ s.rd Reg.LAT_TOL_TOL * 1000)
    && (p != 2 || s.on Reg.PWR_CFG_GLIM_EN) && (p != 3 || s.on Reg.PWR_CFG_DORM_EN)

/-- The descent to the lowest permitted power state (R394). -/
def State.descend (s : State) : State :=
  if s.modeNo == 6 && s.permits 3 then s.request { who := .warden, target := 3 }
  else if s.modeNo == 6 && s.permits 2 then s.request { who := .warden, target := 4 }
  else if s.permits 1 && s.rd Reg.MODE_STAT_PSTATE == 0 then
    let s := s.wr Reg.MODE_STAT_PSTATE 1
    { s with mode := { s.mode with gated := true, wakePend := 0 } }
  else s

/-- Whether the unit may descend (R394). -/
def State.mayDescend (s : State) : Bool :=
  (s.modeNo == 6 || s.modeNo == 10) && !s.on Reg.WAKE_STAT_HELD && s.mode.running.isNone && s.mode.pending.isNone

/-- DESCENT (R394): IDLE_DLY after the last granted request. -/
def State.descent (s : State) : State :=
  if !s.mayDescend || s.mode.retryAt.isSome then s
  else
    let n := s.mode.idleFrom + s.rd Reg.PWR_CFG_IDLE_DLY * 1000000
    let s := s.runTo n
    if s.ns < n then s else s.descend
def execDescent (s : State) : Host.Outcome State Fault Refusal := .next s.descent

/-- DESCENT_RETRY (R398): RETRY_INT after a refused descent of the warden. -/
def State.descentRetry (s : State) : State :=
  match s.mode.retryAt with
  | none => s
  | some n =>
    let s := s.runTo n
    if s.ns < n then s
    else
      let s := { s with mode := { s.mode with retryAt := none } }
      if s.mayDescend then s.descend else s
def execDescentRetry (s : State) : Host.Outcome State Fault Refusal := .next s.descentRetry

/-- LAT_TOL_WRITE (R393, R395): the tolerance; HELD clears, and a value below the exit latency of the state in force is wake event 0. -/
def State.latTolWrite (s : State) (v : W32) : State :=
  s.onWrite fun s =>
    let s := (s.wr Reg.LAT_TOL_TOL v.toNat).wr Reg.WAKE_STAT_HELD 0
    if v.toNat * 1000 < s.exitLatency (s.rd Reg.MODE_STAT_PSTATE) then (s.noteWake 0).wake else s
def execLatTolWrite (v : W32) (s : State) : Host.Outcome State Fault Refusal := .next (s.latTolWrite v)

/-- MODE_CMD_TARGET (R386, R395, R492): a host mode request; the write is wake event 0 and clears HELD. From IDLE the wake comes first; in M3 and M4 a request for M5
is the exit that the wake asks for (log entry 25, DEDUCED). -/
def State.modeCmd (s : State) (target : Nat) : State :=
  s.onWrite fun s =>
    let s := (s.wr Reg.WAKE_STAT_HELD 0).noteWake 0
    let s := if s.rd Reg.MODE_STAT_PSTATE == 1 then s.wake else s
    (s.request { who := .host, target := target % 16 }).wake
def execModeCmdTarget (target : Nat) (s : State) : Host.Outcome State Fault Refusal := .next (s.modeCmd target)

/-! ### Effects (R387, R396, R400) -/

/-- MODE_CHANGE_EFFECT (R387, R396, R400): a granted transition takes effect at its epoch, at its Beacon launch, at the end of its entry sequence, or
at step 5 of its exit. -/
def State.modeEffect (s : State) : State :=
  match s.mode.running with
  | none => s.judgePending
  | some run =>
    match run.effect with
    | .atOnce => s.takeEffect run
    | .epoch =>
      match run.pn with
      | some n => if n ≤ s.pn then (let s := s.takeEffect run; { s with mode := { s.mode with atEpoch := s.modeNo } }) else s
      | none => s
    | .launch => (s.runTo s.launchAt).takeEffect run
    | .entry => s.entryStep.entryGate.judgePending
    | .exit =>
      if (s.modeNo == 4 && s.mode.exitStep == 4) || (s.modeNo == 3 && s.mode.exitStep == 5) then s.takeEffect run else s
def execModeChangeEffect (s : State) : Host.Outcome State Fault Refusal := .next s.modeEffect

/-! ### AVSBus (R400, R403 to R405) -/

/-- The LAST_OK field of a rail: 0 core, 1 SerDes. -/
def railFld (rail : Nat) : Fld := if rail = 0 then Reg.AVS_STAT_CORE else Reg.AVS_STAT_SER

/-- The request of a rail ends, and a waiting target is sent (R403). -/
def State.avsNext (s : State) (rail : Nat) : State :=
  let w := s.mode.avsWait.find? fun p => p.1 == rail
  let s := { s with mode := { s.mode with avsReq := fdel rail s.mode.avsReq, avsWait := fdel rail s.mode.avsWait, avsTry := fdel rail s.mode.avsTry } }
  match w with
  | some (_, v) => s.avsRequest rail v
  | none => s

/-- The steps of an exit that a rail's acknowledgement completes (R400). -/
def State.exitAck (s : State) (rail : Nat) : State :=
  match s.mode.running with
  | some run =>
    if run.effect != .exit then s
    else if s.mode.exitStep == 1 && rail == 0 then
      if s.modeNo == 3 then { s with mode := { s.mode with exitStep := 2 } }.avsRequest 1 (s.rd Reg.AVS_TGT_SERDES)
      else { s with mode := { s.mode with exitStep := 3 } }
    else if s.mode.exitStep == 2 && rail == 1 then { s with mode := { s.mode with exitStep := 3 } }
    else s
  | none => s

/-- AVS_ACK (R400, R403, R405): SlaveAck and VDone for the request of a rail in flight. -/
def State.avsAck (s : State) (rail : Nat) : State :=
  match s.mode.avsReq.find? fun p => p.1 == rail with
  | none => s
  | some (_, v) =>
    let old := s.rd (railFld rail)
    let s := (s.wr (railFld rail) v).wr Reg.AVS_STAT_NACK 0
    let active := s.rd Reg.MODE_STAT_PSTATE ≤ 1 && s.mode.entry.isNone
    let s := if rail = 0 then
        { s with mode := { s.mode with
            coreAtGauge := if active then v else s.mode.coreAtGauge
            calDueAt := if 20 < ((v : Int) - (old : Int)).natAbs then some (s.ns + 50000) else s.mode.calDueAt } }
      else s
    ((s.avsNext rail).exitAck rail).entryGate.judgePending
def execAvsAck (rail : Nat) (s : State) : Host.Outcome State Fault Refusal := .next (s.avsAck rail)

/-- A rail's request fails after its last attempt (R396, R400, R403): AVS_NACK; an exit ends as AVS_FAIL, an entry goes on. -/
def State.avsNack (s : State) (rail : Nat) : State :=
  let s := (s.raise .chip { src := Src.AVS_NACK }).wr Reg.AVS_STAT_NACK 1
  let s := s.avsNext rail
  match s.mode.running with
  | some run =>
    if run.effect == .exit && decide (s.mode.exitStep ≤ 2) then
      let s := s.wr Reg.PWR_STAT_ERR 1
      (({ s with mode := { s.mode with running := none, exitStep := 0 } }).endReq run.req Res.AVS_FAIL s.modeNo).judgePending
    else s.entryGate
  | none => s.judgePending

/-- AVS_ACK_TIMEOUT (R403): no acknowledgement within ACK_TMO; the request is sent again, or fails after RETRY attempts. -/
def State.avsTimeout (s : State) (rail : Nat) : State :=
  if !fhas s.mode.avsReq rail then s
  else
    let n := fget 0 s.mode.avsSent rail + s.rd Reg.AVS_CFG_ACK_TMO * 1000
    let s := s.runTo n
    if s.ns < n then s
    else
      let tries := fget 0 s.mode.avsTry rail + 1
      if s.rd Reg.AVS_CFG_RETRY ≤ tries then s.avsNack rail
      else { s with mode := { s.mode with avsTry := fset rail tries s.mode.avsTry, avsSent := fset rail s.ns s.mode.avsSent } }
def execAvsAckTimeout (rail : Nat) (s : State) : Host.Outcome State Fault Refusal := .next (s.avsTimeout rail)

/-- V_GUARD in mV (R528). -/
def vGuard : Nat := 720

/-- The core target of an evaluation (R404), before its limits: a raise, a reduction, or no request. -/
def State.avsTarget (s : State) : Option Nat :=
  let ratio := (List.range s.dies).foldl (fun m r => min m (s.rd (rf r Rgn.DISP_GAUGE_RATIO))) 65535
  let slow := (List.range s.dies).any fun r => s.active (.region r) Src.CORE_SLOW
  let last := s.rd Reg.AVS_STAT_CORE
  let step := s.rd Reg.AVS_CFG_STEP
  if ratio < s.rd Reg.AVS_CFG_RLO || slow then some (last + (if s.mode.coreSlowSince then 4 * step else step))
  else if s.rd Reg.AVS_CFG_RHI < ratio && !s.on Reg.AVS_STAT_NACK then some (last - step)
  else none

/-- The floor of the core target (R404; R392 in IDLE). -/
def State.avsFloor (s : State) : Nat :=
  let runs (n : Nat) : Bool := n == 7 || n == 8 || n == 9
  let asked := match s.mode.running with | some x => runs x.req.target | none => false
  let f := s.rd Reg.AVS_LIM_MIN
  if runs s.modeNo || asked then max f (vGuard + s.rd Reg.AVS_CFG_MARGIN)
  else if s.rd Reg.MODE_STAT_PSTATE == 1 then max f vGuard else f

/-- AVS_EVALUATE (R404): once every AVS_CFG.INT in ACTIVE and IDLE, with no core request in flight. -/
def State.avsEvaluate (s : State) : State :=
  if s.modeNo == 0 || 2 ≤ s.rd Reg.MODE_STAT_PSTATE || s.mode.entry.isSome || fhas s.mode.avsReq 0 then s
  else
    let n := s.mode.evalAt + s.rd Reg.AVS_CFG_INT * 1000
    let s := s.runTo n
    if s.ns < n then s
    else
    let t := s.avsTarget
    let s := { s with mode := { s.mode with evalAt := s.ns, coreSlowSince := false } }
    match t with
    | some v => s.avsRequest 0 (min (max v s.avsFloor) (s.rd Reg.AVS_LIM_MAX))
    | none => s
def execAvsEvaluate (s : State) : Host.Outcome State Fault Refusal := .next s.avsEvaluate

/-- GAUGE_RECALIBRATE (R405): once every AVS_CAL.INT, or 50 µs after a core change of more than 20 mV, the warden posts a calibration Verb on each
cluster; `mv`: the core voltage that Read Voltage returns. -/
def State.recalibrate (s : State) (mv : Nat) : State :=
  if s.modeNo == 0 || 2 ≤ s.rd Reg.MODE_STAT_PSTATE then s
  else
    let n := s.mode.calFrom + s.rd Reg.AVS_CAL_INT * 1000000000
    let n := match s.mode.calDueAt with | some m => min n m | none => n
    let s := s.runTo n
    if s.ns < n then s
    else
    let s := { s with mode := { s.mode with calFrom := s.ns, calDueAt := none, calMv := mv } }
    (List.range s.dies).foldl (fun s r => s.modDisp r fun d => { d with calPend := List.range 8 }) s
def execGaugeRecalibrate (mv : Nat) (s : State) : Host.Outcome State Fault Refusal := .next (s.recalibrate mv)

/-- IMAGE_RESTORE_COMPLETE (R400, R463): step 4 of an exit from M3; `ok`: the image in region MRAM verifies. After a
failure the unit stays in M3 until a full reset. -/
def State.imageRestored (s : State) (ok : Bool) : State :=
  match s.mode.running with
  | some run =>
    if run.effect == .exit && s.modeNo == 3 && s.mode.exitStep == 3 then
      if ok then { s with mode := { s.mode with exitStep := 5 } }
      else
        let s := (s.wr Reg.PWR_STAT_ERR 1).wr Reg.BOOT_STAT_ERR 5
        (({ s with mode := { s.mode with running := none, exitStep := 0, exitDead := true } }).endReq run.req Res.CONDITION s.modeNo).judgePending
    else s
  | none => s
def execImageRestoreComplete (ok : Bool) (s : State) : Host.Outcome State Fault Refusal := .next (s.imageRestored ok)

end Sys2Proof.Machine
end

