-- ==== Sys2Proof/Machine/Boot.lean ====
section
/-! DEFINITION. Full reset, reset exit, the stored image, self-test, and security (R384, R435 to R442, R461 to R474, R526). -/

namespace Sys2Proof.Machine

/-! ### Full reset (R439, R526) -/

/-- The fields that a full reset keeps: what MRAM holds, the unit's straps, and the debug unlock, which lasts until power is removed (R439, R472). -/
def keptRegs : List Fld :=
  [Reg.MIRR_AUTH_EPOCH, Reg.SEC_OWNER_HASH0, Reg.SEC_OWNER_HASH1, Reg.SEC_OWNER_HASH2, Reg.SEC_OWNER_HASH3, Reg.SEC_OWNER_HASH4,
    Reg.SEC_OWNER_HASH5, Reg.SEC_OWNER_HASH6, Reg.SEC_OWNER_HASH7, Reg.SEC_OWNER_HASH8, Reg.SEC_OWNER_HASH9, Reg.SEC_OWNER_HASH10,
    Reg.SEC_OWNER_HASH11, Reg.SEC_STAT_OWNER_SET, Reg.SEC_STAT_UNLOCKED, Reg.SEC_SVN_MIN_SVN, Reg.SEC_SERIAL_SERIAL, Reg.BOOT_STAT_UNIT,
    Reg.BOOT_STAT_BOOT, Reg.CHIP_ID_DIES]
/-- What the high words of the two-word registers that MRAM holds read before the first read of their low words: their reset values (R21). -/
def State.resetLatch (s : State) : FMap Nat :=
  fset 0x603C (s.rd Reg.SEC_SVN_MIN_SVN / 2 ^ 32) (fset 0x6044 (s.rd Reg.SEC_SERIAL_SERIAL / 2 ^ 32) [])
/-- A full reset (R384, R439): the unit is in M0 as `State.reset` has it, with every transmitter off; region MRAM and what `keptRegs` names are kept, and
so are the cells, the reference clock and the commands waiting. -/
def State.fullReset (s : State) (resetN : Bool) : State :=
  { State.reset with
    regs := (keptRegs.foldl (fun m f => Regs.wr m f (s.rd f)) State.reset.regs).wr Reg.CHIP_ID_DEVICE (deviceId s.dies)
    latch := s.resetLatch
    sram := s.sram.filter fun p => decide (mramBase ≤ p.1 % 0x1000000)
    time := { refclk := s.time.refclk, tick := s.time.tick + 1 }
    mode := { resetN := resetN }
    sec := { idk := s.sec.idk, extest := s.sec.extest && !resetN }
    cells := s.cells, cellMem := s.cellMem, free := s.free, pending := s.pending
    colls := State.reset.colls ++ s.colls.filter fun p => decide (4096 ≤ p.1) }

/-- FULL_RESET (R526): SYS_RESET_N low for 1 µs or more. -/
def execFullReset (s : State) : Host.Outcome State Fault Refusal := .next (s.fullReset false)
/-- MODE_CMD_FULL_RESET (R386, R432, R437): acts in every mode, wedged or not. -/
def execModeCmdFullReset (s : State) : Host.Outcome State Fault Refusal := .next (s.fullReset s.mode.resetN)
/-- DIE_0_WATCHDOG (R387): from any mode to M0. -/
def execDie0Watchdog (s : State) : Host.Outcome State Fault Refusal := .next (s.fullReset s.mode.resetN)
/-- SYS_RESET_N_RISE (R435, R436): the straps go to BOOT_STAT; BOOT 2 and 3 set ERR = 4. EXTEST ends with the reset of a locked part (R471). -/
def State.resetRise (s : State) (unit boot : Nat) : State :=
  if s.mode.resetN then s
  else
    let s := (s.wr Reg.BOOT_STAT_UNIT unit).wr Reg.BOOT_STAT_BOOT boot
    let s := if 2 ≤ boot % 4 then s.wr Reg.BOOT_STAT_ERR 4 else s
    { s with mode := { s.mode with resetN := true }, sec := { s.sec with extest := s.sec.extest && s.on Reg.SEC_STAT_UNLOCKED } }
def execSysResetNRise (unit boot : Nat) (s : State) : Host.Outcome State Fault Refusal := .next (s.resetRise unit boot)
/-- PERST_N_ASSERT (R526): only the PCIe core resets; after reset exit the function wedges. -/
def execPerstNAssert (s : State) : Host.Outcome State Fault Refusal :=
  .next (let s := { s with host := { s.host with pcieUp := false } }; if s.modeNo == 0 then s else s.wedge)

/-! ### Reset exit (R436 to R438) -/

/-- WARDEN_ROM_COMPLETE (R436, R437): `err` 0 the checks pass and M1 is requested; 1 fuses, 2 MRAM, 3 identity key. -/
def State.romDone (s : State) (err : Nat) : State :=
  let e := s.rd Reg.BOOT_STAT_ERR
  if s.modeNo != 0 || !s.mode.resetN || e == 1 || e == 2 || e == 3 then s
  else if 1 ≤ err && decide (err ≤ 3) then s.wr Reg.BOOT_STAT_ERR err
  else s.request { who := .warden, target := 1 }
def execWardenRomComplete (err : Nat) (s : State) : Host.Outcome State Fault Refusal := .next (s.romDone err)

/-- An image comes into force (R416, R464): ENDORSED shows whether it holds a valid entry for the unit, and a Mirror key exchange may start (R470). -/
def State.putImage (s : State) (i : Image) (n : Nat) : State :=
  let ok := i.endorse.any fun e => e.1.toNat == s.rd Reg.SEC_SERIAL_SERIAL && e.2
  let s := { s with image := i, imageSet := true, imageNo := n }
  (s.wr Reg.SEC_STAT_ENDORSED (b2n ok)).startKx
/-- Whether the signature and the security version of an image are accepted (R462, R463). -/
def State.trusts (s : State) (i : Image) : Bool :=
  s.on Reg.SEC_STAT_OWNER_SET && i.signed && decide (s.rd Reg.SEC_SVN_MIN_SVN ≤ i.svn.toNat)
/-! ### Self-test (R441) -/

/-- The tests that must pass. -/
def mandatoryTests : Nat := 0x1FF
/-- SELFTEST_COMPLETE (R441): `fails` holds each region's failed tests; the first region with a mandatory one shows. A warden patch that does not
verify sets PATCH_ERR (R465). -/
def State.selftest (s : State) (fails : List (Nat × Nat)) : State :=
  let s := if s.modeNo == 2 && fails.any (fun q => decide (q.1 < s.dies) && q.2.testBit 8) then s.wr Reg.SEC_STAT_PATCH_ERR 1 else s
  if s.modeNo != 2 then s
  else match fails.find? fun q => decide (q.1 < s.dies) && Nat.land q.2 mandatoryTests != 0 with
    | some q => ((s.wr Reg.SELFTEST_STAT_PASS 0).wr Reg.SELFTEST_STAT_FAIL q.2).wr Reg.SELFTEST_STAT_REGION q.1
    | none => (s.wr Reg.SELFTEST_STAT_PASS 1).wr Reg.SELFTEST_STAT_FAIL 0
def execSelftestComplete (fails : List (Nat × Nat)) (s : State) : Host.Outcome State Fault Refusal := .next (s.selftest fails)

/-! ### Owner key and security version (R462, R463) -/

/-- SEC_CTL_COMMIT (R462). -/
def execSecCtlCommit (s : State) : Host.Outcome State Fault Refusal := .next (s.onWrite fun s => s.wr Reg.SEC_STAT_OWNER_SET 1)
/-- SEC_CTL_SVN_RAISE (R463): SEC_SVN_MIN takes the SVN of the image in force; nothing lowers it. -/
def execSecCtlSvnRaise (s : State) : Host.Outcome State Fault Refusal :=
  .next (s.onWrite fun s => if s.imageSet then s.wr Reg.SEC_SVN_MIN_SVN (max (s.rd Reg.SEC_SVN_MIN_SVN) s.image.svn.toNat) else s)

/-! ### JTAG unlock and tamper (R472, R474) -/

/-- A part's secrets: an Elsum's or, with none, the unit's. -/
def State.secOf (s : State) (part : Option Nat) : SecSt :=
  match part with | none => s.sec | some c => (s.cell c).sec
def State.modSec (s : State) (part : Option Nat) (f : SecSt → SecSt) : State :=
  match part with | none => { s with sec := f s.sec } | some c => s.modCell c fun x => { x with sec := f x.sec }
/-- SERIAL of a part. -/
def State.serialOf (s : State) (part : Option Nat) : Nat :=
  match part with | none => s.rd Reg.SEC_SERIAL_SERIAL | some c => s.crd c Els.SEC_SERIAL_SERIAL
/-- SEC_CHAL (R472): SERIAL, a nonce of the random generator, the part code, which the manual does not give (log entry 3, DESIGN CHOICE), and 16 reserved bytes.
It voids the challenge before; after 3 failed responses it is refused. -/
def State.secChal (s : State) (part : Option Nat) : State :=
  if 3 ≤ (s.secOf part).fails then s
  else
    let ch := s.serialOf part + 2 ^ 64 * (Config.freeKey s.free).toNat + 2 ^ 320 * s.freeVal.toNat
    (s.modSec part fun x => { x with challenge := some (BitVec.ofNat 512 ch) }).used
def execSecChal (part : Option Nat) (s : State) : Host.Outcome State Fault Refusal := .next (s.secChal part)

/-- The key store of the unit erased: every K_T and K_M (R461). Without K_M the Mirror link is down. -/
def State.dropKeys (s : State) : State :=
  let s := { s with trees := s.trees.map fun (p : Nat × TreeSt) => (p.1, { p.2 with key := 0, keyed := false }) }
  let s := s.modMirror fun m => { m with myAgreed := 0 }
  if s.mirror.keyed || s.linkUp then s.linkDown else s
/-- The key store of a cell erased: both session keys, and any exchange. -/
def State.dropCellKeys (s : State) (c : Nat) : State :=
  let s := s.modCell c fun x => { x with ports := x.ports.map fun (p : Nat × PortSt) => (p.1, { p.2 with key := 0, keyed := false, newKey := none, kx := {} }) }
  (s.cwr c Els.SEC_STAT_KEYED_A 0).cwr c Els.SEC_STAT_KEYED_B 0
/-- SEC_RESP (R472): `ok` where the signature over the challenge verifies. A valid response erases the secrets and then unlocks the part; a response
uses up its challenge. -/
def State.secResp (s : State) (part : Option Nat) (ok : Bool) : State :=
  let x := s.secOf part
  if x.challenge.isSome && ok then
    let s := s.modSec part fun x => { x with challenge := none, idk := false, anchor := none }
    match part with
    | none => s.dropKeys.wr Reg.SEC_STAT_UNLOCKED 1
    | some c => ((s.dropCellKeys c).cwr c Els.SEC_STAT_ANCHOR_SET 0).cwr c Els.SEC_STAT_UNLOCKED 1
  else s.modSec part fun x => { x with challenge := none, fails := x.fails + 1 }
def execSecResp (part : Option Nat) (ok : Bool) (s : State) : Host.Outcome State Fault Refusal := .next (s.secResp part ok)

/-- SEC_TAMPER (R461, R474, R530): the key store with the unwrapped identity key is zeroised and SEC_TAMPER raised, once reset exit has armed the limits. -/
def execSecTamper (s : State) : Host.Outcome State Fault Refusal :=
  .next (if s.modeNo == 0 then s else (s.dropKeys.modSec none fun x => { x with zeroised := true }).raise .chip { src := Src.SEC_TAMPER })

end Sys2Proof.Machine
end

