-- ==== Sys2Proof/Machine/AuxOps.lean ====
section
/-! DEFINITION. The order of the auxiliary converter's conversions: scans, urgent requests and triggers (R326, R329, R330). Ticks are the 2 ns ticks of the
cell's clock. -/

namespace Sys2Proof.Machine

/-- The channels of a scan, ascending (R329). -/
def scanOf (mask : Nat) : List Nat := (List.range 32).filter fun i => mask.testBit i
/-- The channel of an urgent event (R330). -/
def CellSt.urgCh (x : CellSt) (e : Nat) : Nat :=
  if e = 0 then x.rd Els.AUX_URG_CH0 else if e = 1 then x.rd Els.AUX_URG_CH1 else x.rd Els.AUX_URG_CH2

/-- The next conversion starts at `t` where none runs: urgent requests in order, then the aborted channel, then the scan; a pending trigger starts the next scan
at once. An urgent request of the very tick starts in the next one (R330). -/
def AuxSt.start (y : AuxSt) (x : CellSt) (t : Nat) : AuxSt :=
  if y.run.isSome then y
  else
    match y.urg with
    | (e, k) :: rest => { y with run := some (x.urgCh e, true, if k = t / 8 then t + 8 else t), urgRun := some (e, k), urg := rest }
    | [] =>
      match y.back with
      | some ch => { y with run := some (ch, false, t), back := none }
      | none =>
        let y := if y.scan && y.left.isEmpty then
            { y with scan := y.pend, pend := false, left := if y.pend then scanOf (x.rd Els.AUX_SCAN_MASK) else [] }
          else y
        match y.left with
        | ch :: rest => { y with run := some (ch, false, t), left := rest }
        | [] => { y with scan := false }

/-- Whether the last conversion of the scan completes in tick `k` (R329). -/
def AuxSt.endsIn (y : AuxSt) (k : Nat) : Bool :=
  y.left.isEmpty && y.back.isNone && (match y.run with | some (_, urg, t) => !urg && (t + 4000) / 8 == k | none => false)
/-- A trigger at `t` (R329): it starts a scan, waits one deep while one runs, or is lost. One in the tick in which the scan's last conversion completes counts as
arriving after that. -/
def State.auxTrigger (s : State) (c t : Nat) : State :=
  let x := s.cell c
  if x.aux.scan then
    if x.aux.endsIn (t / 8) && !x.aux.after then s.modAux c fun y => { y with after := true }
    else if x.aux.pend then s.cwr c Els.AUX_STAT_TRIG_LOST 1 else s.modAux c fun y => { y with pend := true }
  else s.modAux c fun y => ({ y with scan := true, left := scanOf (x.rd Els.AUX_SCAN_MASK) }).start x t

/-- The epoch trigger, once its instant has come (R329). -/
def State.auxDue (s : State) (c t : Nat) : State :=
  match (s.cell c).aux.dueAt with
  | some d => if d ≤ t then (s.modAux c fun y => { y with dueAt := none }).auxTrigger c d else s
  | none => s

/-- A request of an event among those that wait: in order of arrival, those of one tick in event order (R330). -/
def insertUrg (e k : Nat) : List (Nat × Nat) → List (Nat × Nat)
  | [] => [(e, k)]
  | p :: t => if p.2 = k ∧ e < p.1 then (e, k) :: p :: t else p :: insertUrg e k t

/-- An urgent request for event `e` (R330). A conversion that is not urgent is aborted at the next tick, unless it completes in this one; an urgent one never is, but
of two requests of one tick the lower event goes first. -/
def State.auxRequest (s : State) (c e : Nat) : State :=
  let s := s.auxDue c (s.cell c).time.clock
  let x := s.cell c
  let now := x.time.clock
  let k := now / 8
  if x.aux.urg.any fun p => p.1 == e then s
  else match x.aux.run with
    | some (ch, false, t) =>
      if (t + 4000) / 8 ≤ k then s.modAux c fun y => { y with urg := insertUrg e k y.urg }
      else (s.cinc c Els.AUX_STAT_ABORTS).modAux c fun y => { y with run := some (x.urgCh e, true, now + 8), urgRun := some (e, k), back := some ch }
    | some (_, true, t) =>
      match x.aux.urgRun with
      | some (f, j) =>
        if j = k ∧ e < f then s.modAux c fun y => { y with run := some (x.urgCh e, true, t), urgRun := some (e, k), urg := insertUrg f k y.urg }
        else if j = k ∧ e = f then s
        else s.modAux c fun y => { y with urg := insertUrg e k y.urg }
      | none => s.modAux c fun y => { y with urg := insertUrg e k y.urg }
    | none => s.modAux c fun y => { y with run := some (x.urgCh e, true, now), urgRun := some (e, k) }

end Sys2Proof.Machine
end

