-- ==== Sys2Proof/Machine/Fault.lean ====
section
/-! DEFINITION. The Basath fault commands: a collection tick with its reactions (R336 to R356, R359), recovery (R356 to R358),
TRIP_IN and TRIP_OUT (R352), and the block network (R347). The collector of a cell is in Machine/CellFault.lean. -/

namespace Sys2Proof.Machine

/-- The sources whose condition lies outside the block, which FAULT_RAISE's operand may change: for the chip DIE_LOST,
VCORE_LOW, HOST_DMA_ERR; for a region TIME_SKEW, the memory, warden, temperature and fabric sources (R341, R342). -/
def Coll.external : Coll → List Nat
  | .chip => [1, 2, 15]
  | .region _ => [0, 19, 20, 21, 22, 23, 24, 25]
  | .tree _ _ => []
  | .cell _ => [26, 27, 28]

/-- The condition sources of a collector; the others are event sources (R335, R339 to R342). -/
def Coll.isCond (c : Coll) (n : Nat) : Bool :=
  match c with
  | .chip => [0, 1, 2, 4, 5, 6, 8, 9, 10, 11, 12, 13, 17].contains n
  | .region _ => [0, 6, 11, 13, 17, 23, 24, 26].contains n
  | .tree _ _ => [2, 3, 5, 6, 8].contains n
  | .cell _ => [0, 1, 3, 9, 12, 21, 22, 24, 25, 28].contains n

/-- The counters of MEM_STAT follow their sources (R499). -/
def State.memStat (s : State) (c : Coll) (n : Nat) : State :=
  match c with
  | .region r =>
    if n == Src.SRAM_CORR then s.inc (rf r Rgn.MEM_STAT_SRAM_CORR)
    else if n == Src.MRAM_ERR then s.inc (rf r Rgn.MEM_STAT_MRAM_ERR) else s
  | _ => s

/-- The external changes of a tick: a condition source becomes active or inactive, an event source occurs. -/
def State.external (s : State) (c : Coll) (ext : List (Nat × Bool)) : State :=
  ext.foldl (fun s p =>
    if !c.external.contains p.1 then s
    else if c.isCond p.1 then s.setCond c { src := p.1 } p.2
    else if p.2 then (s.memStat c p.1).raise c { src := p.1 } else s) s

/-- Whether every declared converter of the unit is wholly blocked, where one is declared (R356). -/
def State.allConvBlocked (s : State) : Bool :=
  !s.convs.isEmpty && s.convs.all fun v => (s.convArms v).all fun p => s.armBlocked p.1 p.2

/-- A severity-7 reaction (R353): HEALTHY is cleared from the next launch, a TRIP frame goes to the partner over a link that is up (R377), and M10 is requested. -/
def State.trip (s : State) : State :=
  let s := { s with mirror := { s.mirror with
    healthy := false, txKinds := if s.on Reg.MIRR_STAT_LINK_UP then fset 3 s.pn s.mirror.txKinds else s.mirror.txKinds } }
  s.request { who := .fault, target := 10 }

/-- The reaction code of a raise (R347): 4 falls to 3 outside cell scope (R338). -/
def reactCode (sev : Nat) (o : Occ) : Nat := if sev == 4 && !o.cellScoped then 3 else sev

/-- The reaction of one raise (R347), unless suppressed in M0 to M5 and M11 (R355); TRIP_OUT is asserted in every mode but M0 (R352). -/
def State.react (s : State) (c : Coll) (o : Occ) (sev : Nat) : State :=
  let s := s.tripOut sev
  if s.modeNo ≤ 5 || s.modeNo == 11 then s
  else if sev == 4 then
    match o.cell with
    | some i => s.isolateCell i
    | none => s
  else if sev == 5 then s.blockArms c.level o.src (s.scopeArms c o)
  else if sev == 6 then
    let s := s.blockArms c.level o.src (s.scopeConvArms c o)
    if s.allConvBlocked && 6 ≤ s.modeNo && s.modeNo ≤ 9 then s.request { who := .fault, target := 10 } else s
  else if sev == 7 then s.trip
  else s

/-- Whether the reaction of a severity is suppressed in the mode in force (R355). -/
def State.suppressed (s : State) (sev : Nat) : Bool := decide (4 ≤ sev) && (decide (s.modeNo ≤ 5) || s.modeNo == 11)

/-- An ALERT of a tree whose arm is blocked for an ALERT (R350): it only adds to REPEAT. -/
def State.alertAgain (s : State) (c : Coll) (o : Occ) : Bool :=
  match c with
  | .tree r t =>
    o.src == Src.ALERT && (match s.armOf r t with
      | some a => s.armBlocked r a && s.rd (af r a Arm.ARM_BLK_LEVEL) == 1 && s.rd (af r a Arm.ARM_BLK_SOURCE) == Src.ALERT
      | none => false)
  | _ => false

/-- The key of a source and index in the record bookkeeping. -/
def Occ.key (o : Occ) : Nat := o.src * 1000000 + o.idx.2

/-- The fault record of a raise (R359): posted once a period for each source and index, further raises counted in REPEAT;
a region and its trees also write it to the region's fault log (R476). -/
def State.record (s : State) (c : Coll) (o : Occ) (sev : Nat) (react : Nat) (supp : Bool) : State :=
  let x := s.coll c
  if fget 0 x.posted o.key == s.pn + 1 && s.epochs then
    s.modColl c fun x => { x with repeats := fset o.key (fget 0 x.repeats o.key + 1) x.repeats }
  else
    let f := s.faultFields c o sev react supp (fget 0 x.repeats o.key)
    let s := s.postEvent 0x01 f (decide (2 ≤ sev))
    let s := s.modColl c fun x => { x with posted := fset o.key (s.pn + 1) x.posted, repeats := fdel o.key x.repeats }
    match c with
    | .region r => s.logFault r (descOf f)
    | .tree r _ => s.logFault r (descOf f)
    | _ => s

/-- A raise of a chip or region source at WAKE_CFG.SEV or above is wake event 4 (R395). -/
def State.wakeRaise (s : State) (c : Coll) (sev : Nat) : State :=
  match c with
  | .chip => if s.rd Reg.WAKE_CFG_SEV ≤ sev then s.noteWake 4 else s
  | .region _ => if s.rd Reg.WAKE_CFG_SEV ≤ sev then s.noteWake 4 else s
  | _ => s

/-- One raise at a Basath collector: nothing at severity 0, otherwise captured (R343), recorded (R359) and reacted to (R347). -/
def State.raiseOne (s : State) (c : Coll) (p : Nat × Occ) : State :=
  let sev := p.1
  let o := p.2
  if sev == 0 then s
  else if s.alertAgain c o then
    (s.capture c o sev).modColl c fun x => { x with repeats := fset o.key (fget 0 x.repeats o.key + 1) x.repeats }
  else
    let supp := s.suppressed sev
    let s := s.capture c o sev
    let s := s.record c o sev (reactCode sev o) supp
    (s.wakeRaise c sev).react c o sev

/-- The raises of a tick (R336): every held event, and every condition that was not active at the tick before. -/
def CollSt.raises (x : CollSt) : List Occ :=
  let fresh := x.conds.filter fun o => !x.prev.contains o.idx && !(x.events.any fun e => e.idx == o.idx)
  x.events ++ fresh

/-- The active sources of a tick: the events of the tick and the conditions that hold. -/
def CollSt.activeIdx (x : CollSt) : List (Nat × Nat) := (x.events ++ x.conds).map Occ.idx

/-- The quiet timer restarts at a tick with a source at or above CFLT_REC.THR (R356), and starts at the tick at which the last such source is inactive. -/
def State.quietTick (s : State) (sevs : List Nat) : State :=
  if s.modeNo == 10 && !s.on Reg.CFLT_REC_STAT_LATCHED && sevs.any (fun n => decide (s.rd Reg.CFLT_REC_THR ≤ n)) then
    { s with mode := { s.mode with quietFrom := some s.ns, quietDone := false } }
  else s

/-- Source degradation at the chip: DEGRADED shows while a source acts at severity 3, or at 4 outside cell scope (R347). -/
def State.showDegraded (s : State) (active : List Occ) : State :=
  s.wr Reg.MODE_STAT_DEGRADED (b2n (active.any fun o => reactCode (s.effSev .chip o) o == 3))

/-- One collection tick of a Basath collector (R336): the raises in order (R346), the ACT registers, and the quiet timer. -/
def State.faultTick (s : State) (c : Coll) : State :=
  let x := s.coll c
  let rs := sortOccs (x.raises.map fun o => (s.effSev c o, o))
  let sevs := (x.events ++ x.conds).map fun o => s.effSev c o
  let loud := x.conds.any fun o => decide (s.rd Reg.CFLT_REC_THR ≤ s.effSev c o)
  let s := s.modColl c fun x => { x with events := [], prev := x.conds.map Occ.idx, loud := loud }
  let s := s.showActive c (x.activeIdx.filter fun p => s.sevOf c p.1 != 0)
  let s := rs.foldl (fun s p => s.raiseOne c p) s
  let s := if c == .chip then s.showDegraded (x.events ++ x.conds) else s
  s.quietTick (if x.loud then s.rd Reg.CFLT_REC_THR :: sevs else sevs)

/-- Whether any Basath source is active at an effective severity of at least `n` (R352). -/
def State.activeAt (s : State) (n : Nat) : Bool :=
  s.colls'.any fun c => (s.coll c).conds.any fun o => decide (n ≤ s.effSev c o)

/-- QUIET_TIME_EXPIRY (R357): the quiet timer reaches QUIET_TIME in M10 and the warden requests M6. It
does not run while a source is active at or above CFLT_REC.THR (R356). -/
def State.quietExpiry (s : State) : State :=
  if s.modeNo != 10 then s
  else match s.mode.quietFrom with
  | none => s
  | some n =>
    if s.activeAt (s.rd Reg.CFLT_REC_THR) then { s with mode := { s.mode with quietFrom := some s.ns } } else
    let s := s.runTo (n + s.rd Reg.CFLT_REC_QUIET_TIME * 1000000)
    if s.ns < n + s.rd Reg.CFLT_REC_QUIET_TIME * 1000000 then s
    else if s.mode.running.isSome then s
    else ({ s with mode := { s.mode with quietDone := true } }).request { who := .warden, target := 6, recovery := true }

/-- QUIET_TIME_EXPIRY (R357). -/
def execQuietTimeExpiry (s : State) : Host.Outcome State Fault Refusal := .next s.quietExpiry

/-- The end of the recovery window on the unit (R344): capture returns to normal. -/
def State.windowEnd (s : State) : State :=
  match s.mode.recUntil with
  | none => s
  | some n =>
    let s := s.runTo n
    if s.ns < n then s
    else
      let s := { s with mode := { s.mode with recUntil := none } }
      if s.firstLatch then s else s.captureNormal

/-- CFLT_REC_UNLATCH (R358): the recovery latch clears and, in M10, the quiet timer starts from this write. -/
def State.unlatch (s : State) : State :=
  if s.on Reg.CFLT_REC_STAT_LATCHED then
    let s := s.wr Reg.CFLT_REC_STAT_LATCHED 0
    if s.modeNo == 10 then { s with mode := { s.mode with quietFrom := some s.ns, quietDone := false } } else s
  else s
def execCfltRecUnlatch (s : State) : Host.Outcome State Fault Refusal := .next (s.onWrite State.unlatch)

/-- TRIP_OUT_CLEAR (R352): output `n` is deasserted if no source is active at SEVn or above. -/
def State.tripOutClear (s : State) (n : Nat) : State :=
  if n < 4 && !s.activeAt (s.rd (tripSevFld n)) then
    s.wr Reg.CFLT_TRIPOUT_ASSERTED (clrBit (s.rd Reg.CFLT_TRIPOUT_ASSERTED) n)
  else s
def execTripOutClear (n : Nat) (s : State) : Host.Outcome State Fault Refusal := .next (s.onWrite fun s => s.tripOutClear n)

/-- TRIP_IN_CHANGE (R352): the level of TRIP_INn, held for CFLT_TRIPIN.FILT, is taken: active while low. `q`: quarter
nanoseconds from the counter to the end of the filter. A TRIP_IN that becomes active is wake event 3 (R395). -/
def State.tripInChange (s : State) (n q : Nat) (low : Bool) : State :=
  if n < 4 then
    let s := s.runBy q
    let s := s.setCond .chip { src := Src.TRIP_IN0 + n, detail := n } low
    if low then s.noteWake 3 else s
  else s
def execTripInChange (n q : Nat) (low : Bool) (s : State) : Host.Outcome State Fault Refusal := .next (s.tripInChange n q low)

/-- BLOCKNET_FAULT (R347): a break of the block network, or a marker lost for 1 µs, seen by the collector of region `r`, or its end. -/
def execBlocknetFault (r : Nat) (active : Bool) (s : State) : Host.Outcome State Fault Refusal :=
  .next (if r < s.dies then s.setCond (.region r) { src := Src.BLOCKNET_FAULT } active else s)

end Sys2Proof.Machine
end

