-- ==== Sys2Proof/Machine/CellFault.lean ====
section
/-! DEFINITION. Faults of a cell, its local protection, bypass and supply loss (R255, R280, R307, R308, R336, R339, R343 to R351, R525),
and FAULT_RAISE, CAPTURE_WINDOW_END and FLT_FIRST_CLEAR for every collector. -/

namespace Sys2Proof.Machine

/-! ### GMLn_EN (R280) -/

/-- Whether GMLn_EN of a position may be high (R280, R288, R408): its link is up, no rank-1 demand is in force, the
cell is not in Glimmer, and no EXTEST instruction holds the outputs (R471). -/
def CellSt.enMay (x : CellSt) (p : Nat) : Bool :=
  x.up && (x.link p).live && !x.rank1 && decide (x.prot.loss = 0) && x.st != 5 && !x.sec.extest
/-- GMLn_EN of every position follows R280. -/
def State.refreshEn (s : State) (c : Nat) : State :=
  (List.range 4).foldl (fun s p =>
    let x := s.cell c
    if x.enMay p == x.enHigh p then s else s.setEn c p (x.enMay p)) s

/-! ### Calibration abandonment (R324) -/

/-- A calibration in progress is abandoned (R324): before phase 5 the input returns to the divider; CAL lasts until the results have settled. -/
def State.abandonCal (s : State) (c : Nat) : State :=
  match (s.cell c).cv.cal with
  | none => s
  | some k =>
    if k.gone then s
    else
      (s.cinc c Els.CV_STAT_CAL_ABANDON).modCv c fun y =>
        { y with cal := some { k with gone := true, phase := if k.phase == 5 then 5 else 6, n := if k.phase == 5 then k.n else 0 } }

/-! ### The collector of a cell -/

/-- The programmed severity of a cell source (R337, R516); reserved sources have none. -/
def CellSt.sev (x : CellSt) (n : Nat) : Nat :=
  match cellSevRst[n]? with
  | some v => x.rd ⟨8 * (0x600 + 4 * (n / 8)) + 4 * (n % 8), 3, .rwc, v⟩
  | none => 0
/-- Whether a source's class-0 bit is set (R339, R516). -/
def CellSt.cls0 (x : CellSt) (n : Nat) : Bool :=
  if n < 32 then (x.rd Els.FLT_CLS0_FIXED + 4 * x.rd Els.FLT_CLS0_CLS).testBit n else (x.rd Els.FLT_CLS1_CLS).testBit (n - 32)
/-- First-latch capture at a cell (R344): in Enumerate and Maintenance, and for RWIN periods after the end of mode 10. -/
def CellSt.firstLatch (x : CellSt) : Bool := x.st == 1 || x.st == 6 || decide (x.time.pn < x.flt.rwin)

/-- Capture of one raise (R343, R345). -/
def State.cellCapture (s : State) (c src sev : Nat) : State :=
  let x := s.cell c
  if x.firstLatch then
    if x.on Els.FLT_FIRST_VALID then s.cwr c Els.FLT_STAT_OVF 1
    else (((s.cwr c Els.FLT_FIRST_SOURCE src).cwr c Els.FLT_FIRST_SEVERITY sev).cwr c Els.FLT_FIRST_VALID 1).cwr c Els.FLT_FIRST_TS_NS x.ns
  else (s.cwr c Els.FLT_STICKY0 (setBit (x.rd Els.FLT_STICKY0) src)).cmark c Els.FLT_STICKY0 (2 ^ src)

/-- The off-state that a cell's own source demands (R26, R347): every position off and every GMLn_EN low (R280). -/
def State.demandOff (s : State) (c src : Nat) : State :=
  let s := s.modProt c fun y => { y with demands := fset src 0 y.demands }
  let s := (s.allOff c).allEnLow c
  s.modSw c fun y => { y with cmd := ⟨0, false, 0, 0⟩, next := none }

/-- The reaction of the Elsum to a raise of its own (R347): severity 4 runs the bypass sequence, 5 to 7 turn every position off. -/
def State.cellReact (s : State) (c src sev : Nat) : State :=
  let s := if src == Src.CV_FAULT then s.abandonCal c else s
  if sev == 4 then ((s.bypass c).allEnLow c).abandonCal c
  else if 5 ≤ sev then s.demandOff c src else s

/-- One raise at a cell (R343, R347, R348, R478). -/
def State.cellRaise (s : State) (c : Nat) (p : Nat × Occ) : State :=
  let sev := p.1
  let src := p.2.src
  if sev == 0 then s
  else
    let x := s.cell c
    let c0 := x.cls0 src || decide (5 ≤ sev)
    let s := s.cellCapture c src sev
    let s := s.cellLog c 1 src sev c0 0
    let s := s.modFlt c fun f =>
      { f with
        class0 := f.class0 || c0
        class0At := if c0 && !f.class0 then x.time.clock else f.class0At
        fresh := if 2 ≤ sev then (f.fresh.filter fun q => q.1 != src) ++ [(src, sev)] else f.fresh
        isNew := f.isNew || decide (2 ≤ sev) }
    let s := if src == Src.CELL_MRAM_ERR then s.cinc c Els.MRAM_STAT_UNCORR else s
    s.cellReact c src sev

/-- The ACT registers of a cell (R343). -/
def State.cellAct (s : State) (c : Nat) (act : List (Nat × Nat)) : State :=
  s.cwr c Els.FLT_ACT0 (actWord act 0)

/-- One collection tick of a cell (R336, R346). -/
def State.cellTick (s : State) (c : Nat) : State :=
  let x := s.coll (.cell c)
  let y := s.cell c
  let rs := sortOccs (x.raises.map fun o => (y.sev o.src, o))
  let s := s.modColl (.cell c) fun x => { x with events := [], prev := x.conds.map Occ.idx }
  let s := s.cellAct c (x.activeIdx.filter fun p => y.sev p.1 != 0)
  rs.foldl (fun s p => s.cellRaise c p) s

/-- A collector by level and number: 0 cell, 1 tree (32 x region + tree), 2 region, 3 chip. -/
def collOf (level i : Nat) : Coll :=
  if level = 0 then .cell i else if level = 1 then .tree (i / 32) (i % 32) else if level = 2 then .region i else .chip

/-- FAULT_RAISE (R336): one collection tick of a collector; `ext` lists external conditions and events that changed at it. -/
def State.faultRaise (s : State) (level i : Nat) (ext : List (Nat × Bool)) : State :=
  let k := collOf level i
  match k with
  | .cell c => if (s.cell c).runs then (s.external k ext).cellTick c else s
  | .tree r t => if r < s.dies ∧ t < 32 then (s.external k ext).faultTick k else s
  | .region r => if r < s.dies then (s.external k ext).faultTick k else s
  | .chip => (s.external k ext).faultTick k
def execFaultRaise (level i : Nat) (ext : List (Nat × Bool)) (s : State) : Host.Outcome State Fault Refusal := .next (s.faultRaise level i ext)

/-- Capture at a cell returns to normal (R344): the sticky bits of the sources active then are set. -/
def State.cellNormal (s : State) (c : Nat) : State :=
  (s.coll (.cell c)).conds.foldl (fun s o =>
    if (s.cell c).sev o.src == 0 then s else 
      (s.cwr c Els.FLT_STICKY0 (setBit (s.crd c Els.FLT_STICKY0) o.src)).cmark c Els.FLT_STICKY0 (2 ^ o.src)) s

/-- CAPTURE_WINDOW_END (R344): the recovery window of the unit, or RWIN periods of a cell, are over. -/
def State.captureEnd (s : State) (cell : Option Nat) : State :=
  match cell with
  | none => s.windowEnd
  | some c =>
    let x := s.cell c
    if x.flt.rwin == 0 || decide (x.time.pn < x.flt.rwin) then s
    else
      let s := s.modFlt c fun f => { f with rwin := 0 }
      if (s.cell c).firstLatch then s else s.cellNormal c
def execCaptureWindowEnd (cell : Option Nat) (s : State) : Host.Outcome State Fault Refusal := .next (s.captureEnd cell)

/-- The latch of a collector cleared and armed again (R344). -/
def State.clearFirst (s : State) (level i : Nat) : State :=
  if level = 0 then
    (((s.cwr i Els.FLT_FIRST_SOURCE 0).cwr i Els.FLT_FIRST_SEVERITY 0).cwr i Els.FLT_FIRST_VALID 0).cwr i Els.FLT_FIRST_TS_NS 0
  else if level = 2 then
    s.onWrite fun s =>
      ((((((((s.wr (rf i Rgn.FLT_FIRST_SOURCE) 0).wr (rf i Rgn.FLT_FIRST_LEVEL) 0).wr (rf i Rgn.FLT_FIRST_SEVERITY) 0).wr
        (rf i Rgn.FLT_FIRST_TREE) 0).wr (rf i Rgn.FLT_FIRST_SLOT) 0).wr (rf i Rgn.FLT_FIRST_IDX_VALID) 0).wr
        (rf i Rgn.FLT_FIRST_SLOT_VALID) 0).wr (rf i Rgn.FLT_FIRST_VALID) 0).wr (rf i Rgn.FLT_FIRST_TS_NS) 0
  else if level = 3 then
    s.onWrite fun s =>
      ((((s.wr Reg.CFLT_FIRST_SOURCE 0).wr Reg.CFLT_FIRST_LEVEL 0).wr Reg.CFLT_FIRST_SEVERITY 0).wr Reg.CFLT_FIRST_VALID 0).wr Reg.CFLT_FIRST_TS_NS 0
  else s
/-- FLT_FIRST_CLEAR (R344): 1 written to FLT_FIRST.VALID of a cell, FLT_FIRST.VALID of a region or CFLT_FIRST.VALID. -/
def execFltFirstClear (level i : Nat) (s : State) : Host.Outcome State Fault Refusal := .next (s.clearFirst level i)

/-- CELL_FAULT_RELEASE (R348): a source inactive for FLT_CFG.REL consecutive periods releases its off-state; a bypass is never released. -/
def State.cellRelease (s : State) (c src : Nat) : State :=
  let x := s.cell c
  if fhas x.prot.demands src && decide (x.rd Els.FLT_CFG_REL ≤ fget 0 x.prot.demands src) then
    (s.modProt c fun y => { y with demands := fdel src y.demands }).refreshEn c
  else s
def execCellFaultRelease (c src : Nat) (s : State) : Host.Outcome State Fault Refusal := .next (s.cellRelease c src)

/-- The epochs for which each demand's source has been inactive (R348). -/
def State.countInactive (s : State) (c : Nat) : State :=
  s.modProt c fun y =>
    { y with demands := y.demands.map fun (p : Nat × Nat) => (p.1, if s.active (.cell c) p.1 then 0 else p.2 + 1) }

/-- ALERT_ACK (R350): the markers stop and CLASS0 clears. -/
def State.alertAck (s : State) (c : Nat) : State := s.modFlt c fun f => { f with class0 := false }
def execAlertAck (c : Nat) (s : State) : Host.Outcome State Fault Refusal := .next (s.alertAck c)

/-! ### Overvoltage and the bypass (R351, R307, R525) -/

/-- OVERVOLTAGE_TRIP (R351), `q` quarter nanoseconds on: in every cell state, a debug halt included; under RESET_N low it fires one pulse (R525). -/
def State.ovTrip (s : State) (c q : Nat) : State :=
  let x := s.cell c
  if 3 ≤ x.prot.loss then s
  else
    let s := s.cellBy c q
    let s := (s.allOff c).allEnLow c
    let s := s.cwr c Els.PROT_STAT_OVERVOLTAGE 1
    if x.up then
      let s := s.modProt c fun y => { y with ovOff := true }
      ((s.setCond (.cell c) { src := Src.OVERVOLTAGE } true).bypass c).abandonCal c
    else s.fire c
def execOvervoltageTrip (c q : Nat) (s : State) : Host.Outcome State Fault Refusal := .next (s.ovTrip c q)

/-- OVERVOLTAGE_RELEASE (R351): the input has been below the threshold less the hysteresis for 1 µs. -/
def State.ovRelease (s : State) (c q : Nat) : State :=
  let s := s.cellBy c q
  let s := s.cwr c Els.PROT_STAT_OVERVOLTAGE 0
  let s := (s.modProt c fun y => { y with ovOff := false }).setCond (.cell c) { src := Src.OVERVOLTAGE } false
  s.refreshEn c
def execOvervoltageRelease (c q : Nat) (s : State) : Host.Outcome State Fault Refusal := .next (s.ovRelease c q)

/-- BYP_SW_CONF_CLOSE (R255): the switch confirms closure. -/
def execBypSwConfClose (c : Nat) (s : State) : Host.Outcome State Fault Refusal :=
  .next ((s.cwr c Els.PROT_STAT_BYP_SW_CONF 1).showBypassed c)

/-- BYP_FIRE_PULSE_END (R307): BYP_CFG.FIRE_W after a firing; under reset the pulse lasts the register's reset value (R525). -/
def State.firePulseEnd (s : State) (c : Nat) : State :=
  let x := s.cell c
  let s := s.cellTo c (x.prot.firedAt + 4000 * x.rd Els.BYP_CFG_FIRE_W)
  s.modProt c fun y => { y with pulseOn := false }
def execBypFirePulseEnd (c : Nat) (s : State) : Host.Outcome State Fault Refusal := .next (s.firePulseEnd c)

/-- BYP_REFIRE (R307): CONF_TMO after a firing without a confirmation fires again, REFIRE times, and then raises BYP_FAIL. The
firing path runs on in a debug halt, in which the cell's clock stands (R275). -/
def State.refire (s : State) (c : Nat) : State :=
  let x := s.cell c
  if !x.prot.byp || x.on Els.PROT_STAT_BYP_SW_CONF || !x.up || x.prot.fires == 0 then s
  else
    let due := x.prot.firedAt + 4000000 * x.rd Els.BYP_CFG_CONF_TMO
    let s := s.cellTo c due
    if (s.cell c).time.clock < due && !x.halted then s
    else if x.prot.fires ≤ x.rd Els.BYP_CFG_REFIRE then s.fire c
    else if x.prot.fires = x.rd Els.BYP_CFG_REFIRE + 1 then
      (s.modProt c fun y => { y with fires := y.fires + 1 }).raise (.cell c) { src := Src.BYP_FAIL }
    else s
def execBypRefire (c : Nat) (s : State) : Host.Outcome State Fault Refusal := .next (s.refire c)

/-! ### Supply loss (R303, R308) -/

/-- The 64 bytes of a die's stress record (R303): what is accumulated is added to what the record holds. -/
def State.stressBytes (s : State) (c p d : Nat) : List Byte :=
  let z := fget {} ((s.cell c).link p).stress d
  let a := stressRec p d
  let add (o n k : Nat) : List Byte := leBytes n (s.cval c (a + o) n + k)
  let binAt (i : Nat) : List Byte := add (8 + 4 * i) 4 (fget 0 z.bins i / 1000000000)
  add 0 8 z.ons ++ (List.range 8).flatMap binAt
    ++ leBytes 2 (if sext 16 (s.cval c (a + 40) 2) < (z.tMax : Int) - 640 then unsext 16 ((z.tMax : Int) - 640) else s.cval c (a + 40) 2)
    ++ leBytes 2 (max (s.cval c (a + 42) 2) z.sMax)
    ++ s.cellRead c (dieEnt p d) 4 ++ add 48 6 z.desat ++ leBytes 2 0 ++ leBytes 8 (s.cell c).time.pn

/-- A die's stress record is written to MRAM (R303); whole seconds leave the working memory. -/
def State.writeStress (s : State) (c p d : Nat) : State :=
  let bs := s.stressBytes c p d
  let s := s.cellWrite c (stressRec p d) bs
  s.modLink c p fun l =>
    { l with stress := fmod {} d (fun (z : Stress) =>
        { z with ons := 0, desat := 0, tMax := z.tMax, bins := z.bins.map fun (b : Nat × Nat) => (b.1, b.2 % 1000000000) }) l.stress }
/-- Every stress record is written (R303, R308). -/
def State.writeAllStress (s : State) (c : Nat) : State :=
  (List.range 4).foldl (fun s p => (s.diesOf c p).foldl (fun s d => s.writeStress c p d) s) s

/-- AUX_PG_FALL (R308, step 1), `q` quarter nanoseconds on. -/
def State.auxPgFall (s : State) (c q : Nat) : State :=
  let s := (s.cellBy c q).cwr c Els.PROT_STAT_AUX_PG 0
  s.modProt c fun y => { y with pgFellAt := (s.cell c).time.clock }
def execAuxPgFall (c q : Nat) (s : State) : Host.Outcome State Fault Refusal := .next (s.auxPgFall c q)

/-- AUX_LOSS (R308, steps 2 to 6): AUX_PG has been low for 1 µs; the first firing comes 1 µs after that. -/
def State.auxLoss (s : State) (c : Nat) : State :=
  let x := s.cell c
  if !x.up || x.on Els.PROT_STAT_AUX_PG || x.prot.loss != 0 then s
  else
    let s := s.cellTo c (x.prot.pgFellAt + 4000)
    let s := s.setCond (.cell c) { src := Src.AUX_LOSS } true
    let s := s.modProt c fun y => { y with auxOff := true, loss := 1 }
    let s := (s.allOff c).allEnLow c
    let s := s.modSw c fun y => { y with cmd := ⟨0, false, 0, 0⟩, next := none }
    let s := if 4 ≤ x.sev Src.AUX_LOSS then ((s.cellTo c (x.prot.pgFellAt + 8000)).bypass c).abandonCal c else s
    s.writeAllStress c
def execAuxLoss (c : Nat) (s : State) : Host.Outcome State Fault Refusal := .next (s.auxLoss c)

/-- HOLDUP_REPORT_END (R308, step 7): reporting ends, the optics go off, and the cell is at off-hold power. -/
def State.reportEnd (s : State) (c : Nat) : State :=
  let x := s.cell c
  if x.prot.loss != 1 then s
  else
    let s := s.cellTo c (x.prot.pgFellAt + 4000000 * x.rd Els.HOLDUP_REPORT)
    s.modProt c fun y => { y with loss := 2 }
def execHoldupReportEnd (c : Nat) (s : State) : Host.Outcome State Fault Refusal := .next (s.reportEnd c)

/-- RES_LOW_N_FALL (R308, step 10): the cell stops everything except holding every GMLn_EN low. -/
def State.resLow (s : State) (c : Nat) : State :=
  ((s.allOff c).allEnLow c).modProt c fun y => { y with loss := 3, resLowN := false }
def execResLowNFall (c : Nat) (s : State) : Host.Outcome State Fault Refusal := .next (s.resLow c)

/-- AUX_LOSS_CLEAR (R308): AUX_PG has stayed high for 10 ms, which end `q` quarter nanoseconds on. After RES_LOW_N has fallen only a reset ends the off-hold. -/
def State.auxClear (s : State) (c q : Nat) : State :=
  let x := s.cell c
  if !x.up || decide (3 ≤ x.prot.loss) then s
  else
    let s := (s.cellBy c q).cwr c Els.PROT_STAT_AUX_PG 1
    let s := s.setCond (.cell c) { src := Src.AUX_LOSS } false
    (s.modProt c fun y => { y with auxOff := false, loss := 0 }).refreshEn c
def execAuxLossClear (c q : Nat) (s : State) : Host.Outcome State Fault Refusal := .next (s.auxClear c q)

end Sys2Proof.Machine
end

