-- ==== Sys2Proof/Machine/CellSwitch.lean ====
section
/-! DEFINITION. Switching at a cell: requested edges, the carrier, dead time, minimum pulse, gate feedback and the debug halt
(R252 to R268, R274 to R276). Instants are quarter nanoseconds of cell time. -/

namespace Sys2Proof.Machine

/-! ### Commands (R252) -/

def Cmd.OFF := 0
def Cmd.INSERT := 1
def Cmd.ZERO := 2
def Cmd.PWM_POS := 3
def Cmd.INSERT_NEG := 4
def Cmd.PWM_NEG := 5
def Cmd.HYST := 6
def Cmd.ISOLATE := 7
def Cmd.TEST := 8

/-- What a pair is asked for: a fixed state (0 both off, 1 the upper position on, 2 the lower), or the carrier. -/
inductive Drive where
  | fixed (st : Nat)
  | carrier
  deriving DecidableEq, Repr

/-- What a command asks of pair `g`, 0 for P1/P2 and 1 for P3/P4 (R252, R263). `fb`: full-bridge; `hyst`: a ZERO record run by the
hysteretic controller (R270); `maint`: cell state Maintenance (R264). -/
def driveOf (cmd : Nat) (g : Nat) (fb hyst maint : Bool) : Drive :=
  if g = 1 && !fb then .fixed 0
  else if cmd == Cmd.INSERT then .fixed (if g = 0 then 1 else 2)
  else if cmd == Cmd.ZERO then (if hyst && g = 0 then .carrier else .fixed 2)
  else if cmd == Cmd.PWM_POS || cmd == Cmd.HYST then (if g = 0 then .carrier else .fixed 2)
  else if cmd == Cmd.INSERT_NEG then .fixed (if g = 0 then 2 else 1)
  else if cmd == Cmd.PWM_NEG then (if g = 0 then .fixed 2 else .carrier)
  else if cmd == Cmd.TEST && maint then .carrier
  else .fixed 0

/-- The pairs a cell drives (R252). -/
def CellSt.full (x : CellSt) : Bool := x.on Els.CELL_SW_FB
def CellSt.maint (x : CellSt) : Bool := x.st == 6
def CellSt.drive (x : CellSt) (cmd : Nat) (hyst : Bool) (g : Nat) : Drive := driveOf cmd g x.full hyst x.maint
/-- Whether the cell will be in Maintenance at the coming epoch (R389). -/
def CellSt.maintNext (x : CellSt) : Bool := x.sw.stateNext.getD x.st == 6
/-- A pair of a cell. -/
def CellSt.pair (x : CellSt) (g : Nat) : PairSt := fget {} x.sw.pairs g
def State.modPair (s : State) (c g : Nat) (f : PairSt → PairSt) : State := s.modSw c fun y => { y with pairs := fmod {} g f y.pairs }
/-- The position a pair's state turns on: 2g for the upper, 2g + 1 for the lower. -/
def posOf (g st : Nat) : Option Nat := if st = 1 then some (2 * g) else if st = 2 then some (2 * g + 1) else none

/-! ### The carrier (R258, R259, R261) -/

/-- The carrier period Tc in quarter nanoseconds (R258). -/
def State.carTc (s : State) (c : Nat) : Nat := 4 * s.period / max 1 (s.crd c Els.PWM_CAR_RATIO)
/-- The carrier phase (R259). -/
def State.carPhi (s : State) (c : Nat) : Nat := s.crd c Els.PWM_CAR_PHASE * s.carTc c / 65536
/-- The half-width of a pulse (R261): floor(D x 2 x Tc / 65,536) with Tc in ns, in quarter nanoseconds. -/
def halfWidth (d tc : Nat) : Nat := d * tc / (2 * 65536)
/-- The edges of the carrier period that begins at valley `v` (R261): none at the valleys when the duty is whole. -/
def pulseEdges (v tc d id : Nat) : List Edge :=
  if 65536 ≤ d then [⟨v, 1, 0⟩]
  else
    let h := halfWidth d tc
    if h = 0 then [⟨v, 2, 0⟩] else [⟨v, 2, 0⟩, ⟨v + tc / 2 - h, 1, id⟩, ⟨v + tc / 2 + h, 2, id⟩]

/-! ### Minimum pulse (R266) -/

/-- Edges that change nothing are none. -/
def dropSame : Nat → List Edge → List Edge
  | _, [] => []
  | st, e :: t => if e.st = st then dropSame st t else e :: dropSame e.st t

/-- What R266 makes of the intervals of a pair: the edges that remain, and the intervals dropped and stretched. `t0` and `st0`: the last
edge made and the state since. A dropped interval loses both its edges, whatever state its closing edge leads to. An interval whose opening edge has been made is only stretched (R268). -/
def minPulse (mp : Nat) : Nat → Nat → Nat → Bool → List Edge → List Edge × Nat × Nat
  | 0, _, _, _, l => (l, 0, 0)
  | _, _, _, _, [] => ([], 0, 0)
  | n + 1, t0, st0, made, e :: t =>
    let e : Edge := if made && decide (e.t < t0 + mp) then { e with t := t0 + mp } else e
    match t with
    | [] => ([e], 0, 0)
    | f :: u =>
      let w := f.t - e.t
      if w < mp - mp / 2 then
        let r := minPulse mp n t0 st0 made (dropSame st0 u)
        (r.1, r.2.1 + 1, r.2.2)
      else if w < mp then
        let lead := if e.pulse != 0 && e.pulse == f.pulse then (mp - w) / 2 else 0
        let e2 : Edge := { e with t := max t0 (e.t - lead) }
        let f2 : Edge := { f with t := max t0 (e.t - lead) + mp, pulse := 0 }
        let r := minPulse mp n e2.t e2.st false (f2 :: u)
        (e2 :: r.1, r.2.1, r.2.2 + 1)
      else
        let r := minPulse mp n e.t e.st false (f :: u)
        (e :: r.1, r.2.1, r.2.2)

/-- A pair's planned edges take R266 (R268); the counters follow. -/
def State.trimPlan (s : State) (c g : Nat) : State :=
  let x := s.cell c
  let y := x.pair g
  let l := dropSame y.st y.plan
  let r := minPulse (x.rd Els.PWM_MINP_MINPULSE) (2 * l.length) y.last y.st (decide (0 < y.last)) l
  let s := s.modPair c g fun z => { z with plan := r.1 }
  let s := s.cwr c Els.PWM_STAT_DROP (min 65535 (s.crd c Els.PWM_STAT_DROP + r.2.1))
  s.cwr c Els.PWM_STAT_STRETCH (min 65535 (s.crd c Els.PWM_STAT_STRETCH + r.2.2))

/-- Edges are added to a pair's plan from an instant on, in place of those planned at or after it. -/
def State.planFrom (s : State) (c g cut : Nat) (l : List Edge) : State :=
  (s.modPair c g fun z => { z with plan := z.plan.filter (fun e => decide (e.t < cut)) ++ l }).trimPlan c g

/-- The edges of every carrier period that begins in a period whose anchored valley is `v0` (R258, R259). -/
def carrierEdges (v0 tc ratio d id : Nat) : List Edge := (List.range ratio).flatMap fun n => pulseEdges (v0 + n * tc) tc d (id + n)

/-- The requested edges of pair `g` for the epoch at `e` (R254, R261 to R263): `old` what the pair was asked for, `new` what the command asks,
`d` the duty, `te` the edge time of the command, `test` a TEST carrier that already runs (its periods are planned at its peaks). -/
def State.planPair (s : State) (c g e : Nat) (old new : Drive) (d te : Nat) (test : Bool) : State :=
  let tc := s.carTc c
  let v0 := e + s.carPhi c
  let id := (s.cell c).sw.pulses + 1
  match new, old with
  | .fixed st, .fixed _ => s.planFrom c g te [⟨te, st, 0⟩]
  | .fixed st, .carrier =>
    if v0 < te then s.planFrom c g v0 [⟨v0, 2, 0⟩, ⟨te, st, 0⟩] else s.planFrom c g te [⟨te, st, 0⟩]
  | .carrier, .carrier => if test then s else s.planFrom c g v0 (carrierEdges v0 tc (s.crd c Els.PWM_CAR_RATIO) d id)
  | .carrier, .fixed _ => s.planFrom c g v0 (carrierEdges v0 tc (if test then 1 else s.crd c Els.PWM_CAR_RATIO) d id)

/-- Whether a command runs the carrier of some pair (R252, R270); `hyst` and `maint` as in `driveOf`. -/
def runsCarrier (cmd : Nat) (hyst maint : Bool) : Bool :=
  cmd == Cmd.PWM_POS || cmd == Cmd.PWM_NEG || cmd == Cmd.HYST || (cmd == Cmd.ZERO && hyst) || (cmd == Cmd.TEST && maint)
/-- The edge time of the command for the epoch at `e` (R254): epoch plus EDGE_OFS; a carrier command's edges are the carrier's, so a pair that it does not
run leaves its old state at the anchored valley (R262). -/
def State.edgeTime (s : State) (c e : Nat) (r : CmdRec) (hyst : Bool) : Nat :=
  if runsCarrier r.cmd.toNat hyst (s.cell c).maintNext then e + s.carPhi c else e + 4 * r.edge.toNat

/-- The duty of a pair's carrier (R261, R264, R270). -/
def CellSt.pairDuty (x : CellSt) (cmd : CmdRec) (hyst : Bool) (duty g : Nat) : Nat :=
  if cmd.cmd == 8 then fget 0 x.sw.tduty g else if hyst then duty else cmd.duty.toNat

/-- The edges of the coming period are planned at the command deadline (R268): `new` the command that will be in force, `hyst` whether the
hysteretic controller runs it and `duty` its duty, `held` whether a hold continues the command in force (R369). -/
def State.planPeriod (s : State) (c e : Nat) (new : CmdRec) (hyst : Bool) (duty : Nat) (held : Bool) : State :=
  let x := s.cell c
  let s := [0, 1].foldl (fun s g =>
    let old := x.drive x.sw.cmd.cmd.toNat x.sw.hyst g
    let nw := driveOf new.cmd.toNat g x.full hyst x.maintNext
    let isTest := new.cmd == 8 && x.maintNext
    let runsTest := isTest && x.maint && x.sw.cmd.cmd == 8
    match held, nw with
    | true, .fixed _ => s
    | _, _ => s.planPair c g e old nw (x.pairDuty new hyst duty g) (s.edgeTime c e new hyst) (if isTest then runsTest else false)) s
  s.modSw c fun y => { y with pulses := y.pulses + 4 }

/-! ### Edges -/

/-- The positions of a pair that a state turns off. -/
def offPositions (g st : Nat) : List Nat := if st = 1 then [2 * g + 1] else if st = 2 then [2 * g] else [2 * g, 2 * g + 1]

/-- The dead time of a pair (R265). -/
def CellSt.deadTime (x : CellSt) (g : Nat) : Nat := if g = 0 then x.rd Els.PWM_DT_DT12 else x.rd Els.PWM_DT_DT34

/-- ISOLATE at its edge time (R254, R255): every position goes off, and the bypass sequence runs. -/
def State.isoEdge (s : State) (c t : Nat) : State :=
  let s := s.cellTo c t
  if (s.cell c).time.clock < t then s else (s.modSw c fun y => { y with isoAt := none }).bypass c

/-- The next requested edge of a pair (R265, R267). The outgoing position goes off; an incoming position that has not gone on by then is
not turned on for its interval. -/
def State.pairEdge (s : State) (c g : Nat) : State :=
  let x := s.cell c
  match (x.pair g).plan with
  | [] => s
  | e :: rest =>
    let s := s.cellTo c e.t
    if (s.cell c).time.clock < e.t then s
    else
      let s := if (x.pair g).wait.isSome then s.cinc c Els.PWM_STAT_DT_DROP else s
      let s := (offPositions g e.st).foldl (fun s p => s.setGate c p false) s
      s.modPair c g fun z =>
        { z with st := e.st, last := e.t, plan := rest, wait := (posOf g e.st).map fun p => (p, e.t + x.deadTime g) }

/-- GATE_EDGE (R254, R265, R267): the next requested edge of a pair; the edge time of ISOLATE, where that comes first or at once. -/
def State.gateEdge (s : State) (c g : Nat) : State :=
  let x := s.cell c
  if !x.runs || x.rank1 then s
  else match x.sw.isoAt with
    | some t => if (x.pair g).plan.all fun e => decide (t ≤ e.t) then s.isoEdge c t else s.pairEdge c g
    | none => s.pairEdge c g
def execGateEdge (c g : Nat) (s : State) : Host.Outcome State Fault Refusal := .next (if g < 2 then s.gateEdge c g else s)

/-- DEAD_TIME_EXPIRY (R265, R267): the incoming position goes on, unless its interval leaves it no conduction. -/
def State.deadExpiry (s : State) (c g : Nat) : State :=
  let x := s.cell c
  match (x.pair g).wait with
  | none => s
  | some (p, due) =>
    if !x.runs || x.rank1 then s
    else if (x.pair g).plan.any fun e => decide (e.t ≤ due) then s
    else
      let s := s.cellTo c due
      if (s.cell c).time.clock < due then s
      else (s.setGate c p true).modPair c g fun z => { z with wait := none }
def execDeadTimeExpiry (c g : Nat) (s : State) : Host.Outcome State Fault Refusal := .next (if g < 2 then s.deadExpiry c g else s)

/-! ### Peaks and valleys -/

/-- The valley that follows one at `v`: the anchored valley of the coming epoch where it comes first (R260). -/
def State.nextValley (s : State) (c : Nat) : Nat :=
  let v := (s.cell c).sw.valleyAt
  min (v + s.carTc c) (if v < s.cellNext c + s.carPhi c then s.cellNext c + s.carPhi c else v + s.carTc c)

/-- PWM_TDUTY of a pair. -/
def tdutyFld (g : Nat) : Fld := if g = 0 then Els.PWM_TDUTY12_DUTY else Els.PWM_TDUTY34_DUTY
/-- A write of PWM_TDUTY of pair `g`, `was` its value before (R264): one in the 2 ns tick of a peak that has loaded is counted. -/
def State.tdutyWritten (s : State) (c g was : Nat) : State :=
  let t := s.ctick c
  let s := s.modSw c fun y => { y with tdutyWas := match fget (0, 0) y.tdutyWas g with | (u, _) => if fhas y.tdutyWas g && u == t then y.tdutyWas else fset g (t, was) y.tdutyWas }
  let p := (s.cell c).sw.peakTick
  if fhas p g && fget 0 p g == t then s.cinc c Els.PWM_STAT_LATE_WRITE else s
/-- A peak loads PWM_TDUTY of pair `g` (R264): a write that completed in the tick of the peak is counted and waits for the next one. -/
def State.loadTduty (s : State) (c g : Nat) : State :=
  let x := s.cell c
  let w := fget (0, 0) x.sw.tdutyWas g
  let late := fhas x.sw.tdutyWas g && w.1 == s.ctick c
  let s := if late then s.cinc c Els.PWM_STAT_LATE_WRITE else s
  s.modSw c fun y => { y with tduty := fset g (if late then w.2 else x.rd (tdutyFld g)) y.tduty }
/-- The peak that follows the last valley (R258). -/
def State.peakAt (s : State) (c : Nat) : Nat := (s.cell c).sw.valleyAt + s.carTc c / 2
/-- CARRIER_PEAK (R264): in Maintenance PWM_TDUTY of pair `g` is loaded, and governs the pair's carrier period that begins at the next valley. A carrier that
is anchored before its peak has none (R260). -/
def State.carrierPeak (s : State) (c g : Nat) : State :=
  let x := s.cell c
  if !x.runs || decide (2 ≤ g) || decide (s.nextValley c ≤ s.peakAt c) then s
  else
    let s := s.cellTo c (s.peakAt c)
    if !x.maint then s
    else
      let s := (s.loadTduty c g).modSw c fun y => { y with peakTick := fset g (s.ctick c) y.peakTick }
      if x.drive x.sw.cmd.cmd.toNat false g == .carrier && x.sw.cmd.cmd == 8 && (match x.sw.next with | some r => r.cmd == 8 | none => true) then
        let v := s.nextValley c
        (s.planFrom c g v (pulseEdges v (s.carTc c) (fget 0 (s.cell c).sw.tduty g) ((s.cell c).sw.pulses + 1))).modSw c fun y => { y with pulses := y.pulses + 1 }
      else s
def execCarrierPeak (c g : Nat) (s : State) : Host.Outcome State Fault Refusal := .next (s.carrierPeak c g)

/-- CARRIER_VALLEY (R258, R260, R262): the carrier takes its duty from the command in force. -/
def State.carrierValley (s : State) (c : Nat) : State :=
  let x := s.cell c
  if !x.runs then s
  else
    let v := s.nextValley c
    let s := s.cellTo c v
    s.modSw c fun y => { y with valleyAt := v, carDuty := x.pairDuty y.cmd y.hyst y.duty (if y.cmd.cmd == 5 then 1 else 0) }
def execCarrierValley (c : Nat) (s : State) : Host.Outcome State Fault Refusal := .next (s.carrierValley c)

/-- The anchored valley of an epoch (R260): a carrier not at a valley then is resynchronised, and RESYNC counts it. -/
def State.anchor (s : State) (c : Nat) : State :=
  let x := s.cell c
  let a := x.time.epochAt + s.carPhi c
  let tc := s.carTc c
  let off := x.sw.valleyAt != 0 && tc != 0 && (a + tc * 65536 - x.sw.valleyAt) % tc != 0
  let s := if off then s.cinc c Els.PWM_STAT_RESYNC else s
  s.modSw c fun y => { y with valleyAt := if s.carPhi c = 0 then a else y.valleyAt }

/-! ### Gate feedback (R274) -/

/-- GATE_FB_TIMEOUT (R274): GFB_CFG.TMO after an edge of position `p` its feedback shows `on`. Disagreements on N consecutive edges raise GATE_FB;
one that stays on beyond TMO is GATE_FEEDBACK_ON's. -/
def State.gateFb (s : State) (c p : Nat) (on : Bool) : State :=
  let x := s.cell c
  if !x.up || !fhas x.sw.edgeAt p then s
  else
    let s := s.cellTo c (fget 0 x.sw.edgeAt p + 8 * x.rd Els.GFB_CFG_TMO)
    if on == x.gate p then s.modSw c fun y => { y with fbN := fset p 0 y.fbN }
    else
      let n := fget 0 x.sw.fbN p + 1
      let s := s.modSw c fun y => { y with fbN := fset p n y.fbN }
      if x.rd Els.GFB_CFG_N ≤ n then
        (s.raise (.cell c) { src := Src.GATE_FB }).modSw c fun y => { y with fbN := fset p 0 y.fbN }
      else s
def execGateFbTimeout (c p : Nat) (on : Bool) (s : State) : Host.Outcome State Fault Refusal := .next (s.gateFb c p on)

/-- GATE_FEEDBACK_ON (R274), `q` quarter nanoseconds on: the feedback shows position `p` on while its command has been off for longer than TMO. -/
def State.gateFbOn (s : State) (c p q : Nat) : State :=
  let s := s.cellBy c q
  let x := s.cell c
  if x.up && !x.gate p && decide (fget 0 x.sw.edgeAt p + 8 * x.rd Els.GFB_CFG_TMO < x.time.clock) then
    s.raise (.cell c) { src := Src.GATE_FB }
  else s
def execGateFeedbackOn (c p q : Nat) (s : State) : Host.Outcome State Fault Refusal := .next (s.gateFbOn c p q)

/-! ### Debug halt (R275, R276) -/

/-- DBG_HALT (R275): accepted only in Maintenance; the timed domain freezes and the gate commands keep their levels. -/
def State.dbgHalt (s : State) (c : Nat) : State :=
  if (s.cell c).maint then s.cwr c Els.DBG_STAT_HALTED 1 else s.cwr c Els.DBG_STAT_HALT_REFUSED 1
def execDbgHalt (c : Nat) (s : State) : Host.Outcome State Fault Refusal := .next (s.dbgHalt c)

/-- Edges and dead times that fell due in a halt of `len` quarter nanoseconds are due now (R276). -/
def PairSt.afterHalt (z : PairSt) (now len : Nat) : PairSt :=
  { z with
    plan := z.plan.map fun e => if e.t ≤ now + len then { e with t := now } else e
    wait := z.wait.map fun w => if w.2 ≤ now + len then (w.1, now) else w }

/-- The edges of a pair that are due now are made (R276). -/
def State.dueEdges (s : State) (c g : Nat) : Nat → State
  | 0 => s
  | n + 1 => match ((s.cell c).pair g).plan with
    | e :: _ => if e.t ≤ (s.cell c).time.clock then (s.gateEdge c g).dueEdges c g n else s
    | [] => s
/-- An ISOLATE whose edge time fell in the halt is executed at once (R255, R276). -/
def State.dueIso (s : State) (c len : Nat) : State :=
  match (s.cell c).sw.isoAt with
  | some t => if t ≤ (s.cell c).time.clock + len then s.isoEdge c (s.cell c).time.clock else s
  | none => s

/-- DBG_RESUME (R276): after a halt of `len` quarter nanoseconds the timed domain continues from where it froze, and any edge that fell due during the
halt is made at once. -/
def State.dbgResume (s : State) (c len : Nat) : State :=
  if !(s.cell c).halted then s
  else
    let s := s.cwr c Els.DBG_STAT_HALTED 0
    [0, 1].foldl (fun s g =>
      let s := s.modPair c g fun z => z.afterHalt (s.cell c).time.clock len
      let s := s.dueEdges c g ((s.cell c).pair g).plan.length
      match ((s.cell c).pair g).wait with
      | some (_, due) => if due ≤ (s.cell c).time.clock then s.deadExpiry c g else s
      | none => s) (s.dueIso c len)
def execDbgResume (c len : Nat) (s : State) : Host.Outcome State Fault Refusal := .next (s.dbgResume c len)

end Sys2Proof.Machine
end

