-- ==== Sys2Proof/Machine/Links.lean ====
section
/-! DEFINITION. What an Elsum does over its gate matrix links: configuration frames, trims, isolation, and the parameter set that applies at an epoch
(R279 to R304, R319, R429, R510). -/

namespace Sys2Proof.Machine

/-! ### Frames -/

/-- The time a frame of `n` payload bytes takes, in quarter nanoseconds (R281). -/
def frameQ (n : Nat) : Nat := (7 + n) * 160
/-- A frame is sent after the one before it: its type and its end. -/
def State.txFrame (s : State) (c p typ n : Nat) : State :=
  s.modLink c p fun l => { l with txType := typ, txEnd := max (s.cell c).time.clock l.txEnd + frameQ n }
/-- The bytes of a die entry of CFG_WRITE and CFG_ECHO (R282). -/
def cfgBytes (e : CfgEntry) : List Byte := [e.on, e.off, e.vg, if e.iso then 1 else 0]
/-- The CRC-16 of die entries (R282). -/
def cfgCrc (l : List CfgEntry) : Nat := crc16 (l.flatMap cfgBytes)
/-- What the die table asks of a die. -/
def State.dieCfg (s : State) (c p d : Nat) : CfgEntry :=
  let a := dieEnt p d
  { on := BitVec.ofNat 8 (s.cval c a 1), off := BitVec.ofNat 8 (s.cval c (a + 1) 1), vg := BitVec.ofNat 8 (s.cval c (a + 2) 1),
    iso := (s.dieFlags c p d).testBit 1 || (s.dieFlags c p d).testBit 2 }
/-- The SEQ after one (R284). -/
def nextSeq (n : Nat) : Nat := if 255 ≤ n then 1 else n + 1
/-- A CFG_WRITE, or a CFG_READ, of `n` dies from `first` (R284, R285). -/
def State.sendCfg (s : State) (c p first n tries : Nat) (read : Bool) : State :=
  let es := (List.range n).map fun i => s.dieCfg c p (first + i)
  let s := s.txFrame c p (if read then 3 else 2) (if read then 2 else 2 + 4 * n)
  s.modLink c p fun l =>
    let seq := if read then l.seq else nextSeq l.seq
    { l with seq := seq, out := some { seq := seq, first := first, entries := es, read := read, tries := tries, sentAt := l.txEnd } }

/-! ### Flags of a die -/

/-- One flag bit of a die. -/
def State.setFlag (s : State) (c p d bit : Nat) (v : Bool) : State :=
  s.setFlags c p d (if v then setBit (s.dieFlags c p d) bit else clrBit (s.dieFlags c p d) bit)
/-- N_DIES of a position. -/
def State.nDies (s : State) (c p : Nat) : Nat := min 128 (s.cval c (dieTab p + 1) 1)
/-- N_ISO follows the flags (R289). -/
def State.showIso (s : State) (c p : Nat) : State := s.cput c (dieTab p + 21) 1 (s.isoCount c p)
/-- The link conditions of the cell: GML_DOWN is active while a link that has gone down is not up again (R283). -/
def State.showDown (s : State) (c : Nat) : State :=
  s.setCond (.cell c) { src := Src.GML_DOWN } ((List.range 4).any fun p => ((s.cell c).link p).lost)
/-- GML_STAT.UP of a link. -/
def gmlUp (p : Nat) : Fld := { Els.GML_STAT1_UP with lsb := Els.GML_STAT1_UP.lsb + 32 * p }
def gmlCrc (p : Nat) : Fld := { Els.GML_STAT1_CRC_ERR with lsb := Els.GML_STAT1_CRC_ERR.lsb + 32 * p }

/-- The link is up (R283, R288 step 6): GMLn_EN rises, the position is declared. -/
def State.gateLinkUp (s : State) (c p : Nat) : State :=
  let s := s.modLink c p fun l => { l with phase := 3, live := true, lost := false }
  let s := (s.cwr c (gmlUp p) 1).cput c (dieTab p) 1 (setBit (s.cval c (dieTab p) 1) 0)
  (s.showDown c).refreshEn c

/-- The next configuration frame, where none is awaited; a bring-up or a read-back that has none left ends. A bring-up waits while an entry is not confirmed. -/
def State.pump (s : State) (c p : Nat) : State :=
  let l := (s.cell c).link p
  if l.out.isSome || l.phase == 0 then s
  else
    match l.todo with
    | (f, n) :: rest => (s.modLink c p fun l => { l with todo := rest }).sendCfg c p f n 0 (l.phase == 2)
    | [] =>
      if l.phase == 2 then s.gateLinkUp c p
      else if l.phase == 1 && (List.range (s.nDies c p)).all fun d => !(s.dieFlags c p d).testBit 7 then s.gateLinkUp c p
      else s

/-- A die's entry is to be sent (R285, R299). -/
def State.sendDie (s : State) (c p d : Nat) : State :=
  let s := s.setFlag c p d 7 true
  (s.modLink c p fun l => { l with todo := if l.todo.contains (d, 1) then l.todo else l.todo ++ [(d, 1)] }).pump c p

/-! ### Trims (R296 to R299, R304) -/

/-- An entry of the trim log (R304; layout of log entry 33, DEDUCED). -/
def State.trimLog (s : State) (c p d kind old new m reason : Nat) : State :=
  let head := s.cval c (cMram + 0x1A000) 2 % 4096
  let e := leBytes 6 (s.cell c).time.pn ++ leBytes 1 d ++ leBytes 1 p ++ leBytes 1 kind ++ leBytes 1 old ++ leBytes 1 new ++ leBytes 2 m
    ++ leBytes 1 reason ++ leBytes 2 0
  (s.cellWrite c (cMram + 0xA000 + 16 * head) e).cput c (cMram + 0x1A000) 8 ((head + 1) % 4096)

/-- A trim of a die changes: kind 0 on, 1 off, 2 VG; `m` the mean that decided it, `reason` 0 the algorithm, 1 a parameter set. -/
def State.setTrim (s : State) (c p d kind new m reason : Nat) : State :=
  let a := dieEnt p d + kind
  let old := s.cval c a 1
  if old = new % 256 then s
  else
    let s := ((s.trimLog c p d kind old (new % 256) m reason).cinc c Els.DIE_STAT_TRIM_CHG).cput c a 1 (new % 256)
    (s.modFlt c fun f => { f with trimChg := min 255 (f.trimChg + 1) }).sendDie c p d

/-- The accumulators of a die, cleared. -/
def State.clearAcc (s : State) (c p d : Nat) : State :=
  s.modLink c p fun l => { l with acc := fdel (2 * d) (fdel (2 * d + 1) l.acc), shr := fdel d l.shr }

/-! ### Isolation (R300 to R302) -/

/-- A die is to be isolated, with its reason: 1 HOST, 2 TEMP, 3 SHARE, 4 GATE. A parameter set also names the reason of one that is isolated already. -/
def State.isolate (s : State) (c p d reason : Nat) : State :=
  let f := s.dieFlags c p d
  if f.testBit 1 || f.testBit 2 then (if reason = 1 then s.setFlags c p d (setBits f 3 3 1) else s)
  else (s.setFlags c p d (setBit (setBits f 3 3 reason) 2)).sendDie c p d
/-- A parameter set clears an isolation (R291). -/
def State.unIsolate (s : State) (c p d : Nat) : State :=
  let f := s.dieFlags c p d
  if f.testBit 1 || f.testBit 2 then
    ((s.setFlags c p d (clrBit (clrBit (setBits f 3 3 0) 1) 2)).showIso c p).sendDie c p d
  else s
/-- The echo of a die's entry matches (R285, R300): the entry is confirmed unless it has changed since; a pending isolation is in place. -/
def State.confirmDie (s : State) (c p d : Nat) (sent : CfgEntry) : State :=
  let s := if s.dieCfg c p d == sent then s.setFlag c p d 7 false else s
  if sent.iso && (s.dieFlags c p d).testBit 2 then
    let s := ((s.setFlag c p d 2 false).setFlag c p d 1 true).showIso c p
    let s := s.raise (.cell c) { src := Src.DIE_ISOLATED }
    if (s.cell c).rd Els.DIE_ISO_MAX < s.isoCount c p then s.raise (.cell c) { src := Src.DIE_ISO_LIMIT } else s
  else s
/-- Every die of a configuration frame. -/
def State.confirmAll (s : State) (c p : Nat) : Nat → List CfgEntry → State
  | _, [] => s
  | d, e :: t => (s.confirmDie c p d e).confirmAll c p (d + 1) t

/-- The link is not driven (R279): the position is not declared and GMLn_EN is low. -/
def State.linkOff (s : State) (c p : Nat) : State :=
  let s := s.modLink c p fun l => { l with phase := 0, live := false, lost := false, todo := [], out := none, acc := [], shr := [], sense := [] }
  let s := (s.cwr c (gmlUp p) 0).cput c (dieTab p) 1 (clrBit (s.cval c (dieTab p) 1) 0)
  (s.showDown c).refreshEn c
/-- Whether GML_CFG.EN drives a link. -/
def CellSt.linkEn (x : CellSt) (p : Nat) : Bool := (x.rd Els.GML_CFG_EN).testBit p

/-! ### Parameter sets (R291, R292, R319, R429, R510) -/

/-- The register entries of a set, in order. -/
def CellSet.onRegs (k : CellSet) (g : Regs) : Regs :=
  k.entries.foldl (fun g e => if e.die then g else g.stage (elsFields e.addr.toNat) e.addr.toNat e.mask.toNat e.value.toNat) g
/-- The fields the set's register entries write, at their values in `old`. -/
def CellSet.undo (k : CellSet) (old g : Regs) : Regs :=
  k.entries.foldl (fun g e => if e.die then g else
    (elsFields e.addr.toNat).foldl (fun g f => if f.acc == .rw || f.acc == .rwc then g.wr f (old.rd f) else g) g) g

/-- The set in place governs what the cell does for its epoch from the command deadline on; its registers read the new values from the epoch (R429). -/
def State.underSet (s : State) (c k : Nat) (f : State → State) : State :=
  match (s.cell c).staged with
  | some y =>
    if y.applyPn = some k then
      let old := (s.cell c).regs
      (f (s.modCell c fun x => { x with regs := y.onRegs x.regs })).modCell c fun x => { x with regs := y.undo old x.regs }
    else f s
  | none => f s

/-- A trim limited to what the limits of its position allow (R289, R292). -/
def State.limited (s : State) (c p kind v : Nat) : Nat :=
  if kind = 2 then unsext 8 (clampI (s8 (s.cval c (dieTab p + 18) 1)) (s8 (s.cval c (dieTab p + 19) 1)) (s8 v))
  else
    let l : Int := (s.cval c (dieTab p + 16 + kind) 1 : Nat)
    unsext 8 (clampI (-l) l (s8 v))
/-- A narrowed limit clamps the trims in force (R292). -/
def State.clampTrims (s : State) (c p : Nat) : State :=
  (s.diesOf c p).foldl (fun s d => [0, 1, 2].foldl (fun s k => s.setTrim c p d k (s.limited c p k (s.cval c (dieEnt p d + k) 1)) 0x7FFF 1) s) s

/-- A die-table entry of a set (R291, R292): offset 16 holds the limits, 32 + 8d the trims and FLAGS of die d. -/
def State.applyDie (s : State) (c : Nat) (e : SetEntry) : State :=
  let p := e.pos.toNat
  let a := e.addr.toNat
  let m := e.mask.toNat
  if a = 16 then
    let w := mergeBits (s.cval c (dieTab p + 16) 4) e.value.toNat m
    ((s.cput c (dieTab p + 16) 4 w).cput c (matRec p + 10) 4 w).clampTrims c p
  else
    let d := (a - 32) / 8
    let w := mergeBits (s.cval c (dieTab p + a) 4) e.value.toNat m
    let s := [0, 1, 2].foldl (fun s k => if bits m (8 * k) 8 = 0 then s else (s.setTrim c p d k (bits w (8 * k) 8) 0x7FFF 1).clearAcc c p d) s
    if m.testBit 25 then (if w.testBit 25 then s.isolate c p d 1 else s.unIsolate c p d) else s

/-- Settings that act when they change: the converter's (R319), and the links GML_CFG.EN drives (R279). `old`: the registers before. -/
def State.settingsChanged (s : State) (c : Nat) (old : Regs) : State :=
  let x := s.cell c
  let conv := old.rd Els.CV_CFG_OSR != x.rd Els.CV_CFG_OSR || old.rd Els.CV_CFG_GAIN != x.rd Els.CV_CFG_GAIN
    || old.rd Els.CV_CFG_INSEL != x.rd Els.CV_CFG_INSEL
  let s := if conv then s.modCv c fun y =>
      if x.time.clock < y.doneAt + 200 then { y with settle := 3, change := false, osr := x.rd Els.CV_CFG_OSR, gain := x.on Els.CV_CFG_GAIN }
      else { y with change := true }
    else s
  (List.range 4).foldl (fun s p => if (old.rd Els.GML_CFG_EN).testBit p && !x.linkEn p then s.linkOff c p else s) s

/-- A staged set applies (R429, R510): its entries in order, within one tick; the cell log records it. -/
def State.applySet (s : State) (c : Nat) : State :=
  match (s.cell c).staged with
  | none => s
  | some k =>
    let old := (s.cell c).regs
    let s := k.entries.foldl (fun s e =>
      if e.die then s.applyDie c e
      else s.modCell c fun x => { x with regs := x.regs.stage (elsFields e.addr.toNat) e.addr.toNat e.mask.toNat e.value.toNat }) s
    ((s.settingsChanged c old).cellLog c 6 0 0 false k.id).modCell c fun x => { x with staged := none }
/-- The set applies if its epoch has come. -/
def State.applyDue (s : State) (c n : Nat) : State :=
  match (s.cell c).staged with
  | some k => if (match k.applyPn with | some e => decide (e ≤ n) | none => false) then s.applySet c else s
  | none => s

end Sys2Proof.Machine
end

