-- ==== Sys2Proof/Machine/CellReport.lean ====
section
/-! DEFINITION. What a cell reports of itself: the fields of a Glint (R107, R109, R295, R332, R348). -/

namespace Sys2Proof.Machine

/-- The sample latched at the latest epoch at least 150 ns before a launch: its PN and the CV field (R109). Before any sample: what CV_EPOCH holds at reset. -/
def CellSt.sampleAt (x : CellSt) (l : Nat) : Nat × Nat :=
  match x.cv.samples.find? fun p => decide (p.2.1 + 600 ≤ l) with
  | some (n, _, v) => (n, v)
  | none => (x.time.pn, 2 ^ 19)

/-- STATUS (R107, R367). -/
def CellSt.status (x : CellSt) (late : Bool) : GStatus :=
  let hold := x.on Els.GEN_STAT_HOLDING
  { state := BitVec.ofNat 4 x.st, owner := (if x.owner < 2 then x.owner else x.auth.timePort) == 1
    holding := hold, fallback := x.on Els.GEN_STAT_FALLBACK, bypassed := x.on Els.GEN_STAT_BYPASSED, reportLate := late
    timeFrozen := x.on Els.GEN_STAT_TIME_FROZEN, calActive := x.on Els.GEN_STAT_CAL_ACTIVE
    holdPeriods := if hold then BitVec.ofNat 4 (min 15 x.auth.holdN) else 0 }

/-- The sources that count as active for FAULT, with their severities of 2 or more (R348). -/
def State.faultsOf (s : State) (c : Nat) : List (Nat × Nat) :=
  let x := s.cell c
  let cs := ((s.coll (.cell c)).conds.map fun o => (o.src, x.sev o.src)).filter fun p => decide (2 ≤ p.2)
  cs ++ x.flt.fresh.filter fun p => !(cs.any fun q => q.1 == p.1)
/-- The one of highest severity, ties going to the lower number. -/
def topFault (l : List (Nat × Nat)) : Nat × Nat :=
  l.foldl (fun a p => if a.2 < p.2 || (a.2 == p.2 && decide (p.1 < a.1)) then p else a) (0, 0)
/-- FAULT (R107, R348). -/
def State.faultField (s : State) (c : Nat) : GFault :=
  let x := s.cell c
  let l := s.faultsOf c
  let m := topFault l
  if l.isEmpty then { class0 := x.flt.class0 }
  else
    { source := BitVec.ofNat 6 m.1, severity := BitVec.ofNat 3 m.2, class0 := x.flt.class0, trip := decide (5 ≤ m.2), fresh := x.flt.isNew
      count := BitVec.ofNat 7 (min 127 l.length) }

/-- The dies with a valid record at declared positions that are not isolated: position, die, temperature above −40 °C and share (R295). -/
def State.validDies (s : State) (c : Nat) : List (Nat × Nat × Nat × Nat) :=
  (List.range 4).flatMap fun p => (s.diesOf c p).filterMap fun d =>
    match ((s.cell c).link p).sense.find? fun e => e.1 == d with
    | some (_, v, _) => if v.valid && !s.dieIso c p d then some (p, d, v.t.toNat, v.s.toNat) else none
    | none => none
/-- |S - 1.0| in units of 2^-10. -/
def shareDev (n : Nat) : Nat := ((n : Int) - 1024).natAbs
/-- The hottest die, and the one whose share is furthest from 1.0: the first of equal ones. -/
def hottest : List (Nat × Nat × Nat × Nat) → Option (Nat × Nat × Nat × Nat)
  | [] => none
  | x :: t => some (t.foldl (fun a y => if a.2.2.1 < y.2.2.1 then y else a) x)
def furthest : List (Nat × Nat × Nat × Nat) → Option (Nat × Nat × Nat × Nat)
  | [] => none
  | x :: t => some (t.foldl (fun a y => if shareDev a.2.2.2 < shareDev y.2.2.2 then y else a) x)
/-- The oldest record of a declared die, in periods (R295); a die without one counts as 255. -/
def State.scanAge (s : State) (c : Nat) : Nat :=
  (List.range 4).foldl (fun m p => (s.diesOf c p).foldl (fun m d =>
    match ((s.cell c).link p).sense.find? fun e => e.1 == d with
    | some (_, _, n) => max m (min 255 ((s.cell c).time.pn - n))
    | none => 255) m) 0
/-- Dies with a trim at its limit. -/
def State.atLim (s : State) (c : Nat) : Nat :=
  (List.range 4).foldl (fun n p => n + ((s.diesOf c p).filter fun d => (s.dieFlags c p d).testBit 6).length) 0
/-- DIE_DIGEST, and the temperature of the hottest die (R107, R295). Where no die has a valid record the manual gives the fields that name one no value. -/
def State.digest (s : State) (c : Nat) : Nat × Nat :=
  let l := s.validDies c
  let iso := (List.range 4).foldl (fun n p => n + s.isoCount c p) 0
  let hot := match hottest l with | some (p, d, _, _) => p + 4 * d | none => s.freeVal.toNat % 2 ^ 9
  let shr := match furthest l with
    | some (p, d, _, v) => 2 ^ 9 * min 127 (shareDev v * 200 / 1024) + 2 ^ 16 * (p + 4 * d)
    | none => 2 ^ 9 * (s.freeVal.toNat / 2 ^ 9 % 2 ^ 16)
  let up := (List.range 4).foldl (fun n p => n + 2 ^ p * (s.cell c).rd (gmlUp p)) 0
  (hot + shr + 2 ^ 25 * min 127 iso + 2 ^ 32 * min 255 (s.atLim c) + 2 ^ 40 * (s.cell c).flt.trimChg + 2 ^ 48 * s.scanAge c + 2 ^ 56 * up,
    match hottest l with | some (_, _, t, _) => unsext 16 ((t : Int) - 640) | none => s.freeVal.toNat / 2 ^ 32 % 2 ^ 16)

/-- The entry of an auxiliary channel in the table (R331): its code, where VALID. -/
def State.auxEntry (s : State) (c ch : Nat) : Option Nat :=
  let v := s.cval c (0xE000 + 8 * ch) 4
  if v.testBit 12 then some (v % 4096) else none
/-- TEMP[31:16]: the junction (R332). -/
def State.tempTj (s : State) (c : Nat) : BitVec 16 := match s.auxEntry c 30 with | some v => Config.tjOf v | none => 0x8000
/-- TEMP[47:32]: code × TGAIN / 256 + TOFS (R332); a value the field does not hold is left open. -/
def State.tempAux (s : State) (c : Nat) : BitVec 16 :=
  let x := s.cell c
  match s.auxEntry c (x.rd Els.AUX_TEMP_CH) with
  | none => 0x8000
  | some v =>
    let y := ((v : Int) * sext 16 (x.rd Els.AUX_TEMP_TGAIN)).tdiv 256 + sext 16 (x.rd Els.AUX_TEMP_TOFS)
    if -32768 ≤ y ∧ y ≤ 32767 then BitVec.ofInt 16 y else BitVec.ofNat 16 (s.freeVal.toNat / 2 ^ 48)

/-- The report of a port whose preamble leaves at `l`, with the MGMT field and tag given (R107, R108). `late`: VALID is 0 and REPORT_LATE is set (R89). -/
def State.reportOf (s : State) (c p kind l : Nat) (late : Bool) (m : Frag) (mac : Mac) : Glint :=
  let x := s.cell c
  let v := x.sampleAt l
  let dg := s.digest c
  { kind := BitVec.ofNat 4 kind, port := p == 1, slot := BitVec.ofNat 7 (x.rd (pf p Port.PORT_ID_SLOT)), samplePn := BitVec.ofNat 16 v.1
    cv := BitVec.ofNat 18 v.2, valid := v.2.testBit 18 && !late, tag := BitVec.ofNat 3 (v.2 / 2 ^ 19), status := x.status late
    temp0 := BitVec.ofNat 16 dg.2, temp1 := s.tempTj c, temp2 := s.tempAux c, digest := BitVec.ofNat 64 dg.1
    fault := s.faultField c, mgmt := m, mac := mac }

end Sys2Proof.Machine
end

