-- ==== Sys2Proof/Machine/CellRx.lean ====
section
/-! DEFINITION. Reception at a cell's ports: frames and their tests (R100 to R105), authority and time from them (R364 to R367, R389), the
management segments (R125, R126), and enumeration and key exchange at the cell (R445 to R451, R466, R467). -/

namespace Sys2Proof.Machine

/-! ### Tests (R104) -/

/-- The key a frame of a kind verifies under at a port (R444, R467): enumeration Beacons the enumeration key, a period Beacon also a key that is in place
and not yet used. -/
def PortSt.verifies (y : PortSt) (f : DownFrame) : Bool :=
  if f.hdr.kind == 3 then f.mac == downMac 0 f.hdr
  else (y.keyed && f.mac == downMac y.key f.hdr)
    || (f.hdr.kind == 1 && (match y.newKey with | some k => f.mac == downMac k f.hdr | none => false))

/-- Whether TREE_ID names the region, tree and unit configured for a port; a port without a slot has none configured. -/
def CellSt.treeOk (x : CellSt) (p : Nat) (h : Hdr) : Bool :=
  if x.on (pf p Port.PORT_ID_VALID) then h.treeId.toNat / 128 == x.rd (pf p Port.PORT_ID_TREE_ID) / 128 else h.kind == 3

/-- One pair of numbers greater than the last, where there is one. -/
def pairGt (a : Nat × Nat) (l : Option (Nat × Nat)) : Bool :=
  match l with | some b => decide (b.1 < a.1) || (a.1 == b.1 && decide (b.2 < a.2)) | none => true
/-- The replay tests of R104, by kind. -/
def PortSt.fresh (y : PortSt) (h : Hdr) : Bool :=
  let pn := h.pn.toNat
  let last := y.lastPn.getD 0
  if h.kind == 1 then (match y.lastPn with | some l => decide (l < pn) | none => true)
  else if h.kind == 2 then decide (last ≤ pn + 1) && pairGt (pn, h.seq.toNat) y.lastBlock
  else if h.kind == 5 then decide (last ≤ pn + 1) && pairGt (pn, h.seq.toNat) y.lastMgmt
  else if h.kind == 4 then (match y.lastGlim with | some l => decide (l < h.timeNs.toNat) | none => true)
  else true

/-- A key in place comes into use with the first period Beacon tagged under it (R467), and the replay values of the key before it go (R104). -/
def PortSt.inUse (y : PortSt) (f : DownFrame) : PortSt :=
  match y.newKey with
  | some k =>
    if f.hdr.kind == 1 && f.mac == downMac k f.hdr then
      { y with key := k, keyed := true, newKey := none, liveFrom := none, lastPn := none, lastBlock := none, lastMgmt := none, lastGlim := none }
    else y
  | none => y
/-- Whether a frame is accepted (R104); one that is not is counted in the port's statistics, and a tag that fails raises BEACON_TAG (R339). -/
def State.accepts (s : State) (c p kind : Nat) (f : DownFrame) : State × Bool :=
  let x := s.cell c
  if f.hdr.kind.toNat != kind || f.aborted then (s.cinc c (pf p Port.PORT_STAT_REJ_OTHER), false)
  else if !(x.port p).verifies f then
    ((s.cinc c (pf p Port.PORT_STAT_REJ_TAG)).raise (.cell c) { src := Src.BEACON_TAG }, false)
  else if !x.treeOk p f.hdr || !((x.port p).inUse f).fresh f.hdr then (s.cinc c (pf p Port.PORT_STAT_REJ_OTHER), false)
  else (s, true)

/-- The time field of a header in quarter nanoseconds (R72). -/
def hdrQuarters (h : Hdr) : Nat := 4 * h.timeNs.toNat + h.timeFrac.toNat / 2 ^ 30

/-- A frame arrives: byte 0 `q` quarter nanoseconds on, its tag verified `v` after its last byte, which is 60 ns at most (R105). The timestamp of byte 0
is answered where the cell receives at all. -/
def State.arrive (s : State) (c q v : Nat) (f : DownFrame) : State × Option Nat :=
  if (s.cell c).runs then
    let s := s.cellBy c q
    let sof := (s.cell c).time.clock
    (s.cellBy c (f.dataQ + min 240 v), some sof)
  else (s, none)

/-! ### Segments (R126) -/

/-- An error fragment is the reply (R128, R511). -/
def errReply (cls detail : Nat) : Reply := { err := some (cls * 65536 + detail % 65536) }

/-- What a segment does to the open transaction of its kind (R126): none where out of order. The second value tells whether a SEQUENCE error is due. -/
def segStep (o : Option OpenTx) (g : Seg) (sof now : Nat) : Option OpenTx × Bool :=
  if g.first then
    match o with
    | some _ => (none, true)
    | none =>
      if g.segNo == 0 then (some { txn := g.txn.toNat, kind := g.kind.toNat, next := 1, payload := g.payload, sof := sof, doneAt := now, complete := g.last }, false)
      else (none, true)
  else
    match o with
    | some y =>
      if !y.complete && y.txn == g.txn.toNat && y.kind == g.kind.toNat && g.segNo.toNat == y.next % 16 then
        (some { y with next := y.next + 1, payload := y.payload ++ g.payload, sof := sof, doneAt := now, complete := g.last }, false)
      else (none, true)
    | none => (none, true)

/-- A broadcast segment (R126). A transaction that has ended with its LAST segment waits for the row that handles its kind, and is open no more. -/
def PortSt.bcastSeg (y : PortSt) (g : Seg) (sof now : Nat) : PortSt :=
  match (segStep y.bcast g sof now).1 with
  | some t =>
    if t.complete then { y with bcast := none, bdone := if t.kind ≤ 5 then y.bdone ++ [t] else y.bdone } else { y with bcast := some t }
  | none => { y with bcast := none }
/-- A segment of a period Beacon or management frame (R126): addressed and broadcast transactions do not touch one another. Before a session key only kinds
6, 7 and 8 are taken (R444). -/
def State.takeSeg (s : State) (c p : Nat) (g : Seg) (sof : Nat) : State :=
  let x := s.cell c
  if g.kind == 0 || (!(x.port p).keyed && !(g.kind == 6 || g.kind == 7 || g.kind == 8)) then s
  else if g.bcast then s.modPort c p fun y => y.bcastSeg g sof x.time.clock
  else if x.on (pf p Port.PORT_ID_VALID) && g.slot.toNat == x.rd (pf p Port.PORT_ID_SLOT) then
    s.modPort c p fun y =>
      let r := segStep y.tx g sof x.time.clock
      { y with tx := r.1, reply := if r.2 then some (errReply 1 g.segNo.toNat) else if g.first then none else y.reply }
  else s
/-- The segment of a frame, where it has one. One whose LEN is above 120 is ignored (R125; log entry 20, DESIGN CHOICE). -/
def State.takeSegs (s : State) (c p : Nat) (g : Option Seg) (sof : Nat) : State :=
  match g with | some g => if g.payload.length ≤ 120 then s.takeSeg c p g sof else s | none => s

/-! ### Authority, state and time -/

/-- The cell state a HEALTH mode gives (R389). -/
def stateOfMode (m : Nat) : Option Nat :=
  match m with
  | 3 => some 2 | 4 => some 5 | 5 => some 1 | 6 => some 2 | 10 => some 2 | 7 => some 3 | 9 => some 4 | 11 => some 6 | _ => none

/-- Whether a unit's frames on port `p` count as the owner's, or the cell has no owner (R367). -/
def CellSt.ownerOrNone (x : CellSt) (p : Nat) : Bool := x.owner == p || decide (2 ≤ x.owner)

/-- The time error of a frame, where the cell uses its time (R72, R367), and a step the frame announces (R63). -/
def State.useTime (s : State) (c p sof : Nat) (h : Hdr) : State :=
  let x := s.cell c
  let s := if x.usesTime p || !x.time.set then s.discipline c p sof (hdrQuarters h) else s
  let s := s.modTime c fun y => { y with lastRx := some sof }
  if x.usesTime p && h.kind == 1 && h.stepValid then s.modTime c fun y => { y with announced := some (h.pn.toNat, h.step.toInt) } else s

/-- RERANGE and RR_APPLY of an accepted Beacon (R120, R121). -/
def State.rerangeFlags (s : State) (c p : Nat) (h : Hdr) : State :=
  let pn := h.pn.toNat
  if !h.rerange then s.modPort c p fun y => { y with rerange := false }
  else if h.rrApply then
    let s := s.modPort c p fun y => { y with rerange := false, newDelay := y.newDelay.map fun d => (d.1, d.2.1, some pn) }
    s.modTime c fun y => { y with thawPn := some pn }
  else
    let starts := !(s.cell c).on Els.GEN_STAT_TIME_FROZEN
    let s := s.modPort c p fun y => { y with rerange := true, newDelay := y.newDelay.map fun d => (d.1, d.2.1, none) }
    if starts then (s.cwr c Els.GEN_STAT_TIME_FROZEN 1).modTime c fun y => { y with revertPn := some pn, thawPn := none, stepDue := none } else s

/-- What the CLAUSE field makes of a staged set (R429): APPLY sets the epoch at which it applies, ABANDON discards it. -/
def CellSet.told (k : CellSet) (h : Hdr) : Option CellSet :=
  if k.id != h.clauseId.toNat then some k
  else if h.clAbandon then none
  else if h.clApply && k.applyPn.isNone then some { k with applyPn := some h.pn.toNat }
  else some k
/-- CLAUSE of an owner's period Beacon (R429). -/
def State.clauseField (s : State) (c : Nat) (h : Hdr) : State :=
  s.modCell c fun x => { x with staged := x.staged.bind fun k => k.told h }

/-- The key in place comes into use with the first period Beacon accepted under it (R467), and the cell may launch one period after that (R453). -/
def State.firstBeacon (s : State) (c p sof : Nat) (f : DownFrame) : State :=
  s.modPort c p fun y =>
    let y := y.inUse f
    if y.liveFrom.isNone then { y with liveFrom := some (sof + 4 * s.period) } else y

/-- The first Beacon whose mode changes from 10 opens the first-latch window (R344). -/
def State.modeSeen (s : State) (c m : Nat) : State :=
  let x := s.cell c
  s.modFlt c fun f =>
    { f with lastMode := m, rwin := if f.lastMode == 10 && m != 10 then x.time.pn + 1 + x.rd Els.FLT_CFG_RWIN else f.rwin }

/-- What an owner's period Beacon also tells (R364, R366, R389, R429); `late`: the command deadline of its epoch has passed. -/
def State.ownerBeacon (s : State) (c : Nat) (h : Hdr) (late : Bool) : State :=
  let s := s.modSw c fun y => { y with stateNext := match stateOfMode h.mode.toNat with | some n => some n | none => y.stateNext }
  let s := if !h.shadow && h.healthy && decide ((s.cell c).rd Els.AUTH_STAT_EPOCH < h.authEpoch.toNat) then
      (s.cwr c Els.AUTH_STAT_EPOCH h.authEpoch.toNat).modAuth c fun y => { y with lastEpoch := h.authEpoch.toNat }
    else s
  let s := if h.yield then s.modAuth c fun y => { y with yieldLeft := if late then 3 else 4 } else s
  (s.clauseField c h).modeSeen c h.mode.toNat

/-- Transmission that an absence of frames has stopped resumes one period after the first period Beacon (R370). -/
def State.resumeTx (s : State) (c : Nat) : State :=
  if (s.cell c).txOff then
    let t := (s.cell c).time.clock + 4 * s.period
    (s.modCell c fun x => { x with txOff := false, ports := x.ports.map fun (p : Nat × PortSt) => (p.1, { p.2 with liveFrom := p.2.liveFrom.map fun l => max l t }) })
  else s

/-- The epoch a period Beacon belongs to, in quarters of the cell's time: the first grid point after its launch (R36, R66). -/
def State.epochOfBeacon (s : State) (h : Hdr) : Nat := 4 * gridFrom (h.timeNs.toNat + 1) s.period (s.rd Reg.EPOCH_PHASE_PHASE)
/-- The cell's PN and last epoch as a Beacon it takes its time from gives them: the coming epoch is the Beacon's own, unless that has passed (R95). -/
def State.periodOf (s : State) (c e : Nat) (h : Hdr) : State :=
  s.modTime c fun y =>
    if e ≤ y.clock then { y with pn := h.pn.toNat, epochAt := max y.epochAt e }
    else
      { y with
        pn := if y.pn == h.pn.toNat then y.pn else h.pn.toNat - 1
        epochAt := if s.cellNext c ≤ y.clock then s.gridBefore y.clock else y.epochAt }

/-- PERIOD_BEACON_ACCEPT (R101 to R105, R256, R364 to R367). Lateness is judged by the tick of the timed domain in which the tag is verified, against the
Beacon's own epoch (R95, R105, R256). -/
def State.periodAccept (s : State) (c p q v : Nat) (f : DownFrame) : State :=
  let a := s.arrive c q v f
  match a.2 with
  | none => s
  | some sof =>
    let r := a.1.accepts c p 1 f
    let s := r.1
    if !r.2 then s
    else
      let h := f.hdr
      let was := (s.cell c).time
      let s := (s.firstBeacon c p sof f).useTime c p sof h
      let e := s.epochOfBeacon h
      let checked := if was.set then was.clock else (s.cell c).time.clock
      let s := if (s.cell c).usesTime p || !was.set then s.periodOf c e h else s
      let x := s.cell c
      let late := decide (x.time.decided = some h.pn.toNat) || decide ((e - 800) / 8 < checked / 8)
      let s := if late then s.cinc c Els.PWM_STAT_CMD_LATE else s
      let cmd := f.recs.getD (x.rd (pf p Port.PORT_ID_SLOT)) ⟨0, false, 0, 0⟩
      let s := s.modPort c p fun y => { y with lastPn := some h.pn.toNat, beacon := some ⟨h, cmd, late, x.sw.blockTick == some (a.1.ctick c)⟩, heard := true }
      let s := if h.mode == 4 then s else s.modGlim c fun g => { g with woken := false, windows := 0 }
      let s := s.rerangeFlags c p h
      let s := if x.owner == p then s.ownerBeacon c h (decide (x.time.decided = some h.pn.toNat)) else s
      (s.resumeTx c).takeSegs c p f.seg sof
def execPeriodBeaconAccept (c p q v : Nat) (f : DownFrame) (s : State) : Host.Outcome State Fault Refusal := .next (s.periodAccept c p q v f)

/-- A block in force at the cell (R105, R254, R257): every position off at once, pending records void, OFF in force. -/
def State.cellBlock (s : State) (c : Nat) : State :=
  let s := s.allOff c
  let s := s.modSw c fun y => { y with blocked := true, cmd := ⟨0, false, 0, 0⟩, next := none, calNext := false, hyst := false, w := 0, zeroRun := 0 }
  let s := s.cwr c Els.GEN_STAT_FALLBACK 0
  let s := s.setCond (.cell c) { src := Src.FALLBACK } false
  s.modCell c fun x => { x with ports := x.ports.map fun (p : Nat × PortSt) => (p.1, { p.2 with beacon := p.2.beacon.map fun b => { b with void := true } }) }

/-- BLOCK_BEACON_ACCEPT (R105, R257, R367): obeyed from the owner, and from either port without an owner. -/
def State.blockAccept (s : State) (c p q v : Nat) (f : DownFrame) : State :=
  let a := s.arrive c q v f
  match a.2 with
  | none => s
  | some sof =>
    let r := a.1.accepts c p 2 f
    let s := r.1
    if !r.2 then s
    else
      let s := s.modPort c p fun y => { y with lastBlock := some (f.hdr.pn.toNat, f.hdr.seq.toNat) }
      let s := s.useTime c p sof f.hdr
      if (s.cell c).ownerOrNone p then (s.modSw c fun y => { y with blockTick := some (a.1.ctick c) }).cellBlock c else s
def execBlockBeaconAccept (c p q v : Nat) (f : DownFrame) (s : State) : Host.Outcome State Fault Refusal := .next (s.blockAccept c p q v f)

/-- ENUMERATION_BEACON_ACCEPT (R389, R444, R445): the first one takes a cell from Reset to Enumerate; its segment waits for the row that handles it. -/
def State.enumAccept (s : State) (c p q v : Nat) (f : DownFrame) : State :=
  let a := s.arrive c q v f
  match a.2 with
  | none => s
  | some sof =>
    let r := a.1.accepts c p 3 f
    let s := r.1
    if !r.2 then s
    else
      let first := !(s.cell c).time.set
      let s := s.useTime c p sof f.hdr
      let s := if first then s.modTime c fun y => { y with pn := f.hdr.pn.toNat } else s
      let s := if (s.cell c).st == 0 then s.cwr c Els.GEN_STAT_STATE 1 else s
      s.modPort c p fun y => { y with req := f.seg.map fun g => (g, sof) }
def execEnumerationBeaconAccept (c p q v : Nat) (f : DownFrame) (s : State) : Host.Outcome State Fault Refusal := .next (s.enumAccept c p q v f)

/-- The cell enters a state (R389). In Glimmer every position is off and every GMLn_EN low; at its end the primary converter is powered again (R319, R408). -/
def State.enterState (s : State) (c st : Nat) : State :=
  let x := s.cell c
  if x.st == st then s
  else
    let was := x.firstLatch
    let s := s.cwr c Els.GEN_STAT_STATE st
    let s := if st == 5 then
        (s.allOff c).modGlim c fun g => { g with woken := false, windows := 0, ownerAt := x.time.clock, nextAt := x.time.clock + 4000000 * x.rd Els.GLIM_CFG_INT }
      else s
    let s := if x.st == 5 then s.modCv c fun y => { y with settle := 3, doneAt := x.time.clock } else s
    let s := s.refreshEn c
    let s := if was && !(s.cell c).firstLatch then s.cellNormal c else s
    if st == 3 || st == 4 || st == 2 then s else s.abandonCal c

/-- GLIMMER_BEACON_ACCEPT (R389, R408): time, the owner's life, the state, and the windows in which a woken cell sends markers. -/
def State.glimAccept (s : State) (c p q v : Nat) (f : DownFrame) : State :=
  let a := s.arrive c q v f
  match a.2 with
  | none => s
  | some sof =>
    let r := a.1.accepts c p 4 f
    let s := r.1
    if !r.2 then s
    else
      let h := f.hdr
      let s := s.modPort c p fun y => { y with lastGlim := some h.timeNs.toNat }
      let s := s.useTime c p sof h
      let x := s.cell c
      let s := if x.owner == p then s.modGlim c fun g => { g with ownerAt := sof } else s
      let s := if x.owner == p then match stateOfMode h.mode.toNat with | some n => s.enterState c n | none => s else s
      s.modGlim c fun g =>
        { g with
          gridAt := hdrQuarters h
          woken := g.woken && h.mode == 4
          windows := if g.woken && h.mode == 4 then 8 else 0 }
def execGlimmerBeaconAccept (c p q v : Nat) (f : DownFrame) (s : State) : Host.Outcome State Fault Refusal := .next (s.glimAccept c p q v f)

/-- MANAGEMENT_FRAME_ACCEPT (R104, R126). -/
def State.mgmtAccept (s : State) (c p q v : Nat) (f : DownFrame) : State :=
  let a := s.arrive c q v f
  match a.2 with
  | none => s
  | some sof =>
    let r := a.1.accepts c p 5 f
    let s := r.1
    if !r.2 then s
    else
      let s := s.modPort c p fun y => { y with lastMgmt := some (f.hdr.pn.toNat, f.hdr.seq.toNat) }
      let s := s.modTime c fun y => { y with lastRx := some sof }
      s.takeSegs c p f.seg sof
def execManagementFrameAccept (c p q v : Nat) (f : DownFrame) (s : State) : Host.Outcome State Fault Refusal := .next (s.mgmtAccept c p q v f)

/-! ### Enumeration at the cell (R445 to R451) -/

/-- The tag of a Glint (R103). -/
def upMac (key : Key) (pn kind idx : Nat) : Mac :=
  { key := key, ivPn := BitVec.ofNat 64 pn, ivKind := BitVec.ofNat 8 (2 * kind + 1), ivSeq := 0, ivCell := BitVec.ofNat 16 idx, ok := true }

/-- A frame leaves a port at an instant of cell time. -/
def State.sendUp (s : State) (c p t : Nat) (f : UpFrame) : State :=
  (s.cellTo c t).modPort c p fun y => { y with sent := some (t, f), sentN := y.sentN + 1, req := none }

/-- The instant of a reply to a request Beacon: byte 0 at t_r + 4,000 ns, and 50 ns for each offset (R445). -/
def replyAt (sof o : Nat) : Nat := sof + 16000 + 200 * o

/-- The CV field of the report: code, VALID and tag. -/
def CellSt.serial (x : CellSt) : Nat := x.rd Els.SEC_SERIAL_SERIAL
/-- Whether the segment of a request addresses this cell's slot on the port. -/
def CellSt.mine (x : CellSt) (p : Nat) (g : Seg) : Bool :=
  !g.bcast && x.on (pf p Port.PORT_ID_VALID) && g.slot.toNat == x.rd (pf p Port.PORT_ID_SLOT) && !(x.port p).parked

/-- A ranging reply or confirmation: a Glint of KIND 0x2 in the report layout, the MGMT field given (R107, R117, R450, R451). -/
def State.replyGlint (s : State) (c p sof : Nat) (m : Frag) : State :=
  let y := s.port c p
  let t := replyAt sof 0
  (s.used).sendUp c p t (.report (s.reportOf c p 2 (t - 64) false m (upMac y.useKey (s.cell c).time.pn 2 (y.idx.getD 0))))

/-- FLUSH (R104, R446): the port forgets its slot, delays, key, replay values and any park; the other port is unaffected. -/
def State.flushPort (s : State) (c p : Nat) : State :=
  let s := s.modPort c p fun y => { y with
    key := 0, keyed := false, newKey := none, idx := none, parked := false, lastPn := none, lastBlock := none, lastMgmt := none
    lastGlim := none, beacon := none, liveFrom := none, slotPn := none, rerange := false, tx := none, bcast := none, bdone := [], reply := none
    askedAt := none, newDelay := none, kx := {} }
  let s := ((s.cwr c (pf p Port.PORT_ID_TREE_ID) 0).cwr c (pf p Port.PORT_ID_SLOT) 0).cwr c (pf p Port.PORT_ID_VALID) 0
  let s := (s.cwr c (pf p Port.DS_DELAY_DELAY) 0).cwr c (pf p Port.EQ_EQ) 0
  s.cwr c (if p = 0 then Els.SEC_STAT_KEYED_A else Els.SEC_STAT_KEYED_B) 0

/-- The discovery reply (R448). Bit 7 of the ROM level reports PATCH_ERR (R465; log entry 102, DESIGN CHOICE). -/
def State.discReply (s : State) (c p round : Nat) : DiscReply :=
  let x := s.cell c
  let o := 1 - p
  { round := BitVec.ofNat 16 round, serial := BitVec.ofNat 64 x.serial,
    cv := BitVec.ofNat 18 (x.rd Els.CV_RES_CODE), valid := x.on Els.CV_RES_VALID, state := BitVec.ofNat 4 x.st
    otherValid := x.on (pf o Port.PORT_ID_VALID), otherKeyed := (x.port o).keyed, otherIdx := BitVec.ofNat 15 ((x.port o).idx.getD 0)
    lastEpoch := BitVec.ofNat 32 x.auth.lastEpoch, rev := BitVec.ofNat 16 (x.rd Els.CELL_ID_REV + 256 * (x.rd Els.CELL_ID_ROM % 128) + 32768 * x.rd Els.SEC_STAT_PATCH_ERR)
    mac := upMac (x.port p).useKey x.time.pn 3 0 }

/-- DISC_REQ (R446, R447): FLUSH first; a cell without a slot that is not parked answers the index its hash gives. -/
def State.discReqAt (s : State) (c p : Nat) : State :=
  match (s.port c p).req with
  | none => s
  | some (g, sof) =>
    if !(g.kind == 7 && g.payload.head? == some 0) then s
    else
      let s := if (leAt g.payload 1 1).testBit 0 then s.flushPort c p else s
      let s := s.modPort c p fun y => { y with req := none }
      let x := s.cell c
      let round := leAt g.payload 2 2
      let h := crc32 (leBytes 8 x.serial ++ leBytes 2 round)
      let spread := max 1 (leAt g.payload 5 1)
      if x.on (pf p Port.PORT_ID_VALID) || (x.port p).parked || h % spread != leAt g.payload 4 1 then s
      else s.sendUp c p (replyAt sof (h / 256 % max 1 (leAt g.payload 6 1))) (.discovery (s.discReply c p round))
def execDiscReq (c p : Nat) (s : State) : Host.Outcome State Fault Refusal := .next (s.discReqAt c p)

/-- ASSIGN (R446, R450): taken, or refused with CABLE (4) or MISMATCH (3), in which case the cell parks itself. -/
def State.assign (s : State) (c p : Nat) : State :=
  match (s.port c p).req with
  | none => s
  | some (g, sof) =>
    let x := s.cell c
    if !(g.kind == 7 && g.payload.head? == some 1 && leAt g.payload 1 8 == x.serial) || (x.port p).parked then s
    else
      let tid := leAt g.payload 9 2
      let idx := leAt g.payload 11 2
      let code := if tid / 128 % 2 != p then 4
        else match (x.port (1 - p)).idx with | some i => if i != idx then 3 else 0 | none => 0
      if code != 0 then
        (s.replyGlint c p sof { typ := 3, data := BitVec.ofNat 24 (5 * 65536 + code) }).modPort c p fun y => { y with parked := true }
      else
        let s := ((s.cwr c (pf p Port.PORT_ID_TREE_ID) tid).cwr c (pf p Port.PORT_ID_SLOT) g.slot.toNat).cwr c (pf p Port.PORT_ID_VALID) 1
        (s.modPort c p fun y => { y with idx := some idx }).replyGlint c p sof { typ := 2 }
def execAssign (c p : Nat) (s : State) : Host.Outcome State Fault Refusal := .next (s.assign c p)

/-- PARK (R446): the cell that the SERIAL names is silent on the port until the next FLUSH. -/
def State.parkAt (s : State) (c p : Nat) : State :=
  match (s.port c p).req with
  | none => s
  | some (g, _) =>
    if g.kind == 7 && g.payload.head? == some 2 && leAt g.payload 1 8 == (s.cell c).serial then
      s.modPort c p fun y => { y with parked := true, req := none }
    else s
def execPark (c p : Nat) (s : State) : Host.Outcome State Fault Refusal := .next (s.parkAt c p)

/-! ### Ranging at the cell (R116, R117, R119, R121) -/

/-- A completed addressed transaction of a kind at a port. -/
def PortSt.done (y : PortSt) (kind : Nat) : Option OpenTx :=
  match y.tx with | some t => if t.complete && t.kind == kind && y.reply.isNone then some t else none | none => none
/-- The reply of a port's transaction begins (R126). -/
def State.replyWith (s : State) (c p : Nat) (r : Reply) : State := s.modPort c p fun y => { y with reply := some r }

/-- RANGING_REQUEST (R116, R117): in a request Beacon it is answered by a ranging Glint at t_r + 4,000 ns, whose TURN that is; otherwise TURN goes in
the next Glint. -/
def State.rangingAt (s : State) (c p : Nat) : State :=
  let x := s.cell c
  match (x.port p).req with
  | some (g, sof) =>
    if g.kind == 6 && g.payload.isEmpty && x.mine p g then s.replyGlint c p sof { typ := 2, data := 16000 } else s
  | none =>
    match (x.port p).done 6 with
    | some t => if t.payload.isEmpty then s.modPort c p fun y => { y with askedAt := some t.sof } else s
    | none => s
def execRangingRequest (c p : Nat) (s : State) : Host.Outcome State Fault Refusal := .next (s.rangingAt c p)

/-- RERANGE_HOLD_MESSAGE (R121): the loop freezes, and its recent corrections are reversed at the coming epoch. -/
def State.holdAt (s : State) (c p : Nat) : State :=
  match ((s.cell c).port p).done 9 with
  | some t =>
    if t.payload.head? == some 0 then
      let s := s.cwr c Els.GEN_STAT_TIME_FROZEN 1
      let s := s.modTime c fun y => { y with revertPn := some (y.pn + 1), thawPn := none, stepDue := none }
      s.replyWith c p {}
    else s
  | none => s
def execRerangeHoldMessage (c p : Nat) (s : State) : Host.Outcome State Fault Refusal := .next (s.holdAt c p)

/-- DS_DELAY, EQ and the epoch of a result message (log entry 20, DESIGN CHOICE). -/
def resultOf (l : List Byte) : Option (Nat × Nat × Nat) :=
  if l.head? == some 1 then some (leAt l 1 2 % 2 ^ 15, leAt l 3 2 % 2 ^ 15, leAt l 5 8) else none

/-- RERANGE_RESULT_MESSAGE (R116, R119, R120): the new delays wait for the epoch that is named; in a re-range of the tree, for RR_APPLY. -/
def State.resultAt (s : State) (c p : Nat) : State :=
  let x := s.cell c
  let take (s : State) (d : Nat × Nat × Nat) : State :=
    let s := s.modPort c p fun y => { y with newDelay := some (d.1, d.2.1, if y.rerange then none else some d.2.2) }
    if (s.port c p).rerange then s else s.modTime c fun y => { y with thawPn := some d.2.2 }
  match (x.port p).req with
  | some (g, sof) =>
    match resultOf g.payload with
    | some d => if g.kind == 6 && x.mine p g then (take s d).replyGlint c p sof { typ := 2 } else s
    | none => s
  | none =>
    match (x.port p).done 9 with
    | some t => match resultOf t.payload with
      | some d => (take s d).replyWith c p {}
      | none => s
    | none => s
def execRerangeResultMessage (c p : Nat) (s : State) : Host.Outcome State Fault Refusal := .next (s.resultAt c p)

/-! ### Key exchange at the cell (R466, R467) -/

/-- A key-exchange reply (R448). -/
def State.sendKx (s : State) (c p sof chunk : Nat) (g : Seg) (result : Nat) (anchorNew sigOk : Bool) : State :=
  let x := s.cell c
  let y := x.port p
  s.sendUp c p (replyAt sof 0) (.keyExchange
    { slot := BitVec.ofNat 7 (x.rd (pf p Port.PORT_ID_SLOT)), chunk := BitVec.ofNat 7 chunk, txn := g.txn, result := BitVec.ofNat 8 result,
      anchorNew := anchorNew, sigOk := sigOk, mac := upMac y.useKey x.time.pn 3 (y.idx.getD 0) })

/-- The result of the checks of an OFFER (R466): 1 the anchor, 2 the endorsement, 3 the signature, 4 the identity it names. -/
def offerResult (anchor : Option (BitVec 384)) (hash : BitVec 384) (endorsed signed same : Bool) : Nat :=
  if (match anchor with | some a => a != hash | none => false) then 1
  else if !endorsed then 2 else if !signed then 3 else if !same then 4 else 0

/-- OFFER (R466): a part of the offer, answered by a chunk of the cell's ephemeral key; part 2 completes it. The operands tell what the offer
shows: the owner key's hash, and whether the endorsement and signature verify over the identity of this cell. -/
def State.offer (s : State) (c p : Nat) (hash : BitVec 384) (endorsed signed same : Bool) : State :=
  let x := s.cell c
  match (x.port p).req with
  | none => s
  | some (g, sof) =>
    let part := leAt g.payload 1 1
    if !(g.kind == 8 && g.payload.head? == some 0 && x.mine p g) then s
    else
      let s := s.modPort c p fun y =>
        let k : KxSt := if part = 0 then { parts := [0] } else { y.kx with parts := y.kx.parts ++ [part] }
        { y with kx := if part = 2 && k.parts == [0, 1, 2] then
            { k with
              result := some (offerResult x.sec.anchor hash endorsed signed same)
              anchorNew := x.sec.anchor.isNone
              hash := hash
              offerAt := sof }
          else k }
      s.sendKx c p sof part g 0 false true
def execKxOffer (c p : Nat) (hash : BitVec 384) (endorsed signed same : Bool) (s : State) : Host.Outcome State Fault Refusal :=
  .next (s.offer c p hash endorsed signed same)

/-- POLL (R467): chunk 3 is ready within 150 µs of part 2 and chunk 4 within 200 µs; an earlier poll gets chunk 0x7E unless the cell is `ready` already. -/
def State.poll (s : State) (c p : Nat) (ready : Bool) : State :=
  let x := s.cell c
  match (x.port p).req with
  | none => s
  | some (g, sof) =>
    let ch := leAt g.payload 1 1
    if !(g.kind == 8 && g.payload.head? == some 1 && x.mine p g) then s
    else
      let k := (x.port p).kx
      let due := k.offerAt + 4000 * (if ch ≤ 3 then 150 else 200)
      match k.result with
      | none => s.sendKx c p sof 0x7E g 0 false true
      | some n =>
        if !ready && decide (sof < due) then s.sendKx c p sof 0x7E g 0 false true
        else s.sendKx c p sof ch g n k.anchorNew x.sec.idk
def execKxPoll (c p : Nat) (ready : Bool) (s : State) : Host.Outcome State Fault Refusal := .next (s.poll c p ready)

/-- DONE (R467): K_T `key` is unwrapped and the confirmation sent; a cell without an anchor writes it after that. Where the wrap does not open, or the
Basath confirmation is wrong, nothing is sent. -/
def State.kxDoneAt (s : State) (c p : Nat) (key : Key) (opens confirmed : Bool) : State :=
  let x := s.cell c
  match (x.port p).req with
  | none => s
  | some (g, sof) =>
    let k := (x.port p).kx
    if !(g.kind == 8 && g.payload.head? == some 2 && x.mine p g && k.result == some 0 && opens && confirmed && x.sec.idk) then s
    else
      let s := s.sendKx c p sof 8 g 0 false true
      let s := s.modPort c p fun y => { y with
        newKey := some key, kx := {} }
      let s := s.cwr c (if p = 0 then Els.SEC_STAT_KEYED_A else Els.SEC_STAT_KEYED_B) 1
      if k.anchorNew then
        (s.modCell c fun x => { x with sec := { x.sec with anchor := some k.hash } }).cwr c Els.SEC_STAT_ANCHOR_SET 1
      else s
def execKxDone (c p : Nat) (key : Key) (opens confirmed : Bool) (s : State) : Host.Outcome State Fault Refusal :=
  .next (s.kxDoneAt c p key opens confirmed)

end Sys2Proof.Machine
end

