-- ==== Sys2Proof/Machine/CellCmd.lean ====
section
/-! DEFINITION. The command deadline and the epoch at a cell (R256, R257, R270 to R273, R316, R321, R364 to R369, R389, R429). -/

namespace Sys2Proof.Machine

/-! ### Whose Beacon (R364, R365) -/

/-- The Beacon of a port for epoch `k`, accepted in time (R256). -/
def PortSt.inTime (y : PortSt) (k : Nat) : Option BeaconIn :=
  match y.beacon with | some b => if b.hdr.pn.toNat == k && !b.late then some b else none | none => none
/-- The healthy Beacon for epoch `k`, where one was accepted (R364). -/
def CellSt.healthyFor (x : CellSt) (k : Nat) : Option BeaconIn :=
  if 2 ≤ x.owner then none
  else match (x.port x.owner).inTime k with
    | some b => if !b.hdr.shadow && b.hdr.healthy && b.hdr.authEpoch.toNat == x.rd Els.AUTH_STAT_EPOCH then some b else none
    | none => none
/-- The claim on port `p` for epoch `k`, where there is one (R364). -/
def CellSt.claimFor (x : CellSt) (k p : Nat) : Option BeaconIn :=
  if x.owner == p then none
  else match (x.port p).inTime k with
    | some b => if !b.hdr.shadow && b.hdr.healthy && decide (x.rd Els.AUTH_STAT_EPOCH < b.hdr.authEpoch.toNat) then some b else none
    | none => none

/-- The owner becomes `o` (0 A, 1 B, 2 none); the cell log records a change (R478). -/
def State.setOwner (s : State) (c o epoch : Nat) : State :=
  let x := s.cell c
  let s := (s.cwr c Els.AUTH_STAT_OWNER o).cwr c Els.AUTH_STAT_EPOCH epoch
  let s := s.modAuth c fun y => { y with lastEpoch := epoch, miss := 0 }
  if x.owner == o then s else s.cellLog c 5 0 0 false epoch

/-- Step 1 of R365: the lease. -/
def State.leaseStep (s : State) (c k : Nat) : State :=
  let x := s.cell c
  match x.healthyFor k with
  | some _ => s.modAuth c fun y => { y with miss := 0 }
  | none =>
    let n := x.auth.miss + 1
    let s := s.modAuth c fun y => { y with miss := n }
    if x.owner < 2 && decide (x.rd Els.AUTH_CFG_LEASE_PERIODS ≤ n) then s.setOwner c 2 (x.rd Els.AUTH_STAT_EPOCH) else s

/-- The claim that is taken of those on ports A and B: the higher epoch, at equal epochs port A (R365). -/
def pickClaim (a b : Option BeaconIn) : Option (Nat × BeaconIn) :=
  match a, b with
  | some x, some y => if x.hdr.authEpoch.toNat < y.hdr.authEpoch.toNat then some (1, y) else some (0, x)
  | some x, none => some (0, x)
  | none, some y => some (1, y)
  | none, none => none

/-- Step 2 of R365: a claim is taken where the cell has no owner or a yield is in force; claims not taken are counted. -/
def State.claimStep (s : State) (c k : Nat) : State :=
  let x := s.cell c
  let a := x.claimFor k 0
  let b := x.claimFor k 1
  let n := b2n a.isSome + b2n b.isSome
  match pickClaim a b with
  | none => s
  | some (p, w) =>
    let takes := decide (2 ≤ x.owner) || decide (0 < x.auth.yieldLeft)
    let lost := if takes then n - 1 else n
    let s := s.cwr c Els.AUTH_STAT_CLAIM_REFUSED (min 65535 (x.rd Els.AUTH_STAT_CLAIM_REFUSED + lost))
    if takes then (s.setOwner c p w.hdr.authEpoch.toNat).ownerBeacon c { w.hdr with yield := false } false else s

/-- Step 3 of R365: the tree command for epoch `k` with ARM_AVG, where one is valid: a record of the owner's healthy Beacon that no block has voided (R257). -/
def CellSt.treeFor (x : CellSt) (k : Nat) : Option (CmdRec × Nat) :=
  match x.healthyFor k with
  | some b => if b.void then none else some (b.cmd, b.hdr.armAvg.toNat)
  | none => none

/-! ### The record as the cell executes it (R102, R253, R255) -/

/-- Whether a half-bridge cell is sent a full-bridge command (R253). -/
def CellSt.notHalf (x : CellSt) (r : CmdRec) : Bool := !x.full && (r.cmd == 4 || r.cmd == 5)
/-- A record as executed: reserved codes, TEST outside Maintenance, the commands a half-bridge cannot execute and every command of a cell that has
bypassed itself are OFF. -/
def CellSt.asRun (x : CellSt) (r : CmdRec) : CmdRec :=
  if x.sw.dead || x.notHalf r || decide (8 < r.cmd.toNat) || (r.cmd == 8 && !x.maintNext) then { r with cmd := 0 } else r

/-! ### The hysteretic controller and the fallback (R270 to R273) -/

/-- The state w after a decision (R271). -/
def hystW (w v avg band : Int) (valid : Bool) : Int :=
  if !valid then w
  else if v < avg - band then 1
  else if avg + band < v then -1
  else if (w == 1 && decide (avg ≤ v)) || (w == -1 && decide (v ≤ avg)) then 0
  else w
/-- The duty of a decision (R271). -/
def hystDuty (base w dir step : Int) : Nat := (clampI 0 65536 (base + w * dir * step)).toNat

/-- Whether the cell is in fallback at the coming epoch, ZERO pending again with `avg` (R272). -/
def CellSt.fallbackNext (x : CellSt) (avg : Nat) : Bool :=
  let v := x.rd Els.CV_RES_CODE
  let valid := x.on Els.CV_RES_VALID
  let d := ((v : Int) - (avg : Int)).natAbs
  if x.on Els.GEN_STAT_FALLBACK then !(valid && decide (d ≤ x.rd Els.CELL_HYST_BAND))
  else x.on Els.CELL_FB_EN && (x.st == 3 || x.st == 4) && x.sw.cmd.cmd == 2 && decide (x.rd Els.CELL_FB_N ≤ x.sw.zeroRun) && avg != 0
    && valid && decide (x.rd Els.CELL_FB_BAND < d)

/-- The decisions of a command deadline that has a tree command: the record pending, the fallback, the controller, a calibration (R256, R271, R272, R321). -/
def State.decideTree (s : State) (c : Nat) (r0 : CmdRec) (avg : Nat) : State :=
  let x := s.cell c
  let r := x.asRun r0
  let fb := r.cmd == 2 && x.fallbackNext avg
  let hyst := r.cmd == 6 || fb
  let w := hystW (if x.sw.hyst then x.sw.w else 0) (x.rd Els.CV_RES_CODE) avg (x.rd Els.CELL_HYST_BAND) (x.on Els.CV_RES_VALID)
  let duty := hystDuty (if r.cmd == 6 then r.duty.toNat else 0) w x.prot.dir (x.rd Els.CELL_HYST_STEP)
  let s := s.modSw c fun y =>
    { y with
      next := some r, badCmd := x.notHalf r0 && !x.sw.dead, fbNext := fb, calNext := r0.cal
      w := if hyst then w else 0
      dutyNext := if hyst then duty else y.dutyNext }
  s.planPeriod c (s.cellNext c) r hyst duty false

/-- The decisions of a command deadline without a tree command (R26, R273, R369): the hold goes on, or it expires. -/
def State.decideHold (s : State) (c : Nat) : State :=
  let x := s.cell c
  let s := s.modSw c fun y => { y with next := none, badCmd := false, calNext := false, fbNext := x.on Els.GEN_STAT_FALLBACK }
  if x.auth.expired then s
  else if x.rd Els.AUTH_CFG_HOLD_LIMIT < x.auth.holdN + 1 then
    let s := (s.modAuth c fun y => { y with expireDue := true }).raise (.cell c) { src := Src.HOLD_EXPIRED }
    s.cellLog c 4 0 0 false 0
  else s.planPeriod c (s.cellNext c) x.sw.cmd x.sw.hyst x.sw.duty true

/-- Whether a cell has epochs: its time is set, and in Glimmer a period Beacon is pending (R67, R73, R408). -/
def CellSt.hasEpochs (x : CellSt) : Bool :=
  x.runs && x.time.set &&
    (x.st != 5 || [0, 1].any fun p => match (x.port p).beacon with | some b => b.hdr.pn.toNat == x.time.pn + 1 | none => false)

/-- The decisions of the command deadline of epoch `k` (R365). -/
def State.decideAt (s : State) (c k : Nat) : State :=
  let s := (s.leaseStep c k).claimStep c k
  let s := s.modAuth c fun y => { y with yieldLeft := y.yieldLeft - 1 }
  match (s.cell c).treeFor k with
  | some (r, avg) => s.decideTree c r avg
  | none => s.decideHold c

/-- The current direction of R535; both inputs high count as an invalid decision. -/
def dirOf (pos neg : Bool) : Int := if pos && !neg then 1 else if neg && !pos then -1 else 0

/-- The command deadline, at epoch minus 200 ns (R256, R365); the staged set due at the epoch governs it (R429). -/
def State.cellDeadline (s : State) (c : Nat) (dir : Int) : State :=
  let x := s.cell c
  let k := x.time.pn + 1
  if !x.hasEpochs || x.time.decided == some k then s
  else
    let s := s.cellTo c (s.cellNext c - 800)
    let s := (s.modProt c fun y => { y with dir := dir }).modTime c fun y => { y with decided := some k }
    s.underSet c k fun s => s.decideAt c k
/-- COMMAND_DEADLINE (R256, R365, R535). -/
def execCommandDeadline (c : Nat) (pos neg : Bool) (s : State) : Host.Outcome State Fault Refusal :=
  .next (if pos && neg && (s.cell c).hasEpochs && (s.cell c).time.decided != some ((s.cell c).time.pn + 1) then
    (s.cellDeadline c 0).modProt c fun y => { y with badDir := y.badDir + 1 }
  else s.cellDeadline c (dirOf pos neg))

/-! ### The epoch -/

/-- Instants of a port moved by `f`. -/
def PortSt.shift (y : PortSt) (f : Nat → Nat) : PortSt :=
  let tx (t : OpenTx) : OpenTx := { t with sof := f t.sof, doneAt := f t.doneAt }
  { y with
    liveFrom := y.liveFrom.map f, askedAt := y.askedAt.map f, req := y.req.map fun r => (r.1, f r.2)
    tx := y.tx.map tx, bcast := y.bcast.map tx, bdone := y.bdone.map tx, kx := { y.kx with offerAt := f y.kx.offerAt } }
/-- Instants of a cell move with a step of its time, so that what is due stays due after the same time. -/
def State.shiftCell (s : State) (c : Nat) (d : Int) : State :=
  let f (n : Nat) : Nat := ((n : Int) + d).toNat
  if d = 0 then s
  else
    let s := s.modSw c fun y =>
      { y with
        valleyAt := f y.valleyAt
        isoAt := y.isoAt.map f
        edgeAt := y.edgeAt.map fun (p : Nat × Nat) => (p.1, f p.2)
        riseAt := y.riseAt.map fun (p : Nat × Nat) => (p.1, f p.2)
        pairs := y.pairs.map fun (p : Nat × PairSt) => (p.1, { p.2 with
          last := f p.2.last
          plan := p.2.plan.map fun e => { e with t := f e.t }
          wait := p.2.wait.map fun w => (w.1, f w.2) }) }
    let s := s.modCv c fun y => { y with doneAt := f y.doneAt, samples := y.samples.map fun (p : Nat × Nat × Nat) => (p.1, f p.2.1, p.2.2) }
    let s := s.modAux c fun y => { y with run := y.run.map fun (p : Nat × Bool × Nat) => (p.1, p.2.1, f p.2.2), dueAt := y.dueAt.map f, resAt := f y.resAt }
    let s := s.modProt c fun y => { y with firedAt := f y.firedAt, pgFellAt := f y.pgFellAt, enOut := y.enOut.map fun (p : Nat × Nat) => (p.1, f p.2) }
    let s := (s.modTime c fun y => { y with lastRx := y.lastRx.map f }).modFlt c fun y => { y with class0At := f y.class0At }
    s.modCell c fun x => { x with
      ports := x.ports.map fun (p : Nat × PortSt) => (p.1, p.2.shift f)
      links := x.links.map fun (p : Nat × LinkSt) => (p.1, { p.2 with
        heardAt := f p.2.heardAt, txEnd := f p.2.txEnd, reqAt := f p.2.reqAt, out := p.2.out.map fun o => { o with sentAt := f o.sentAt } })
      mats := x.mats.map fun (p : Nat × MatrixSt) => (p.1, { p.2 with
        enAt := f p.2.enAt, heard := f p.2.heard, shadow := p.2.shadow.map fun w => { w with endAt := f w.endAt } }) }

/-- The steps of an epoch, with what they move (R63, R74, R121). -/
def State.stepAll (s : State) (c : Nat) : State :=
  let a := (s.cell c).time.clock
  let s := s.cellSteps c
  s.shiftCell c (((s.cell c).time.clock : Int) - (a : Int))

/-- DS_DELAY and EQ that wait for this epoch, and the end of a freeze (R116, R120, R121). -/
def State.newDelays (s : State) (c : Nat) : State :=
  let n := (s.cell c).time.pn
  let s := [0, 1].foldl (fun s p =>
    match (s.port c p).newDelay with
    | some (ds, eq, some k) =>
      if k ≤ n then ((s.cwr c (pf p Port.DS_DELAY_DELAY) ds).cwr c (pf p Port.EQ_EQ) eq).modPort c p fun y => { y with newDelay := none } else s
    | _ => s) s
  if (match (s.cell c).time.thawPn with | some k => decide (k ≤ n) | none => false) then
    (s.cwr c Els.GEN_STAT_TIME_FROZEN 0).modTime c fun y => { y with thawPn := none }
  else s

/-- FALLBACK in the state and as a condition (R272). -/
def State.setFallback (s : State) (c : Nat) (v : Bool) : State :=
  (s.cwr c Els.GEN_STAT_FALLBACK (b2n v)).setCond (.cell c) { src := Src.FALLBACK } v

/-- A tree command comes into force (R256): a hold ends, ISOLATE runs the bypass sequence at its edge time (R254, R255). -/
def State.reloadTree (s : State) (c : Nat) (r : CmdRec) : State :=
  let x := s.cell c
  let s := s.modAuth c fun y => { y with holdN := 0, expired := false, expireDue := false }
  let s := (s.cwr c Els.GEN_STAT_HOLDING 0).setFallback c (r.cmd == 2 && x.sw.fbNext)
  let s := s.modSw c fun y =>
    { y with
      cmd := r, blocked := false, isoAt := if r.cmd == 7 then some (x.time.epochAt + 4 * r.edge.toNat) else none, hyst := r.cmd == 6 || (r.cmd == 2 && y.fbNext)
      duty := if r.cmd == 6 || (r.cmd == 2 && y.fbNext) then y.dutyNext else y.duty }
  if x.sw.badCmd then s.raise (.cell c) { src := Src.CMD_INVALID } else s

/-- An epoch without a tree command (R369): a held epoch, the first one raising HOLD_START, or the epoch at which the hold has expired. -/
def State.reloadHold (s : State) (c : Nat) : State :=
  let x := s.cell c
  if x.auth.expired then s
  else if x.auth.expireDue then
    let s := (s.allOff c).modSw c fun y => { y with cmd := ⟨0, false, 0, 0⟩, hyst := false, w := 0 }
    let s := s.modAuth c fun y => { y with holdN := 0, expired := true, expireDue := false }
    (s.cwr c Els.GEN_STAT_HOLDING 0).setFallback c false
  else
    let s := (s.modAuth c fun y => { y with holdN := y.holdN + 1 }).cwr c Els.GEN_STAT_HOLDING 1
    if x.auth.holdN = 0 then (s.raise (.cell c) { src := Src.HOLD_START }).cellLog c 3 0 0 false 0 else s

/-- The command reload (R256, R257): local protection in the same tick prevails (R26). -/
def State.reload (s : State) (c : Nat) : State :=
  let s := match (s.cell c).sw.next with
    | some r => s.reloadTree c r
    | none => s.reloadHold c
  let s := s.modSw c fun y => { y with next := none, badCmd := false, zeroRun := if y.cmd.cmd == 2 then y.zeroRun + 1 else 0 }
  if (s.cell c).rank1 then (s.allOff c).modSw c fun y => { y with cmd := ⟨0, false, 0, 0⟩, hyst := false, calNext := false }
  else match (s.cell c).sw.isoAt with
    | some t => if t ≤ (s.cell c).time.clock then s.isoEdge c t else s
    | none => s

/-- A calibration starts at an epoch in Run, Ride-through and Blocked (R321, R322); the result that has completed at that epoch carries CAL too. -/
def State.startCal (s : State) (c : Nat) : State :=
  let x := s.cell c
  if x.sw.calNext && x.cv.cal.isNone && (x.st == 3 || x.st == 4 || x.st == 2) then
    let s := (s.cwr c Els.GEN_STAT_CAL_ACTIVE 1).modCv c fun y => { y with cal := some { start := x.time.epochAt } }
    if x.cv.doneAt == x.time.epochAt && x.rd Els.CV_RES_TAG != 5 then
      ((s.cwr c Els.CV_RES_TAG 2).cwr c Els.CV_RES_VALID 0).modCv c fun y => { y with ring := match y.ring with | r :: t => (r.1, 2) :: t | [] => [] }
    else s
  else s
/-- A calibration whose last result has completed ends at the epoch (R322, R324). -/
def State.endCal (s : State) (c : Nat) : State :=
  match (s.cell c).cv.cal with
  | some k => if k.waits then (s.cwr c Els.GEN_STAT_CAL_ACTIVE 0).modCv c fun y => { y with cal := none } else s
  | none => s

/-- The rank of a tag in the table of R315, the highest first. -/
def tagRank (t : Nat) : Nat := if t = 5 then 6 else if t = 2 then 5 else if t = 1 then 4 else if t = 3 then 3 else if t = 4 then 2 else 0
/-- The tag that stands highest. -/
def worstTag (l : List Nat) : Nat := l.foldl (fun a t => if tagRank a < tagRank t then t else a) 0

/-- The sample of an epoch (R316 to R318, R321): the mean of the last NAVG results, or the one before while the filter is held. -/
def State.latchSample (s : State) (c : Nat) : State :=
  let x := s.cell c
  let n := max 1 (x.rd Els.CV_FILT_NAVG)
  let l := x.cv.ring.take n
  let held := x.on Els.CV_FILT_HOLD && x.maint
  let t0 := if s.active (.cell c) Src.CV_FAULT || decide (0 < x.cv.clean) then 5
    else if x.cv.cal.isSome then 2 else if held then 4 else if l.length < n then 1 else worstTag (l.map fun r => r.2)
  let code := if held || l.isEmpty then x.rd Els.CV_EPOCH_CODE else (l.foldl (fun a r => a + r.1) 0) / l.length
  let s := ((s.cwr c Els.CV_EPOCH_CODE code).cwr c Els.CV_EPOCH_VALID (b2n (t0 = 0))).cwr c Els.CV_EPOCH_TAG t0
  let s := if held then s else s.cwr c Els.CV_EPOCH_SEQ (x.rd Els.CV_RES_SEQ)
  s.modCv c fun y =>
    { y with samples := ((x.time.pn, x.time.epochAt, code + 2 ^ 18 * b2n (t0 = 0) + 2 ^ 19 * t0) :: y.samples.filter fun p => p.1 != x.time.pn).take 3 }

/-- PORT_A_LOSS and PORT_B_LOSS (R339, R522). -/
def State.portLoss (s : State) (c p : Nat) : State :=
  let s := s.modPort c p fun y => { y with missN := if y.heard then 0 else y.missN + 1, heard := false }
  let y := s.port c p
  s.setCond (.cell c) { src := Src.PORT_A_LOSS + p } (y.modFault || decide ((s.cell c).rd Els.FLT_CFG_PORT_N ≤ y.missN))

/-- The temperature bin of a die (R303), of its temperature in 0.0625 °C. -/
def tempBin (t : Int) : Nat := if t < 400 then 0 else if 2800 ≤ t then 7 else (t / 400).toNat
/-- The time a period adds to each die's temperature bin, and the records of 16 dies in rotation (R303). -/
def State.stressPeriod (s : State) (c : Nat) : State :=
  let all := (List.range 4).flatMap fun p => (s.diesOf c p).map fun d => (p, d)
  let s := all.foldl (fun s pd =>
    let b := tempBin (sext 16 (s.cval c (dieEnt pd.1 pd.2 + 4) 2))
    let add (z : Stress) : Stress := { z with bins := fmod 0 b (· + s.period) z.bins }
    s.modLink c pd.1 fun l => { l with stress := fmod {} pd.2 add l.stress }) s
  if all.length = 0 || (s.cell c).st == 5 then s
  else (List.range (min 16 all.length)).foldl (fun s i =>
    match all[(16 * (s.cell c).time.pn + i) % all.length]? with | some pd => s.writeStress c pd.1 pd.2 | none => s) s

/-- A scan of the auxiliary converter becomes due at every DIV-th epoch plus OFS (R329). -/
def State.auxEpoch (s : State) (c : Nat) : State :=
  let s := s.auxDue c (s.cell c).time.epochAt
  let x := s.cell c
  if x.rd Els.AUX_SCAN_TRIG != 1 then s
  else
    let s := s.modAux c fun y =>
      if x.rd Els.AUX_SCAN_DIV ≤ y.epochs + 1 then { y with epochs := 0, dueAt := some (x.time.epochAt + 4 * x.rd Els.AUX_SCAN_OFS) }
      else { y with epochs := y.epochs + 1 }
    s.auxDue c x.time.epochAt

/-- The epoch of a cell (R256, R316, R389). -/
def State.cellEpoch (s : State) (c : Nat) : State :=
  if !(s.cell c).hasEpochs then s
  else
    let s := s.cellDeadline c (s.cell c).prot.dir
    let e := s.cellNext c
    let s := s.cellTo c e
    let s := s.modTime c fun y => { y with pn := y.pn + 1, epochAt := e }
    let s := s.applyDue c (s.cell c).time.pn
    let s := ((s.stepAll c).newDelays c).reload c
    let s := match (s.cell c).sw.stateNext with | some n => s.enterState c n | none => s
    let s := s.modSw c fun y => { y with stateNext := none }
    let s := (((s.anchor c).endCal c).startCal c).latchSample c
    let s := ((s.portLoss c 0).portLoss c 1).countInactive c
    let s := (s.stressPeriod c).auxEpoch c
    s.modCell c fun x => { x with runNs := x.runNs + s.period }
/-- CELL_EPOCH (R256). -/
def execCellEpoch (c : Nat) (s : State) : Host.Outcome State Fault Refusal := .next (s.cellEpoch c)

/-! ### Staged sets (R429) -/

/-- CELL_SET_APPLY (R429): a set that its outcome has named applies at that epoch, ahead of every access of the tick (R507). -/
def State.cellSetApply (s : State) (c : Nat) : State :=
  let x := s.cell c
  if !x.hasEpochs then s
  else
    match x.staged with
    | some k =>
      if k.applyPn == some (x.time.pn + 1) then (((s.cellDeadline c x.prot.dir).cellTo c (s.cellNext c)).applyDue c (x.time.pn + 1))
      else s.applyDue c x.time.pn
    | none => s
def execCellSetApply (c : Nat) (s : State) : Host.Outcome State Fault Refusal := .next (s.cellSetApply c)

/-- CELL_SET_EXPIRY (R429): no outcome by epoch e + 16. -/
def State.cellSetExpiry (s : State) (c : Nat) : State :=
  s.modCell c fun x => { x with staged := x.staged.bind fun k =>
    if k.applyPn.isNone && decide (16 ≤ sext 32 (x.time.pn + 2 ^ 32 - k.epoch)) then none else some k }
def execCellSetExpiry (c : Nat) (s : State) : Host.Outcome State Fault Refusal := .next (s.cellSetExpiry c)

end Sys2Proof.Machine
end

