-- ==== Sys2Proof/Machine/CellTx.lean ====
section
/-! DEFINITION. What a cell launches: Glints, alert markers, reply fragments (R89, R106 to R111, R114, R120, R128, R295, R332, R348, R370, R408, R522). -/

namespace Sys2Proof.Machine

/-! ### The slot plan of a port (R110, R111, R120) -/

/-- The region and the tree that TREE_ID of a port names. -/
def CellSt.treeAt (x : CellSt) (p : Nat) : Nat × Nat :=
  let v := x.rd (pf p Port.PORT_ID_TREE_ID)
  (v / 2 ^ 13, v / 256 % 32)
/-- The start of a cell's slot on a port, in quarters from the epoch of period `k`; none where the slot is not in the plan, or not in its group (R120). -/
def State.cellSlotAt (s : State) (c p k : Nat) : Option Nat :=
  let x := s.cell c
  let (r, t) := x.treeAt p
  let j := x.rd (pf p Port.PORT_ID_SLOT)
  let start := s.rd (tf r t Tree.TREE_SLOTS_START)
  if !x.on (pf p Port.PORT_ID_VALID) || decide (s.slotsN r t ≤ j) then none
  else if (x.port p).rerange then
    let g := s.rrGroups r t
    if k % g == j % g then some (slotStart 281 ((j - k % g) / g) start) else none
  else some (slotStart 198 j start)

/-- The instant at which the preamble of the Glint for period `k` is launched on a port (R89, R108): slot start minus EQ. -/
def State.cellLaunchAt (s : State) (c p k : Nat) : Option Nat :=
  let x := s.cell c
  match s.cellSlotAt c p k with
  | some o => some (((x.time.epochAt + (k - x.time.pn) * 4 * s.period + o : Nat) : Int) - (x.rd (pf p Port.EQ_EQ) : Int)).toNat
  | none => none

/-- Whether a port sends at an instant: slot, key, no park, transmitters on, a period after the first period Beacon (R370, R389, R408, R453). -/
def CellSt.sends (x : CellSt) (p at_ : Nat) : Bool :=
  let y := x.port p
  x.reports && x.st != 0 && x.on (pf p Port.PORT_ID_VALID) && y.keyed && !y.parked
    && (match y.liveFrom with | some t => decide (t ≤ at_) | none => false)

/-- The period whose slot is the next to launch on a port: the present one unless it has been launched, or the coming one where its launch lies in this period. -/
def State.slotDue (s : State) (c p : Nat) : Option (Nat × Nat) :=
  let x := s.cell c
  let n := x.time.pn
  let done (k : Nat) : Bool := match (x.port p).slotPn with | some m => decide (k ≤ m) | none => false
  let one (k : Nat) : Option (Nat × Nat) := (s.cellLaunchAt c p k).map fun l => (k, l)
  if done n || (one n).isNone then
    match one (n + 1) with
    | some (k, l) => if !done (n + 1) && decide (l < x.time.epochAt + 4 * s.period) then some (k, l) else none
    | none => none
  else one n

/-! ### Reply fragments (R116, R128) -/

/-- The fragment a port sends next, byte 0 of its Glint leaving at `at_`; the reply goes on, or its transaction ends. -/
def PortSt.fragment (y : PortSt) (at_ : Nat) : Frag × PortSt :=
  match y.askedAt with
  | some t => ({ typ := 2, data := BitVec.ofNat 24 (at_ - t) }, { y with askedAt := none, tx := none })
  | none =>
    match y.reply with
    | none => ({}, y)
    | some r =>
      let n := BitVec.ofNat 6 r.num
      match r.err with
      | some e => ({ typ := 3, num := n, data := BitVec.ofNat 24 e }, { y with reply := none, tx := none })
      | none =>
        if r.bytes.length ≤ 3 then
          ({ typ := 2, num := n, data := BitVec.ofNat 24 (leVal r.bytes) }, { y with reply := none, tx := none })
        else
          ({ typ := 1, num := n, data := BitVec.ofNat 24 (leVal (r.bytes.take 3)) },
            { y with reply := some { r with bytes := r.bytes.drop 3, num := r.num + 1 } })

/-! ### Launches -/

/-- The Glint of one port, where the port sends. -/
def State.launchPort (s : State) (c p : Nat) (late : Bool) : State :=
  match s.slotDue c p with
  | none => s
  | some (k, l) =>
    let x := s.cell c
    let slot := l + x.rd (pf p Port.EQ_EQ)
    if !x.sends p slot || x.st == 5 then s
    else
      let r := (x.port p).fragment (l + 64)
      let g := s.reportOf c p 1 l late r.1 (upMac (x.port p).key k 1 ((x.port p).idx.getD 0))
      (s.cellTo c l).modPort c p fun _ => { r.2 with slotPn := some k, sent := some (l + 64, .report g), sentN := r.2.sentN + 1 }

/-- GLINT_LAUNCH (R89, R108): the report goes out on both ports; `late`: it was not complete 100 ns before its instant. -/
def State.glintLaunch (s : State) (c : Nat) (late : Bool) : State :=
  let n (s : State) : Nat := (s.port c 0).sentN + (s.port c 1).sentN
  let before := n s
  let s := (s.launchPort c 0 late).launchPort c 1 late
  if n s = before then s else s.used.modFlt c fun f => { f with fresh := [], isNew := false, trimChg := 0 }
def execGlintLaunch (c : Nat) (late : Bool) (s : State) : Host.Outcome State Fault Refusal := .next (s.glintLaunch c late)

/-- The start of an alert window in cell time: window `m` of this period or of the next one, or in Glimmer window `m` after the last Glimmer Beacon (R110, R407). -/
def State.windowAt (s : State) (c m : Nat) (next : Bool) : Option Nat :=
  let x := s.cell c
  if x.st == 5 then (if m < 8 then some (x.glim.gridAt + 80000 + 5000 * m) else none)
  else if 1250 * m + 60 ≤ s.period then some (x.time.epochAt + (if next then 4 * s.period else 0) + 5000 * m) else none

/-- The marker of one port, at window start + 18 ns − EQ (R114). -/
def State.markPort (s : State) (c p w : Nat) : State :=
  let x := s.cell c
  let t := w + 72 - x.rd (pf p Port.EQ_EQ)
  let due := if x.st == 5 then x.glim.woken && decide (0 < x.glim.windows) else x.flt.class0 && decide (x.flt.class0At + 160 ≤ t)
  if !due || !x.sends p w then s
  else (s.cellTo c t).modPort c p fun y => { y with sent := some (t, .marker), sentN := y.sentN + 1 }

/-- ALERT_MARKER_LAUNCH (R114, R408). -/
def State.markerLaunch (s : State) (c m : Nat) (next : Bool) : State :=
  match s.windowAt c m next with
  | none => s
  | some w =>
    let s := (s.markPort c 0 w).markPort c 1 w
    if (s.cell c).st == 5 then s.modGlim c fun g => { g with windows := g.windows - 1 } else s
def execAlertMarkerLaunch (c m : Nat) (next : Bool) (s : State) : Host.Outcome State Fault Refusal := .next (s.markerLaunch c m next)

/-! ### Silence (R370, R408, R522) -/

/-- The resolution delay of an Elsum port, 40 ns (R94), in quarter nanoseconds. -/
def cellDelay : Nat := 160
/-- ORPHAN_TX (R370): AUTH_CFG.ORPHAN_TX without an accepted frame on either port. -/
def State.orphanTx (s : State) (c : Nat) : State :=
  let x := s.cell c
  match x.time.lastRx with
  | none => s
  | some t =>
    let due := t + 4000000 * x.rd Els.AUTH_CFG_ORPHAN_TX + cellDelay
    let s := s.cellTo c due
    if (s.cell c).time.clock < due then s else s.modCell c fun x => { x with txOff := true }
def execOrphanTx (c : Nat) (s : State) : Host.Outcome State Fault Refusal := .next (s.orphanTx c)

/-- GLIMMER_OWNER_LOSS (R408): no Glimmer Beacon from the owner for 3 ms. -/
def State.glimOwnerLoss (s : State) (c : Nat) : State :=
  let x := s.cell c
  if x.st != 5 || decide (2 ≤ x.owner) then s
  else
    let due := x.glim.ownerAt + 12000000 + cellDelay
    let s := s.cellTo c due
    if (s.cell c).time.clock < due then s else s.setOwner c 2 (x.rd Els.AUTH_STAT_EPOCH)
def execGlimmerOwnerLoss (c : Nat) (s : State) : Host.Outcome State Fault Refusal := .next (s.glimOwnerLoss c)

/-- PORT_MODULE_FAULT (R522): the transmit-fault flag of port `p`'s module as read; a flag that is set is the loss of the port. -/
def State.moduleFault (s : State) (c p : Nat) (fault : Bool) : State :=
  if !(s.cell c).up || decide (2 ≤ p) then s
  else
    let s := s.modPort c p fun y => { y with modFault := fault }
    s.setCond (.cell c) { src := Src.PORT_A_LOSS + p } (fault || decide ((s.cell c).rd Els.FLT_CFG_PORT_N ≤ (s.port c p).missN))
def execPortModuleFault (c p : Nat) (fault : Bool) (s : State) : Host.Outcome State Fault Refusal := .next (s.moduleFault c p fault)

end Sys2Proof.Machine
end

