-- ==== Sys2Proof/Machine/CellConv.lean ====
section
/-! DEFINITION. The two converters of a cell (R311 to R332), and the samples of a cell in Glimmer (R408). -/

namespace Sys2Proof.Machine

/-! ### The primary converter (R311 to R319) -/

/-- A raw result as corrected: floor((raw − CV_CAL_OFS / 16) × CV_CAL_GAIN) (R314). -/
def correct (raw : Nat) (ofs : Int) (gain : Nat) : Int := (16 * (raw : Int) - ofs) * (gain : Int) / (16 * 4194304)
/-- The top of the range (R311). -/
def cvTop (gain : Bool) : Nat := if gain then 131071 else 262143
/-- A raw result at the gain in use: halved at GAIN = 1, truncating (R311). -/
def CellSt.raw (x : CellSt) (raw : Nat) : Nat := if x.cv.gain then raw % 2 ^ 18 / 2 else raw % 2 ^ 18
/-- The code of a result and whether it is out of range (R314). -/
def CellSt.codeOf (x : CellSt) (raw : Nat) (ovl : Bool) : Nat × Bool :=
  let v := correct (x.raw raw) (sext 18 (x.rd Els.CV_CAL_OFS_OFS)) (x.rd Els.CV_CAL_GAIN_GAIN)
  if ovl || decide ((cvTop x.cv.gain : Int) < v) then (cvTop x.cv.gain, true) else (v.toNat, false)

/-- The interval between results, in quarters (R311). -/
def CellSt.cvStep (x : CellSt) : Nat := 200 * max 1 x.cv.osr
/-- The grid point of the next result (R312). -/
def CellSt.cvNext (x : CellSt) : Nat :=
  if x.cv.doneAt < x.time.epochAt then x.time.epochAt
  else x.time.epochAt + ((x.cv.doneAt - x.time.epochAt) / x.cvStep + 1) * x.cvStep

/-- Whether a calibration tags the next result (R321, R322): the fourth result of phase 5 is the first valid one. -/
def CalSt.tags (k : CalSt) : Bool := !(k.phase == 5 && decide (3 ≤ k.n))
/-- TAG of a result (R315, R318, R319). -/
def CellSt.cvTag (x : CellSt) (ovl bad : Bool) : Nat :=
  if bad || decide (0 < x.cv.clean) then 5
  else if (match x.cv.cal with | some k => k.tags | none => false) then 2
  else if 0 < x.cv.settle then 1
  else if ovl then 3 else 0

/-- CV_RES takes a result (R314). -/
def State.cvWrite (s : State) (c code tag : Nat) : State :=
  let q := s.crd c Els.CV_RES_SEQ
  (((s.cwr c Els.CV_RES_CODE code).cwr c Els.CV_RES_VALID (b2n (tag = 0))).cwr c Els.CV_RES_TAG tag).cwr c Els.CV_RES_SEQ (q + 1)

/-- RANGE results are counted, the first of a run raises CV_RANGE (R318). -/
def State.cvRange (s : State) (c tag : Nat) : State :=
  let was := (s.cell c).cv.ranging
  let s := s.modCv c fun y => { y with ranging := tag == 3 }
  if tag = 3 then
    let s := s.cinc c Els.CV_STAT_RANGE_CNT
    if was then s else s.raise (.cell c) { src := Src.CV_RANGE }
  else s

/-- CV_FAULT becomes active at a result that shows it, and clears after 3 results free of it (R318). -/
def State.cvHealth (s : State) (c : Nat) (bad : Bool) : State :=
  if bad then
    (s.setCond (.cell c) { src := Src.CV_FAULT } true).modCv c fun y => { y with clean := 3 }
  else
    let n := (s.cell c).cv.clean
    let s := s.modCv c fun y => { y with clean := n - 1 }
    if n = 1 then s.setCond (.cell c) { src := Src.CV_FAULT } false else s

/-- The filter reads the result, or while it is held an unread result is overwritten (R316, R317). -/
def State.cvFilter (s : State) (c code tag : Nat) : State :=
  let x := s.cell c
  if x.on Els.CV_FILT_HOLD && x.maint then
    let s := if x.cv.unread then s.cwr c Els.CV_STAT_OVR 1 else s
    s.modCv c fun y => { y with unread := true }
  else s.modCv c fun y => { y with unread := false, ring := ((code, tag) :: y.ring).take 8 }

/-! ### Calibration (R322, R323) -/

/-- The correction of R323 from the sums of `n` results: z in 1/16 codes and the gain in Q2.22; none where it is rejected. -/
def calResult (z0 f0 n olim glim : Nat) : Option (Nat × Nat) :=
  let z := 16 * z0 / n
  let f : Int := 16 * (f0 : Int) - (z : Int) * (n : Int)
  if f ≤ 0 then none
  else
    let gain := 196608 * 4194304 * 16 * n / f.toNat
    if 16 * olim < z || decide (glim * 1024 < ((gain : Int) - 4194304).natAbs) then none else some (z, gain)

/-- The end of phase 4: the new correction, also in MRAM, or a rejection (R323). -/
def State.calFinish (s : State) (c : Nat) (k : CalSt) : State :=
  let x := s.cell c
  match calResult k.z k.f (2 ^ x.rd Els.CV_CAL_NAVG) (x.rd Els.CV_CAL_OLIM) (x.rd Els.CV_CAL_GLIM) with
  | some (z, g) =>
    let s := ((s.cwr c Els.CV_CAL_OFS_OFS z).cwr c Els.CV_CAL_GAIN_GAIN g).cinc c Els.CV_STAT_CAL_DONE
    s.cellWrite c (cMram + 0x1000) (leBytes 4 z ++ leBytes 4 g)
  | none => (s.cinc c Els.CV_STAT_CAL_FAIL).raise (.cell c) { src := Src.CV_CAL_FAIL }

/-- One result of a calibration: phases of 3 settling results and of N summed ones (R322). The result at the boundary of an input switch belongs to the old input. -/
def State.calStep (s : State) (c raw at_ : Nat) : State :=
  match (s.cell c).cv.cal with
  | none => s
  | some k =>
    let n := 2 ^ (s.cell c).rd Els.CV_CAL_NAVG
    let put (k : CalSt) : State := s.modCv c fun y => { y with cal := some k }
    if at_ ≤ k.start then s
    else if k.phase = 1 || k.phase = 3 then put (if k.n + 1 = 3 then { k with phase := k.phase + 1, n := 0 } else { k with n := k.n + 1 })
    else if k.phase = 2 then
      put { k with z := k.z + raw, n := if k.n + 1 = n then 0 else k.n + 1, phase := if k.n + 1 = n then 3 else 2 }
    else if k.phase = 4 then
      let k2 : CalSt := { k with f := k.f + raw, n := if k.n + 1 = n then 0 else k.n + 1, phase := if k.n + 1 = n then 5 else 4 }
      if k.n + 1 = n then (put k2).calFinish c k2 else put k2
    else put { k with n := k.n + 1, waits := k.waits || decide (k.n + 1 = if k.phase = 5 then 4 else 5) }

/-- A result that completes at an epoch the cell has come to enters the sample of that epoch, and a calibration whose first valid result it is ends there (R316, R322). -/
def State.cvAtEpoch (s : State) (c g : Nat) : State :=
  if g == (s.cell c).time.epochAt then (s.endCal c).latchSample c else s

/-- CV_RESULT (R312, R314 to R319): the next result completes, at most 50 ns (`late` quarters below 200) after its grid point. -/
def State.cvResult (s : State) (c late raw : Nat) (ovl bad : Bool) : State :=
  let x := s.cell c
  if !x.runs || x.st == 5 then s
  else
    let g := x.cvNext
    let s := s.cellTo c (g + late % 200)
    let r := x.codeOf raw ovl
    let tag := x.cvTag r.2 bad
    let s := ((s.cvWrite c r.1 tag).cvRange c tag).cvFilter c r.1 tag
    let s := ((s.cvHealth c bad).calStep c (x.raw raw) g).cvAtEpoch c g
    s.modCv c fun y =>
      { y with
        doneAt := g
        settle := if y.change then 3 else y.settle - 1
        osr := if y.change then x.rd Els.CV_CFG_OSR else y.osr
        gain := if y.change then x.on Els.CV_CFG_GAIN else y.gain
        change := false }
def execCvResult (c late raw : Nat) (ovl bad : Bool) (s : State) : Host.Outcome State Fault Refusal := .next (s.cvResult c late raw ovl bad)

/-- CV_FAULT_TIMEOUT (R318): no result within 2 intervals, or the modulator clock or the reference has left its limits (`limits`). -/
def State.cvTimeout (s : State) (c : Nat) (limits : Bool) : State :=
  let x := s.cell c
  if !x.runs || x.st == 5 then s
  else
    let due := x.cv.doneAt + 2 * x.cvStep
    let s := if limits then s else s.cellTo c due
    if !limits && decide ((s.cell c).time.clock < due) then s
    else ((s.cvHealth c true).cwr c Els.CV_RES_TAG 5).cwr c Els.CV_RES_VALID 0
def execCvFaultTimeout (c : Nat) (limits : Bool) (s : State) : Host.Outcome State Fault Refusal := .next (s.cvTimeout c limits)

/-! ### Glimmer (R408) -/

/-- One of the 8 results of a sample in Glimmer. -/
def State.glimResult (s : State) (c : Nat) (p : Nat × Bool) : State :=
  let x := s.cell c
  let r := x.codeOf p.1 p.2
  let tag := if r.2 then 3 else 0
  let bad := tag != 0 || decide (r.1 < x.rd Els.GLIM_CFG_LO) || decide (x.rd Els.GLIM_CFG_HI < r.1)
  let s := s.cvWrite c r.1 tag
  if bad && x.glim.first.isNone then s.modGlim c fun g => { g with first := some (r.1, tag) } else s

/-- GLIMMER_CELL_SAMPLE (R408): every GLIM_CFG.INT, 8 results after 3 settling ones. One outside the window, or invalid, wakes the cell. -/
def State.glimSample (s : State) (c : Nat) (l : List (Nat × Bool)) : State :=
  let x := s.cell c
  if x.st != 5 || !x.runs then s
  else
    let s := s.cellTo c (x.glim.nextAt + 11 * x.cvStep)
    let s := s.modGlim c fun g => { g with first := none, nextAt := g.nextAt + 4000000 * x.rd Els.GLIM_CFG_INT }
    let s := (l.take 8).foldl (fun s p => s.glimResult c p) s
    match (s.cell c).glim.first with
    | some (code, tag) =>
      ((s.cwr c Els.GLIM_STAT_CODE code).cwr c Els.GLIM_STAT_TAG tag).modGlim c fun g => { g with woken := true }
    | none => s
def execGlimmerCellSample (c : Nat) (l : List (Nat × Bool)) (s : State) : Host.Outcome State Fault Refusal := .next (s.glimSample c l)

/-! ### The auxiliary converter (R326 to R331) -/

/-- The sequencer reads AUX_RES into the auxiliary table (R328, R331). -/
def State.auxCopy (s : State) (c at_ : Nat) : State :=
  let x := s.cell c
  let a := 0xE000 + 8 * x.rd Els.AUX_RES_CHAN
  let n := s.cval c (a + 2) 2
  let w := x.rd Els.AUX_RES_CODE + 2 ^ 12 * x.rd Els.AUX_RES_VALID + 2 ^ 13 * x.rd Els.AUX_RES_OVR + 2 ^ 16 * ((n + 1) % 65536)
  (s.cellWrite c a (leBytes 4 w ++ leBytes 4 (at_ / 4))).modAux c fun y => { y with unread := false }
/-- Whether the sequencer reads results: it runs, and AUX_CFG.DIRECT leaves them to it (R328). -/
def CellSt.seqReads (x : CellSt) : Bool := !x.halted && !x.on Els.AUX_CFG_DIRECT

/-- AUX_RES takes a result (R327, R328). -/
def State.auxWrite (s : State) (c ch code : Nat) (urg ok : Bool) : State :=
  let x := s.cell c
  let ovr := x.aux.unread
  let s := ((((s.cwr c Els.AUX_RES_CODE code).cwr c Els.AUX_RES_VALID (b2n ok)).cwr c Els.AUX_RES_URG (b2n urg)).cwr c Els.AUX_RES_CHAN ch)
  let s := (s.cwr c Els.AUX_RES_OVR (b2n ovr)).cwr c Els.AUX_RES_SEQ (x.rd Els.AUX_RES_SEQ + 1)
  let s := if ovr then s.cwr c Els.AUX_STAT_OVR 1 else s
  s.modAux c fun y => { y with unread := true }

/-- TJ_HIGH and TJ_CRIT follow channel 30 (R339). -/
def State.tjCheck (s : State) (c ch code : Nat) (ok : Bool) : State :=
  if ch != 30 || !ok then s
  else
    let t := (Config.tjOf code).toInt
    let x := s.cell c
    let s := s.setCond (.cell c) { src := Src.CELL_TJ_HIGH } (decide (16 * (x.rd Els.PROT_TJ_WARN : Int) < t))
    s.setCond (.cell c) { src := Src.CELL_TJ_CRIT } (decide (16 * (x.rd Els.PROT_TJ_CRIT : Int) < t))

/-- AUX_CONVERSION_COMPLETE (R326 to R331): 1,000 ns after its start. -/
def State.auxDone (s : State) (c code : Nat) (ok : Bool) : State :=
  if !(s.cell c).up then s
  else
    let s := match (s.cell c).aux.run with
      | some (_, _, t) => s.auxDue c (t + 4000)
      | none => match (s.cell c).aux.dueAt with | some d => s.auxDue c d | none => s
    match (s.cell c).aux.run with
    | none => s
    | some (ch, urg, t) =>
      let s := s.cellTo c (t + 4000)
      let s := (s.modAux c fun y => { y with resAt := t }).auxWrite c ch (code % 4096) urg ok
      let s := if (s.cell c).seqReads then s.auxCopy c t else s
      let s := s.tjCheck c ch (code % 4096) ok
      let s := s.modAux c fun y => ({ y with run := none, urgRun := none }).start (s.cell c) (t + 4000)
      if (s.cell c).aux.after then (s.modAux c fun y => { y with after := false }).auxTrigger c (t + 4000) else s
def execAuxConversionComplete (c code : Nat) (ok : Bool) (s : State) : Host.Outcome State Fault Refusal := .next (s.auxDone c code ok)

/-- A write of AUX_TRIG.GO (R329). -/
def State.auxGo (s : State) (c : Nat) : State :=
  if (s.cell c).rd Els.AUX_SCAN_TRIG == 0 then s.auxTrigger c (s.cell c).time.clock else s
def execAuxTrigGo (c : Nat) (s : State) : Host.Outcome State Fault Refusal := .next (s.auxGo c)

/-- AUX_SCAN_TIMER (R329): every AUX_SCAN.INT of cell time with TRIG = 2. -/
def State.auxTimer (s : State) (c : Nat) : State :=
  let x := s.cell c
  if x.rd Els.AUX_SCAN_TRIG != 2 || !x.runs then s
  else
    let due := max x.time.clock (x.aux.timerAt + 4000 * x.rd Els.AUX_SCAN_INT)
    ((s.cellTo c due).modAux c fun y => { y with timerAt := due }).auxTrigger c due
def execAuxScanTimer (c : Nat) (s : State) : Host.Outcome State Fault Refusal := .next (s.auxTimer c)

/-- AUX_URGENT_REQUEST (R330), of event `e`: 0 AUX_PG, 1 the comparator, 2 GATE_FB, where AUX_URG.SRC enables it. -/
def State.auxUrgent (s : State) (c e : Nat) : State :=
  let x := s.cell c
  if !x.up || decide (3 ≤ e) || !(x.rd Els.AUX_URG_SRC).testBit e then s else s.auxRequest c e
def execAuxUrgentRequest (c e : Nat) (s : State) : Host.Outcome State Fault Refusal := .next (s.auxUrgent c e)

/-- AUX_RES_READ (R328): a read by the sequencer, which copies the result into the table, or by management with DIRECT = 1. -/
def State.auxRead (s : State) (c : Nat) : State :=
  let x := s.cell c
  if !x.aux.unread then s
  else if x.seqReads then s.auxCopy c x.aux.resAt
  else if x.on Els.AUX_CFG_DIRECT then s.modAux c fun y => { y with unread := false }
  else s
def execAuxResRead (c : Nat) (s : State) : Host.Outcome State Fault Refusal := .next (s.auxRead c)

end Sys2Proof.Machine
end

