-- ==== Sys2Proof/Machine/CellBoot.lean ====
section
/-! DEFINITION. Cell reset and its exit, tamper, EXTEST and the MRAM refresh (R288, R323, R444, R454, R465, R471, R474, R479, R525). -/

namespace Sys2Proof.Machine

/-- What a register of a cell keeps through a reset: the pins, the identity, the anchor, the debug unlock (until power is removed,
R472) and the log head, which its dash leaves open (log entry 35, DEDUCED). -/
def keptCellRegs : List Fld :=
  [Els.PROT_STAT_AUX_PG, Els.PROT_STAT_BYP_SW_CONF, Els.PROT_STAT_OVERVOLTAGE, Els.SEC_SERIAL_SERIAL, Els.SEC_STAT_ANCHOR_SET,
    Els.SEC_STAT_UNLOCKED, Els.MRAM_LOG_HEAD]
/-- A cell in reset (R444, R525): what is left is its MRAM, the gate matrices, the pins, the anchor and the identity key. -/
def CellSt.inReset (x : CellSt) (resetN : Bool) : CellSt :=
  { regs := keptCellRegs.foldl (fun m f => Regs.wr m f (x.rd f)) []
    time := { clock := x.time.clock }
    prot := { resetN := resetN, resLowN := true, pulseOn := false, swCmd := false }
    mats := x.mats
    sec := { anchor := x.sec.anchor, idk := x.sec.idk, extest := x.sec.extest }
    runNs := x.runNs }
/-- The bytes of a cell's memory with those of `n` addresses from `a` on back at 0: the die and auxiliary tables are no MRAM (R509). -/
def dropMem (m : Memory) (a n : Nat) : Memory := m.filter fun p => !(decide (a ≤ p.1) && decide (p.1 < a + n))
/-- Every volatile byte of a cell is lost: the memory below the MRAM. -/
def State.loseCellRam (s : State) (c : Nat) : State := { s with cellMem := dropMem s.cellMem (cellKey c 0) cMram }

/-- A cell reset (R525): every position off, every GMLn_EN low, BYP_SW_CMD released, and everything volatile at its reset value. -/
def State.cellReset (s : State) (c : Nat) (resetN : Bool) : State :=
  let s := ((s.allOff c).allEnLow c).loseCellRam c
  let s := s.modCell c fun x => x.inReset resetN
  { s with colls := fdel (Coll.cell c).key s.colls }

/-- ELSUM_RESET_N (R525): RESET_N goes low. -/
def execElsumResetN (c : Nat) (s : State) : Host.Outcome State Fault Refusal := .next (s.cellReset c false)

/-- CV_CAL_OFS and CV_CAL_GAIN come from MRAM, or stay at their factory values where MRAM holds none (R323, R444). -/
def State.restoreCal (s : State) (c : Nat) : State :=
  let g := s.cval c (cMram + 0x1004) 4
  if g = 0 then s else (s.cwr c Els.CV_CAL_OFS_OFS (s.cval c (cMram + 0x1000) 4)).cwr c Els.CV_CAL_GAIN_GAIN g

/-- CELL_RESET_EXIT (R444, R525): AUX_PG and RESET_N are both high. `patch`: 1 where a staged patch verifies, 2 where it does not (R465). The
links come up by the rows of R288. A cell that finds BYP_SW_CONF high is bypassed; a comparator still above its threshold trips (R351). -/
def State.cellExit (s : State) (c patch : Nat) : State :=
  if (s.cell c).up && decide ((s.cell c).prot.loss < 3) then s
  else
    let s := if (s.cell c).up then s.cellReset c true else s
    let s := s.modCell c fun x => { x with up := true, prot := { x.prot with resetN := true, pulseOn := false, swCmd := false }, sec := { x.sec with extest := false } }
    let s := ((s.cwr c Els.PROT_STAT_AUX_PG 1).cwr c Els.SEC_STAT_PATCH_ERR (b2n (patch == 2))).restoreCal c
    let s :=
      if (s.cell c).on Els.PROT_STAT_BYP_SW_CONF then
        ((s.modProt c fun y => { y with byp := true }).modSw c fun y => { y with dead := true }).cwr c Els.GEN_STAT_BYPASSED 1
      else s
    if (s.cell c).on Els.PROT_STAT_OVERVOLTAGE then s.ovTrip c 0 else s
def execCellResetExit (c patch : Nat) (s : State) : Host.Outcome State Fault Refusal := .next (s.cellExit c patch)

/-- ELSUM_TAMPER (R474, R530): the key store is zeroised and the cell resets, unless the limits are disarmed: before reset exit, or once RES_LOW_N
has fallen. The identity key comes back from MRAM at reset exit (R436, R461). -/
def execElsumTamper (c : Nat) (s : State) : Host.Outcome State Fault Refusal :=
  .next (if (s.cell c).up && (s.cell c).prot.resLowN then s.cellReset c true else s)

/-- EXTEST, EXTEST_PULSE and EXTEST_TRAIN (R471), selected (`sel`) or left for another instruction, on an Elsum or, with none, on the unit. A locked part
accepts them only in reset; any other instruction selects BYPASS. On an Elsum the boundary cells hold the gate-command, GMLn_EN and bypass outputs off. -/
def State.extest (s : State) (part : Option Nat) (sel : Bool) : State :=
  match part with
  | none =>
    if sel && s.mode.resetN && !s.on Reg.SEC_STAT_UNLOCKED then { s with sec := { s.sec with extest := false } }
    else { s with sec := { s.sec with extest := sel } }
  | some c =>
    let x := s.cell c
    if sel && (!x.prot.resetN || x.on Els.SEC_STAT_UNLOCKED) then
      let s := s.modCell c fun x => { x with sec := { x.sec with extest := true }, prot := { x.prot with pulseOn := false, swCmd := false } }
      (s.allOff c).allEnLow c
    else (s.modCell c fun x => { x with sec := { x.sec with extest := false } }).refreshEn c
def execExtest (part : Option Nat) (sel : Bool) (s : State) : Host.Outcome State Fault Refusal := .next (s.extest part sel)

/-- MRAM_REFRESH (R479), of an Elsum or, with none, of the unit: every 30 days of powered operation a part rewrites its security block, its calibration
block and its stored image. The words keep their values; a new count of powered time begins. -/
def State.mramRefresh (s : State) (part : Option Nat) : State :=
  match part with
  | none => s
  | some c => (s.cellWrite c (cMram + 0x1000) (s.cellRead c (cMram + 0x1000) 0x1000)).modCell c fun x => { x with runNs := 0 }
def execMramRefresh (part : Option Nat) (s : State) : Host.Outcome State Fault Refusal := .next (s.mramRefresh part)

end Sys2Proof.Machine
end

