-- ==== Sys2Proof/Machine/CellMgmt.lean ====
section
/-! DEFINITION. What management transactions and JTAG do to a cell's registers, memory and staged set (R291, R367, R484, R505 to R512). -/

namespace Sys2Proof.Machine

/-! ### Register words (R484, R505 to R508) -/

/-- The register of more than one word that holds the word at `a`: its lowest address and its words. -/
def elsMulti (a : Nat) : Option (Nat × Nat) := Els.multi.find? fun b => decide (b.1 ≤ a) && decide (a < b.1 + 4 * b.2)
/-- The word at `a` as it stands. -/
def CellSt.word (x : CellSt) (a : Nat) : Nat := x.regs.word (elsFields a) a
/-- The word at `a` at reset; that of SEC_SERIAL is what MRAM gives it. -/
def CellSt.resetWord (x : CellSt) (a : Nat) : Nat :=
  if Els.SEC_SERIAL_SERIAL.inWord a then x.word a else Regs.word [] (elsFields a) a

/-- A read of a register word (R21, R484): the lowest word of a longer register captures it, its other words return what was captured; a read of
CELL_TIME_NS captures cell time, one of AUX_RES with DIRECT = 1 marks the result read (R328). -/
def State.cellReadReg (s : State) (c a : Nat) : State × Nat :=
  let s := if a = 0x708 then s.cwr c Els.CELL_TIME_NS_NS (s.cell c).ns else s
  let s := if a = 0x42C && (s.cell c).on Els.AUX_CFG_DIRECT then s.auxRead c else s
  let x := s.cell c
  match elsMulti a with
  | some (b, n) =>
    if a = b then
      (s.modCell c fun x => { x with latch := (List.range n).foldl (fun m i => fset (b + 4 * i) (x.word (b + 4 * i)) m) x.latch }, x.word a)
    else (s, fget (x.resetWord a) x.latch a)
  | none => (s, x.word a)

/-- The value a read of a word would return, without one being made: what a write leaves to be read (R508, R512). -/
def State.cellShows (s : State) (c a : Nat) : Nat := (s.cellReadReg c a).2

/-- A direct masked write of one word into the fields (R19). -/
def State.cellWord (s : State) (c a m w : Nat) : State := 
  s.modCell c fun x => { x with regs := x.regs.write (elsFields a) a m w x.hwSet (s.ctick c) }

/-- What a write starts (R275, R276, R329, R344, R350); `len` is how long a halt has lasted. -/
def State.cellActs (s : State) (c a m w len : Nat) : State :=
  let v := Nat.land m w
  if a = 0x800 then
    let s := if v.testBit 0 then s.dbgHalt c else s
    if v.testBit 1 then s.dbgResume c len else s
  else if a = 0x43C then (if v.testBit 0 then s.auxGo c else s)
  else if a = 0x638 then (if v.testBit 31 then s.clearFirst 0 c else s)
  else if a = 0x64C then (if v.testBit 0 then s.alertAck c else s)
  else s

/-- A write of a register word under a mask (R21, R484): words of a longer register below its highest are held until that is written; a write of another
register discards what is held. -/
def State.cellWriteReg (s : State) (c a m w len : Nat) : State :=
  match elsMulti a with
  | some (b, n) =>
    let mine := (s.cell c).held.filter fun p => decide (b ≤ p.1) && decide (p.1 < b + 4 * n)
    if a < b + 4 * (n - 1) then s.modCell c fun x => { x with held := fset a (m * 2 ^ 32 + w) mine }
    else
      let s := mine.foldl (fun s p => s.cellWord c p.1 (p.2 / 2 ^ 32) (p.2 % 2 ^ 32)) s
      (s.cellWord c a m w).modCell c fun x => { x with held := [] }
  | none =>
    let was := (s.cell c).regs
    let s := ((s.cellWord c a m w).modCell c fun x => { x with held := [] }).cellActs c a m w len
    if a = 0x210 then s.tdutyWritten c 0 (was.rd Els.PWM_TDUTY12_DUTY)
    else if a = 0x214 then s.tdutyWritten c 1 (was.rd Els.PWM_TDUTY34_DUTY) else s

/-! ### Register access (R508) -/

/-- The operations of a payload, each of 12 bytes; the byte offset of a reserved OP or of a short one otherwise. -/
def opsOf : Nat → Nat → List Byte → Except Nat (List RegOp)
  | 0, o, _ => .error o
  | n + 1, o, l =>
    if l.isEmpty then .ok []
    else if l.length < 12 then .error o
    else match RegOp.ofBytes (l.take 12), opsOf n (o + 12) (l.drop 12) with
      | some x, .ok t => .ok (x :: t)
      | some _, .error e => .error e
      | none, _ => .error o

/-- One operation: the five bytes of its reply. -/
def State.cellOp (s : State) (c : Nat) (x : RegOp) : State × List Byte :=
  if x.write then
    let m := x.mask.toNat
    let able := coverOf (elsFields x.addr) x.addr Fld.writable
    let s := s.cellWriteReg c x.addr m x.value.toNat 0
    (s, leBytes 1 (b2n (Nat.land m able != m)) ++ leBytes 4 (s.cellShows c x.addr))
  else
    let r := s.cellReadReg c x.addr
    (r.1, leBytes 1 0 ++ leBytes 4 r.2)
/-- Every operation in order. -/
def State.cellOps (s : State) (c : Nat) : List RegOp → State × List Byte
  | [] => (s, [])
  | x :: t =>
    let r := s.cellOp c x
    let q := r.1.cellOps c t
    (q.1, r.2 ++ q.2)

/-- Why a register access is refused as a whole (R511): the class and the detail. -/
def accessError (owner : Bool) (l : List RegOp) : Option (Nat × Nat) :=
  match l.find? fun x => x.addr % 4 != 0 || !elsAssigned x.addr with
  | some x => some (3, x.addr)
  | none =>
    if !owner && l.any fun x => x.write && x.addr != 0x64C then
      some (4, match l.find? fun x => x.write with | some x => x.addr | none => 0)
    else none

/-- The transaction a port has completed of a kind: addressed, or a broadcast one, with its payload. -/
def CellSt.request (x : CellSt) (p kind : Nat) : Option (Bool × OpenTx) :=
  match (x.port p).done kind with
  | some t => some (true, t)
  | none => match (x.port p).bdone with | t :: _ => if t.kind == kind then some (false, t) else none | [] => none
/-- The reply of an addressed transaction, or the end of a broadcast one, which has no reply (R126). -/
def State.finish (s : State) (c p : Nat) (addressed : Bool) (r : Reply) : State :=
  if addressed then s.replyWith c p r else s.modPort c p fun y => { y with bdone := y.bdone.drop 1 }
/-- Whether a port is its owner's (R367). -/
def CellSt.fromOwner (x : CellSt) (p : Nat) : Bool := x.owner == p

/-- A register access of a port (R508): 1 to 10 operations, or an error in their place. -/
def State.mgmtAccess (s : State) (c p : Nat) : State :=
  let x := s.cell c
  match x.request p 1 with
  | none => s
  | some (ad, t) =>
    if !x.runs then s
    else match opsOf 11 0 t.payload with
      | .error o => s.finish c p ad (errReply 2 o)
      | .ok l =>
        if l.isEmpty || decide (10 < l.length) then s.finish c p ad (errReply 2 (12 * l.length))
        else match accessError (x.fromOwner p) l with
          | some e => s.finish c p ad (errReply e.1 e.2)
          | none =>
            let r := s.cellOps c l
            r.1.finish c p ad { bytes := r.2 }
/-- The tick in which a port's register access is due, where one waits (R508). -/
def CellSt.accessTick (x : CellSt) (p : Nat) : Option Nat := (x.request p 1).map fun r => r.2.doneAt / 8
/-- Whether the access of port `p` comes before that of the other one: the earlier tick first, in one tick port A (R507). -/
def CellSt.portFirst (x : CellSt) (p : Nat) : Bool :=
  match x.accessTick p, x.accessTick (1 - p) with
  | some a, some b => decide (a < b) || (a == b && p == 0)
  | some _, none => true
  | none, _ => false
/-- The register accesses that are due, in their order (R507). -/
def State.accessesDue (s : State) (c : Nat) : State :=
  if (s.cell c).portFirst 1 then (s.mgmtAccess c 1).mgmtAccess c 0 else (s.mgmtAccess c 0).mgmtAccess c 1
/-- MGMT_REGISTER_ACCESS (R508), after an access of the other port that comes before it (R507). -/
def State.mgmtAccessOf (s : State) (c p : Nat) : State :=
  if ((s.cell c).accessTick p).isSome && (s.cell c).portFirst (1 - p) then (s.mgmtAccess c (1 - p)).mgmtAccess c p else s.mgmtAccess c p
def execMgmtRegisterAccess (c p : Nat) (s : State) : Host.Outcome State Fault Refusal := .next (s.mgmtAccessOf c p)

/-! ### Cell memory (R509) -/

/-- Whether `n` bytes from `a` lie in one listed region: the auxiliary table, the die tables, the patch window, MRAM. -/
def memListed (a n : Nat) : Bool :=
  [(0xE000, 0x100), (0x10000, 0x2000), (0x80000, 0x60000), (0x100000, 0x100000)].any fun b =>
    decide (b.1 ≤ a) && decide (a + n ≤ b.1 + b.2)
/-- What a read of a cell's security block shows: SERIAL and the anchor, 0 while there is none (R475, R477). -/
def CellSt.secItems (x : CellSt) : List (Nat × List Byte) :=
  [(Config.cellSerialAt, leBytes 8 (x.rd Els.SEC_SERIAL_SERIAL)),
   (Config.anchorAt, leBytes 48 (match x.sec.anchor with | some h => h.toNat | none => 0))]
/-- The bytes a read of cell memory returns (R475, R509). -/
def State.cellBytes (s : State) (c a n : Nat) : List Byte :=
  (List.range n).map fun i =>
    if cMram ≤ a + i && decide (a + i < cMram + 0x1000) then secByte (s.cell c).secItems (a + i - cMram)
    else memGet s.cellMem (cellKey c (a + i))

/-- MGMT_MEMORY_READ (R509). -/
def State.mgmtRead (s : State) (c p : Nat) : State :=
  let x := s.cell c
  match x.request p 3 with
  | none => s
  | some (ad, t) =>
    let a := leAt t.payload 0 4
    let n := leAt t.payload 4 2
    if !x.runs then s
    else if n = 0 || decide (1024 < n) || decide (t.payload.length < 6) then s.finish c p ad (errReply 2 4)
    else if !memListed a n then s.finish c p ad (errReply 3 a)
    else s.finish c p ad { bytes := s.cellBytes c a n }
def execMgmtMemoryRead (c p : Nat) (s : State) : Host.Outcome State Fault Refusal := .next (s.mgmtRead c p)

/-- MGMT_MEMORY_WRITE (R509): into the patch window, which the sequencer copies into the patch staging area of MRAM (R477). -/
def State.mgmtWrite (s : State) (c p : Nat) : State :=
  let x := s.cell c
  match x.request p 2 with
  | none => s
  | some (ad, t) =>
    let a := leAt t.payload 0 4
    let n := leAt t.payload 4 2
    if !x.runs then s
    else if n = 0 || decide (1024 < n) || t.payload.length != 8 + n then s.finish c p ad (errReply 2 4)
    else if !x.fromOwner p then s.finish c p ad (errReply 4 a)
    else if a < 0x80000 || decide (0x80000 + 0x60000 < a + n) then s.finish c p ad (errReply 5 0x11)
    else
      let d := t.payload.drop 8
      ((s.cellWrite c a d).cellWrite c (cMram + 0x60000 + (a - 0x80000)) d).finish c p ad {}
def execMgmtMemoryWrite (c p : Nat) (s : State) : Host.Outcome State Fault Refusal := .next (s.mgmtWrite c p)

/-! ### Parameter sets (R253, R269, R291, R320, R368, R510) -/

/-- The ranges of the RWC and RW fields of an Elsum that do not take every value of their width (R96, R278, R310, R334, R361, R370, R409). -/
def elsRanges : List (Fld × Nat × Nat) :=
  [(Els.AUTH_CFG_LEASE_PERIODS, 1, 15), (Els.AUTH_CFG_HOLD_LIMIT, 1, 15), (Els.AUTH_CFG_ORPHAN_TX, 1, 100), (Els.GLIM_CFG_INT, 1, 1000),
    (Els.CELL_TIME_TC, 4, 10), (Els.CELL_TIME_STEP_THR, 1, 255), (Els.PWM_DT_DT12, 160, 8000), (Els.PWM_DT_DT34, 160, 8000),
    (Els.PWM_MINP_MINPULSE, 0, 800), (Els.CELL_HYST_BAND, 1, 65535), (Els.CELL_FB_N, 1, 255), (Els.CELL_FB_BAND, 1, 65535)] ++
  [(Els.GFB_CFG_TMO, 25, 1000), (Els.GFB_CFG_N, 1, 15), (Els.GML_CFG_TMO, 2, 100), (Els.DIE_TRIM_EVENTS, 4, 12), (Els.DIE_TRIM_DB, 1, 15),
    (Els.DIE_TRIM_SHARE_DB, 1, 255), (Els.DIE_ISO_N, 1, 15), (Els.DIE_ISO_SHARE, 1, 1023), (Els.DIE_ISO_MAX, 0, 32), (Els.DIE_TEMP_WARN, 0, 215),
    (Els.DIE_TEMP_TMAX, 0, 215), (Els.CV_CFG_OSR, 16, 256), (Els.CV_CFG_INSEL, 0, 2)] ++
  [(Els.CV_CAL_NAVG, 2, 6), (Els.CV_CAL_GLIM, 1, 255), (Els.AUX_SCAN_TRIG, 0, 2), (Els.AUX_SCAN_DIV, 1, 255), (Els.AUX_SCAN_INT, 10, 65535),
    (Els.AUX_TEMP_CH, 0, 29), (Els.PROT_OV_THR, 512, 1023), (Els.PROT_OV_HYS, 1, 63), (Els.PROT_TJ_WARN, 0, 150), (Els.PROT_TJ_CRIT, 0, 150),
    (Els.BYP_CFG_FIRE_W, 10, 500), (Els.BYP_CFG_CONF_TMO, 1, 100), (Els.BYP_CFG_REFIRE, 0, 2), (Els.HOLDUP_REPORT, 1, 50),
    (Els.FLT_CFG_PORT_N, 1, 15), (Els.FLT_CFG_REL, 1, 255), (Els.FLT_CFG_RWIN, 1, 65535)]

/-- Whether a field's value lies in its range. -/
def State.elsFits (s : State) (g : Regs) (f : Fld) : Bool :=
  let v := g.rd f
  if f == Els.PWM_CAR_RATIO then v == 1 || v == 2 || v == 4
  else if f == Els.CV_FILT_NAVG then v == 1 || v == 2 || v == 4 || v == 8
  else if f == Els.AUX_SCAN_OFS then decide (v < s.period)
  else if [pf 0 Port.DS_DELAY_DELAY, pf 1 Port.DS_DELAY_DELAY, pf 0 Port.EQ_EQ, pf 1 Port.EQ_EQ].contains f then decide (v ≤ 24000)
  else match elsRanges.find? fun r => r.1 == f with
    | some (_, lo, hi) => decide (lo ≤ v) && decide (v ≤ hi)
    | none => true

/-- Whether a set writes a field. -/
def writesField (es : List SetEntry) (f : Fld) : Bool :=
  es.any fun e => !e.die && f.inWord e.addr.toNat && Nat.land (f.cover e.addr.toNat) e.mask.toNat != 0
/-- A register entry that R510 permits, with every field it writes in range: `g` holds the registers after the set. -/
def State.regEntryOk (s : State) (g : Regs) (e : SetEntry) : Bool :=
  let a := e.addr.toNat
  let m := e.mask.toNat
  let fs := elsFields a
  Nat.land m (coverOf fs a fun f => f.acc == .rw || f.acc == .rwc) == m
    && fs.all fun f => Nat.land (f.cover a) m == 0 || s.elsFits g f

/-- A die-table entry that R289 and R291 permit: the limits in their ranges, a trim within the limits in force, ISOLATED cleared only in Blocked and Maintenance. -/
def State.dieEntryOk (s : State) (c : Nat) (e : SetEntry) : Bool :=
  let x := s.cell c
  let p := e.pos.toNat
  let a := e.addr.toNat
  let m := e.mask.toNat
  let w := mergeBits (s.cval c (dieTab p + a) 4) e.value.toNat m
  if a = 16 then
    decide (bits w 0 8 ≤ 31) && decide (bits w 8 8 ≤ 31) && decide (-16 ≤ s8 (bits w 16 8)) && decide (s8 (bits w 16 8) ≤ 0)
      && decide (0 ≤ s8 (bits w 24 8)) && decide (s8 (bits w 24 8) ≤ 15)
  else if a < 32 || a % 8 != 0 || Nat.land m 0x02FFFFFF != m then false
  else
    let d := (a - 32) / 8
    [0, 1, 2].all (fun k => bits m (8 * k) 8 == 0 || s.limited c p k (bits w (8 * k) 8) == bits w (8 * k) 8)
      && !(m.testBit 25 && !w.testBit 25 && (s.dieFlags c p d).testBit 1 && !(x.st == 2 || x.st == 6))

/-- The minimum dead time that the declared positions of pair `g` give (R290). -/
def State.dtMin (s : State) (c g : Nat) : Nat :=
  [2 * g, 2 * g + 1].foldl (fun m p => if s.declared c p then max m (s.cval c (dieTab p + 2) 2) else m) 160

/-- Whether a set breaks R269, R368, or a rule whose reason is FIELD_INVALID, in the order of R425; the last also what only the cell's state decides. -/
def State.setDeadTime (s : State) (c : Nat) (es : List SetEntry) (g : Regs) : Bool :=
  (writesField es Els.PWM_DT_DT12 && decide (g.rd Els.PWM_DT_DT12 < s.dtMin c 0))
    || (writesField es Els.PWM_DT_DT34 && decide (g.rd Els.PWM_DT_DT34 < s.dtMin c 1))
def setLease (es : List SetEntry) (g : Regs) : Bool :=
  (writesField es Els.AUTH_CFG_LEASE_PERIODS || writesField es Els.AUTH_CFG_HOLD_LIMIT)
    && decide (g.rd Els.AUTH_CFG_HOLD_LIMIT < g.rd Els.AUTH_CFG_LEASE_PERIODS)
def State.setFields (s : State) (c : Nat) (es : List SetEntry) (g : Regs) : Bool :=
  (es.any fun e => if e.die then !s.dieEntryOk c e else !s.regEntryOk g e)
    || (writesField es Els.CELL_SW_FB && g.rd Els.CELL_SW_FB == 1 && !(s.declared c 2 && s.declared c 3))
    || (writesField es Els.CV_CFG_INSEL && g.rd Els.CV_CFG_INSEL != 0 && !(s.cell c).maint)
/-- Why the cell refuses a set: the reason code (R253, R269, R291, R320, R368). -/
def State.setRefusal (s : State) (c : Nat) (es : List SetEntry) : Option Nat :=
  let g := ({ id := 0, epoch := 0, entries := es } : CellSet).onRegs (s.cell c).regs
  if s.setDeadTime c es g then some Rsn.DEAD_TIME_LOW
  else if setLease es g then some Rsn.LEASE_INVALID
  else if s.setFields c es g then some Rsn.FIELD_INVALID else none

/-- Whether an entry's address is one of the register space or of a die table. -/
def entryAddrOk (e : SetEntry) : Bool :=
  let a := e.addr.toNat
  a % 4 == 0 && (if e.die then decide (e.pos.toNat < 4) && decide (a < 32 + 8 * 128) else elsAssigned a)

/-- MGMT_PARAMETER_SET (R510): staged under its identifier, or refused whole. -/
def State.mgmtSet (s : State) (c p : Nat) : State :=
  let x := s.cell c
  match x.request p 4 with
  | none => s
  | some (ad, t) =>
    let l := t.payload
    let n := leAt l 6 2
    if !x.runs then s
    else if n = 0 || decide (40 < n) || l.length != 8 + 12 * n then s.finish c p ad (errReply 2 6)
    else match setEntries n (l.drop 8) with
      | none =>
        let i := ((List.range n).find? fun i => decide (1 < leAt l (8 + 12 * i) 1)).getD 0
        s.finish c p ad (errReply 2 (8 + 12 * i))
      | some es =>
        match es.find? fun e => !entryAddrOk e with
        | some e => s.finish c p ad (errReply 3 e.addr.toNat)
        | none =>
          if !x.fromOwner p then s.finish c p ad (errReply 4 (match es with | e :: _ => e.addr.toNat | [] => 0))
          else match s.setRefusal c es with
            | some r => (s.raise (.cell c) { src := Src.PARAM_REFUSED }).finish c p ad (errReply 5 r)
            | none =>
              let s := s.modCell c fun x => { x with staged := some { id := leAt l 0 2 % 4096, epoch := leAt l 2 4, entries := es } }
              s.finish c p ad { bytes := leBytes 4 (crc32 l) }
def execMgmtParameterSet (c p : Nat) (s : State) : Host.Outcome State Fault Refusal := .next (s.mgmtSet c p)

/-- MGMT_CRC_QUERY (R510). -/
def State.mgmtCrc (s : State) (c p : Nat) : State :=
  let x := s.cell c
  match x.request p 5 with
  | none => s
  | some (ad, t) =>
    let id := leAt t.payload 0 2
    if !x.runs then s
    else if t.payload.length != 2 then s.finish c p ad (errReply 2 0)
    else match x.staged with
      | some k =>
        if k.id == id then s.finish c p ad { bytes := leBytes 4 (setCrc k.id k.epoch k.entries) } else s.finish c p ad (errReply 6 id)
      | none => s.finish c p ad (errReply 6 id)
def execMgmtCrcQuery (c p : Nat) (s : State) : Host.Outcome State Fault Refusal := .next (s.mgmtCrc c p)

/-! ### JTAG (R512) -/

/-- JTAG_CELL_REG (R512), after the accesses of both ports (R507): on an unlocked TAP one access, in Maintenance and at an assigned address; what the next Capture-DR returns. `len`: how long
a halt has lasted. -/
def State.jtagReg (s : State) (c : Nat) (write : Bool) (a : Nat) (data : W32) (len : Nat) : State :=
  let s := s.accessesDue c
  let x := s.cell c
  if !x.on Els.SEC_STAT_UNLOCKED then s
  else if !x.maint || !elsAssigned a || a % 4 != 0 then s.modCell c fun x => { x with jtag := some (0, true) }
  else if write then
    let s := s.cellWriteReg c a 0xFFFFFFFF data.toNat len
    s.modCell c fun x => { x with jtag := some (BitVec.ofNat 32 (s.cellShows c a), false) }
  else
    let r := s.cellReadReg c a
    r.1.modCell c fun x => { x with jtag := some (BitVec.ofNat 32 r.2, false) }
def execJtagCellReg (c : Nat) (write : Bool) (a : Nat) (data : W32) (len : Nat) (s : State) : Host.Outcome State Fault Refusal :=
  .next (s.jtagReg c write a data len)

end Sys2Proof.Machine
end

