-- ==== Sys2Proof/Machine/RangeOps.lean ====
section
/-! DEFINITION. Ranging, drift and re-ranges of a tree (R116 to R122), in quarter nanoseconds. -/

namespace Sys2Proof.Machine

/-- Insertion into a rising list. -/
def insInt (x : Int) : List Int → List Int
  | [] => [x]
  | y :: t => if x ≤ y then x :: y :: t else y :: insInt x t
/-- The list in rising order. -/
def sortInt (l : List Int) : List Int := l.foldl (fun a x => insInt x a) []
/-- The median; of an even number of values the mean of the middle two, rounded down (log entry 21, DESIGN CHOICE). 0 of no values. -/
def median (l : List Int) : Int :=
  let s := sortInt l
  let n := s.length
  if n = 0 then 0
  else if n % 2 = 1 then s.getD (n / 2) 0
  else (s.getD (n / 2 - 1) 0 + s.getD (n / 2) 0) / 2

/-- The time from the first light of a burst to byte 0, 412 UI, in 0.01 ns (R106), and as a timestamp places it, at the nearest 0.25 ns (R77; log entry 82, DESIGN CHOICE). -/
def preamble : Int := 1598
def preambleQ : Nat := 64

/-- DRIFT_TOL in 0.01 ns. -/
def State.driftTol (s : State) (r t : Nat) : Int := 100 * (s.rd (tf r t Tree.TREE_RR_DRIFT_TOL) : Int)

/-- LEAD_SHORT is active while a ranging result, in force or waiting for its epoch, violates the first condition of R112. -/
def State.leadCheck (s : State) (r t : Nat) : State :=
  s.setCond (.tree r t) { src := Src.LEAD_SHORT }
    (!leadOk (s.rd Reg.BEACON_LEAD_LEAD) (s.tree r t).maxResult (s.slotsN r t))

/-- The epoch of RR_APPLY: that of the Beacon after the one with RR_LEFT = 1 (R120). -/
def State.rrEpoch (s : State) (r t : Nat) : Nat := s.pnBeacon + (s.tree r t).rrLeft
/-- A result message is queued for a slot (R116, R119): in ENUM it goes with kind 6, the only one of the two that is not held there (R128). -/
def State.sendResult (s : State) (r t j : Nat) (d : Nat × Nat) (epoch : Nat) : State :=
  s.modTree r t fun y => y.queue (if s.treeState r t == 2 then 6 else 9) j false (resultMsg d.1 d.2 epoch) .rangeResult

/-- RANGING_RESULT (R116, R119, R120): the round trip of a slot, and the result message with the epoch at which it applies.
Within a re-range that epoch is RR_APPLY's, and its step of round trip is kept for the event. -/
def State.rangingResult (s : State) (r t j : Nat) (ta : Time) (turn : Nat) : State :=
  let x := s.slot r t j
  match x.askedAt with
  | none => s
  | some tb =>
    let rtt : Int := (quarters ta : Int) - (quarters tb : Int) - (turn : Int)
    let rr := s.treeState r t == 4
    let epoch := if rr then s.rrEpoch r t else max (s.pn + 3) ((s.splitAt r t).getD 0)
    let d := delaysOf rtt (s.asymAt r t epoch)
    let step := rtt - x.rtt
    let s := s.modSlot r t j fun y =>
      { y with
        askedAt := none
        rtt := rtt
        drift := 0
        newDelay := if x.ranged then some (d.1, d.2, epoch) else y.newDelay
        ranged := true
        dsDelay := if x.ranged then y.dsDelay else d.1
        eq := if x.ranged then y.eq else d.2 }
    let s := if rr && x.ranged then s.modTree r t fun y => { y with rttSteps := fmod 0 j (· + step) y.rttSteps } else s
    let s := if x.ranged then s else (s.restoreLost (cellIndex r t j) x.serial.toNat).driftAll
    (s.sendResult r t j d epoch).leadCheck r t

/-- A tree enters a re-range (R119, R120), or starts it again (R122). -/
def State.startRerange (s : State) (r t : Nat) (restarts : Nat) : State :=
  let again := s.treeState r t == 4
  let s := s.wr (tf r t Tree.TREE_CFG_STATE) 4
  let s := s.raise (.tree r t) { src := Src.DRIFT }
  s.modTree r t fun x =>
    { x with
      rrLeft := 16, rrApply := false, rrRestarts := restarts, rangeCursor := 0
      rttSteps := if again then x.rttSteps else []
      rrFrom := if again then x.rrFrom else s.pnBeacon }

/-- A tree enters LOST (R130, R131). A re-range ends there, and with it the provisional offset. -/
def State.treeLost (s : State) (r t : Nat) : State :=
  ((s.wr (tf r t Tree.TREE_CFG_STATE) 5).modTree r t fun x =>
    { x with provOfs := 0, provPrev := 0, driftNow := [], rttSteps := [], rrApply := false, rrRestarts := 0 }).setCond
      (.tree r t) { src := Src.TREE_LOST } true

/-- The provisional offset is the median of the drifted arrivals of the period so far (R120); beyond 1,000 ns the tree is lost (R122). -/
def State.renewOffset (s : State) (r t : Nat) : State :=
  let new := median (s.tree r t).driftNow
  let s := s.modTree r t fun y => { y with provOfs := new }
  if 100000 < new.natAbs then (s.treeLost r t).raise (.tree r t) { src := Src.TREE_STEP_LARGE } else s

/-- The watch of R122 at the end of a period of a re-range, `heard`: a Glint was accepted in it. The offset of the period is compared with that of the
period before from the second period of the re-range on; a period with arrivals none of which drifts has offset 0 (log entry 83, DEDUCED). -/
def State.offsetEpoch (s : State) (r t : Nat) (heard : Bool) : State :=
  let x := s.tree r t
  if s.treeState r t != 4 then s
  else
    let ofs := if x.driftNow.isEmpty && heard then 0 else x.provOfs
    let s := s.modTree r t fun y => { y with provOfs := ofs, provPrev := ofs }
    if decide (x.rrFrom < s.pn) && decide (s.driftTol r t < (ofs - x.provPrev).natAbs) then
      let n := x.rrRestarts + 1
      if 4 ≤ n then s.treeLost r t
      else
        let s := s.startRerange r t n
        if n = 3 then s.raise (.tree r t) { src := Src.TREE_UNSTABLE } else s
    else s

/-- The number of cells of a period that drift with the sign of `a`. -/
def TreeSt.sameSign (x : TreeSt) (a : Int) : Nat := (x.driftNow.filter fun b => decide (0 < b) == decide (0 < a)).length

/-- Whether a slot is being re-ranged alone: its hold, its ranging or its result is under way (R119). -/
def State.rerangedAlone (s : State) (r t j : Nat) : Bool :=
  (s.slot r t j).newDelay.isSome
    || ((s.tree r t).txns.any fun x => x.slot == j && (x.origin == .hold || x.origin == .ranging || x.origin == .rangeResult))

/-- The arrival offset of an accepted Glint, in 0.01 ns (R118 to R122). -/
def State.arrival (s : State) (r t j : Nat) (a : Int) : State :=
  let tol := s.driftTol r t
  if s.treeState r t == 4 then
    if decide (tol < a.natAbs) then
      (s.modTree r t fun y => { y with driftNow := y.driftNow ++ [a] }).renewOffset r t
    else s
  else if s.treeState r t == 3 && decide (tol < a.natAbs) then
    let s := s.modTree r t fun y => { y with driftNow := y.driftNow ++ [a] }
    let s := s.modSlot r t j fun y => { y with drift := y.drift + 1 }
    let y := s.tree r t
    if s.rd (tf r t Tree.TREE_RR_RR_MIN) ≤ y.sameSign a then (s.startRerange r t 0).renewOffset r t
    else if decide (3 ≤ (y.slot j).drift) && decide (y.driftNow.length < s.rd (tf r t Tree.TREE_RR_RR_MIN)) && !s.rerangedAlone r t j then
      let s := s.raise (.tree r t) { src := Src.DRIFT, ts := some (s.stamp 0) }
      s.modTree r t fun z => (z.queue 9 j false [0] .hold).queue 6 j false [] .ranging
    else s
  else s.modSlot r t j fun y => { y with drift := 0 }

/-- RERANGE_APPLY (R120, R123): at the epoch of the Beacon with RR_APPLY the new delays apply, the tree returns to ACTIVE and the event is posted. -/
def State.rerangeApply (s : State) (r t : Nat) : State :=
  let x := s.tree r t
  let d := median (x.rttSteps.map Prod.snd)
  let s := s.wr (tf r t Tree.TREE_CFG_STATE) 3
  let s := s.modTree r t fun y =>
    { y with
      rrApply := false, provOfs := 0, provPrev := 0, driftNow := [], rttSteps := [], rrRestarts := 0
      slots := y.slots.map fun (p : Nat × SlotSt) =>
        (p.1, match p.2.newDelay with
          | some (ds, eq, _) => { p.2 with dsDelay := ds, eq := eq, newDelay := none, drift := 0 }
          | none => { p.2 with drift := 0 }) }
  (s.leadCheck r t).postEvent 0x06 [(2, 1, r), (3, 1, t), (8, 8, s.ns), (16, 4, unsext 32 d), (20, 4, d.natAbs / 2)] false

/-- A single re-ranged cell's delays apply at the epoch its result message names (R119). -/
def SlotSt.applyDelay (x : SlotSt) (pn : Nat) : SlotSt :=
  match x.newDelay with
  | some (ds, eq, e) => if e ≤ pn then { x with dsDelay := ds, eq := eq, newDelay := none, drift := 0 } else x
  | none => x

end Sys2Proof.Machine
end

