-- ==== Sys2Proof/Machine/Enum.lean ====
section
/-! DEFINITION. Enumeration of a tree: request Beacons, discovery, assignment, ranging, key exchange and the switch
(R116, R117, R443 to R457, R466, R467). A slot's phase is 0 undiscovered, 1 discovered, 2 assigned, 3 ranged, 4 with its ranging
result confirmed, 5 complete. -/

namespace Sys2Proof.Machine

/-- The non-vacant slots of a tree. -/
def State.planSlots (s : State) (r t : Nat) : List Nat :=
  (List.range (s.slotsN r t)).filter fun j => s.mapSerial r t j != 0
/-- STRIDE (R445). -/
def State.stride (s : State) : Nat := max 1 (ceilDiv 16000 s.period)

/-- An entry of the enumeration log (R456). -/
def State.enumLog (s : State) (r t slot code serial : Nat) : State :=
  let head := s.rd (rf r Rgn.ENUM_STAT_LOG_HEAD)
  let s := s.rgnWrite r (s.rd (rf r Rgn.ENUM_MAP_BASE_BASE) + 0x8000 + 16 * head)
    (leBytes 4 s.pn ++ leBytes 1 t ++ leBytes 1 slot ++ leBytes 1 code ++ leBytes 1 0 ++ leBytes 8 serial)
  s.wr (rf r Rgn.ENUM_STAT_LOG_HEAD) ((head + 1) % 1024)

/-- A cell is to be parked, with a code (R446, R449, R451): the PARK goes in an addressed request Beacon, and the code is logged. -/
def State.park (s : State) (r t slot code serial : Nat) : State :=
  (s.enumLog r t slot code serial).modTree r t fun x => { x with parks := x.parks ++ [(serial, slot, code)] }

/-- DONE counts the complete slots of a tree (R451). -/
def State.countDone (s : State) (r t : Nat) : State :=
  s.wr (ef r t Rgn.ENUM_TREE0_DONE) ((s.planSlots r t).filter fun j => (s.slot r t j).phase == 5).length

/-- The log code of a step that failed TRY times (R451): 7 NO_REPLY to an ASSIGN, 5 RANGE_FAIL, 6 KEY_FAIL. -/
def failCode (phase : Nat) : Nat := if phase ≤ 1 then 7 else if phase ≤ 3 then 5 else 6

/-- A step of a slot has failed TRY times (R451): the slot returns to undiscovered and the cell is parked. -/
def State.stepFails (s : State) (r t j : Nat) : State :=
  let x := s.slot r t j
  (s.park r t j (failCode x.phase) x.serial.toNat).modSlot r t j fun y => y.forget

/-- The request of the next step of a slot (R446, R451, R466). -/
def State.stepSeg (s : State) (r t j : Nat) : Nat × List Byte :=
  let x := s.slot r t j
  if x.phase == 1 then
    (7, 1 :: (leBytes 8 x.serial.toNat ++ leBytes 2 (treeId r t s.unitB (s.slotsN r t)) ++ leBytes 2 (cellIndex r t j)))
  else if x.phase == 2 then (6, [])
  else if x.phase == 3 then (6, resultMsg x.dsDelay x.eq (s.pn + 3))
  else (8, [if x.kxChunk < 3 then 0 else if x.kxChunk < 8 then 1 else 2, BitVec.ofNat 8 x.kxChunk])

/-- The slots that have a step to do, from the cursor on (R451, R452): the steps of different cells are interleaved. -/
def State.stepSlots (s : State) (r t : Nat) : List Nat :=
  (roundFrom (s.slotsN r t) (s.tree r t).enumCursor).filter fun j =>
    s.mapSerial r t j != 0 && decide (1 ≤ (s.slot r t j).phase) && decide ((s.slot r t j).phase ≤ 4)

/-- Slots whose step has been tried ENUM_CFG.TRY times fail (R451). -/
def State.failTries (s : State) (r t : Nat) : State :=
  (s.stepSlots r t).foldl (fun s j => if s.rd Reg.ENUM_CFG_TRY ≤ (s.slot r t j).tries then s.stepFails r t j else s) s

/-- Whether a non-vacant slot is undiscovered (R452). -/
def State.undiscovered (s : State) (r t : Nat) : Bool := (s.planSlots r t).any fun j => (s.slot r t j).phase == 0

/-- A segment of a request Beacon. -/
def reqSeg (slot : Nat) (bcast : Bool) (kind num : Nat) (payload : List Byte) : Seg :=
  { slot := BitVec.ofNat 7 slot, bcast := bcast, kind := BitVec.ofNat 4 kind, first := true, last := true
    txn := BitVec.ofNat 12 num, segNo := 0, payload := payload }

/-- A discovery request: the next index of the round (R446, R447). -/
def State.discReq (s : State) (r t : Nat) : State × Option Seg :=
  let x := s.tree r t
  let spread := s.rd Reg.ENUM_CFG_SPREAD
  let seg := reqSeg 0 true 7 x.nextTxn
    (0 :: (leBytes 1 (b2n x.flush) ++ leBytes 2 x.enumRound ++ leBytes 1 x.enumIdx ++ leBytes 1 spread ++ leBytes 1 (s.rd Reg.ENUM_CFG_OFS_N)))
  let last := decide (spread ≤ x.enumIdx + 1)
  let s := s.modTree r t fun y =>
    { y with
      flush := false
      nextTxn := (y.nextTxn + 1) % 4096
      enumIdx := if last then 0 else y.enumIdx + 1
      enumRound := if last then (y.enumRound + 1) % 65536 else y.enumRound
      enumLeft := if last then s.rd Reg.ENUM_CFG_ADDR_MAX else 0 }
  (s.wr (ef r t Rgn.ENUM_TREE0_PHASE) (if last then 2 else 1), some seg)

/-- An addressed step: a PARK, or the next step of a slot (R451, R452). -/
def State.addressed (s : State) (r t : Nat) : State × Option Seg :=
  let x := s.tree r t
  match x.parks with
  | (serial, slot, code) :: rest =>
    (s.modTree r t fun y => { y with parks := rest, nextTxn := (y.nextTxn + 1) % 4096, enumLeft := y.enumLeft - 1 },
      some (reqSeg slot false 7 x.nextTxn (2 :: (leBytes 8 serial ++ leBytes 1 code))))
  | [] =>
    match s.stepSlots r t with
    | j :: _ =>
      let p := s.stepSeg r t j
      let s := s.modTree r t fun y =>
        { y with nextTxn := (y.nextTxn + 1) % 4096, enumLeft := y.enumLeft - 1, enumCursor := (j + 1) % s.slotsN r t }
      (s.modSlot r t j fun y => { y with tries := y.tries + 1 }, some (reqSeg j false p.1 x.nextTxn p.2))
    | [] => (s, none)

/-- What the request Beacon of a period carries (R452): discovery while a round runs; after it up to ADDR_MAX addressed steps; a new round
while a slot is undiscovered. -/
def State.enumRequest (s : State) (r t : Nat) : State × Option Seg :=
  let s := s.failTries r t
  let x := s.tree r t
  if s.rd (ef r t Rgn.ENUM_TREE0_PHASE) == 1 then s.discReq r t
  else if (!(s.stepSlots r t).isEmpty || !x.parks.isEmpty) && (decide (0 < x.enumLeft) || !s.undiscovered r t) then s.addressed r t
  else if s.undiscovered r t then s.discReq r t
  else (s, none)

/-- ENUMERATION_BEACON_LAUNCH (R100, R445, R455): once a period on a tree in enumeration, with one management segment in a request Beacon. -/
def State.enumLaunch (s : State) (r t : Nat) : State :=
  let x := s.tree r t
  if !s.epochs || !s.running || s.treeState r t != 2 || s.rd (ef r t Rgn.ENUM_TREE0_PHASE) == 3 || x.stopped || x.beaconPn == s.pn + 1 then s
  else
    let request := s.pn % s.stride == 0
    let p := if request then s.enumRequest r t else (s, none)
    let s := p.1
    let tm := s.laneTime r t
    let h := s.header r t 3 s.modeNo s.pn 0 tm
    let s := s.launch r t tm h [] p.2 26
    let s := s.modTree r t fun y =>
      { y with beaconPn := s.pn + 1, enumReq := if request then p.2 else y.enumReq, reqAt := if request then tm else y.reqAt }
    match p.2 with
    | some g => if g.kind == 6 && g.payload.isEmpty then s.modSlot r t g.slot.toNat fun y => { y with askedAt := some tm } else s
    | none => s
def execEnumerationBeaconLaunch (r t : Nat) (s : State) : Host.Outcome State Fault Refusal := .next (s.enumLaunch r t)

/-- The request a reply of this instant answers: the tree port listens for 16,000 ns after its launch (R445). -/
def State.listening (s : State) (r t : Nat) : Option Seg :=
  let x := s.tree r t
  if s.epochs && s.treeState r t == 2 && s.rd (ef r t Rgn.ENUM_TREE0_PHASE) != 3
      && decide (quarters s.time.ctr ≤ quarters x.reqAt + 64000) then x.enumReq
  else none

/-- Whether an upstream tag verifies (R103): the key, the PN, the direction and KIND, and the cell index. -/
def glintTag (key : Key) (pn kind cell : Nat) (m : Mac) : Bool :=
  m.ok && m.key == key && m.ivPn == BitVec.ofNat 64 pn && m.ivKind == BitVec.ofNat 8 (2 * kind + 1) && m.ivSeq == 0
    && m.ivCell == BitVec.ofNat 16 cell

/-- The slot of a tree whose map entry is a SERIAL. -/
def State.mapSlot (s : State) (r t serial : Nat) : Option Nat :=
  (List.range 128).find? fun j => s.mapSerial r t j == serial
/-- Whether another tree of the region maps a SERIAL. -/
def State.otherTree (s : State) (r t serial : Nat) : Bool :=
  (List.range 32).any fun u => u != t && (s.mapSlot r u serial).isSome

/-- DISCOVERY_REPLY (R449): a reply to the discovery request of the tree, `q` quarter nanoseconds on. -/
def State.discoveryReply (s : State) (r t q : Nat) (d : DiscReply) : State :=
  let s := s.runBy q
  match s.listening r t with
  | none => s
  | some g =>
    let x := s.tree r t
    let round := leAt g.payload 2 2
    if !(g.kind == 7 && g.payload.head? == some 0 && round == d.round.toNat) then s
    else if !(d.mac.ok && d.mac.key == x.useKey && d.mac.ivKind == 7 && d.mac.ivPn == BitVec.ofNat 64 s.pn) then
      s.raise (.tree r t) { src := Src.GLINT_TAG }
    else
      let ser := d.serial.toNat
      let s := s.modMirror fun m => { m with maxLast := if m.maxLast.toNat < d.lastEpoch.toNat then d.lastEpoch else m.maxLast }
      match (s.planSlots r t).find? fun j => (s.slot r t j).phase == 5 && (s.slot r t j).serial == d.serial with
      | some j => (s.modSlot r t j fun y => { y.forget with phase := 1, revRom := d.rev.toNat }).countDone r t
      | none =>
        match s.mapSlot r t ser with
        | some j =>
          if ser = 0 ∨ s.slotsN r t ≤ j then s.park r t 0x7F 1 ser
          else if d.otherValid && d.otherIdx.toNat != cellIndex r t j then s.park r t 0x7F 3 ser
          else s.modSlot r t j fun y => { y.forget with phase := 1, serial := d.serial, revRom := d.rev.toNat }
        | none => s.park r t 0x7F (if s.otherTree r t ser then 2 else 1) ser
def execDiscoveryReply (r t q : Nat) (d : DiscReply) (s : State) : Host.Outcome State Fault Refusal := .next (s.discoveryReply r t q d)

/-- A step of a slot has succeeded: the next phase, tried from new. -/
def SlotSt.step (x : SlotSt) (phase : Nat) : SlotSt := { x with phase := phase, tries := 0 }

/-- SLOT_COMPLETE (R236, R452): the record of the cell's index in region MRAM is compared with its SERIAL; C_EST is restored where they
match, and otherwise C_NOM is taken, the new SERIAL written and the cell left without a base. -/
def State.slotComplete (s : State) (r t j : Nat) : State :=
  let c := cellIndex r t j
  let s := (s.modSlot r t j fun y => y.step 5).countDone r t
  let ser := (s.slot r t j).serial.toNat
  let cNom := match s.armOf r t with | some a => s.rd (af r a Arm.ARM_RANK_C_NOM) | none => 0
  match s.mramCEst c ser with
  | some v => (s.modRank c fun x => { x with cEst := v }).driftAll
  | none =>
    let s := s.rgnWrite r (cellRecAt c) (leBytes 8 ser)
    ({ s with rank := fset c { cEst := cNom } s.rank }).driftAll

/-- A key-exchange chunk that answers the request of the slot (R466, R467): chunk 0x7E is no try; a result other than 0, or a signature or
confirmation that fails, is a failed try; the confirmation of chunk 8 completes the slot. -/
def State.kxChunk (s : State) (r t j : Nat) (k : KxReply) : State :=
  let x := s.slot r t j
  if k.chunk.toNat == 0x7E then s.modSlot r t j fun y => { y with tries := y.tries - 1 }
  else if k.chunk.toNat != x.kxChunk then s
  else if (x.kxChunk == 3 && k.result != 0) || (x.kxChunk == 7 && !k.sigOk) || (x.kxChunk == 8 && !k.confirmOk) then
    s.modSlot r t j fun y => { y with kxChunk := 0 }
  else if x.kxChunk == 8 then s.slotComplete r t j
  else s.modSlot r t j fun y => { y with kxChunk := y.kxChunk + 1, tries := y.tries - 1 }

/-- KEY_EXCHANGE_REPLY (R448, R466, R467), `q` quarter nanoseconds on. -/
def State.keyExchangeReply (s : State) (r t q : Nat) (k : KxReply) : State :=
  let s := s.runBy q
  match s.listening r t with
  | none => s
  | some g =>
    let j := g.slot.toNat
    if !(g.kind == 8 && g.txn == k.txn) then s
    else if !glintTag (s.tree r t).useKey s.pn 3 (cellIndex r t j) k.mac then s.raise (.tree r t) { src := Src.GLINT_TAG, ts := some (s.stamp 0) }
    else if (s.slot r t j).phase == 4 then s.kxChunk r t j k
    else s
def execKeyExchangeReply (r t q : Nat) (k : KxReply) (s : State) : Host.Outcome State Fault Refusal := .next (s.keyExchangeReply r t q k)

/-- A ranging reply or a confirmation during enumeration (R116, R117, R450, R451): the reply of the cell that the request addresses, its MGMT
field holding TURN, an empty last-data fragment, or an error. -/
def State.enumGlint (s : State) (r t : Nat) (g : Glint) : State :=
  match s.listening r t with
  | none => s
  | some req =>
    let j := req.slot.toNat
    let x := s.slot r t j
    let c := cellIndex r t j
    if g.kind != 2 || req.bcast || g.slot.toNat != j then s
    else if !glintTag (s.tree r t).useKey s.pn 2 c g.mac then s.raise (.tree r t) { src := Src.GLINT_TAG, ts := some (s.stamp 0) }
    else if g.mgmt.typ == 3 then
      if x.phase == 1 then
        (s.enumLog r t j (g.mgmt.data.toNat % 65536) x.serial.toNat).modSlot r t j fun y => y.forget
      else s
    else if x.phase == 1 && req.kind == 7 then s.modSlot r t j fun y => y.step 2
    else if x.phase == 2 && req.kind == 6 then
      match x.askedAt with
      | some tb =>
        let rtt : Int := (quarters s.time.ctr : Int) - (quarters tb : Int) - (g.mgmt.data.toNat : Int)
        let d := delaysOf rtt (s.asym r t)
        (s.modSlot r t j fun y => { y.step 3 with rtt := rtt, dsDelay := d.1, eq := d.2, ranged := true, askedAt := none }).leadCheck r t
      | none => s
    else if x.phase == 3 && req.kind == 6 then s.modSlot r t j fun y => { y.step 4 with kxChunk := 0 }
    else s

/-- The authority epoch of the unit with BOOT_CTL.OWNER = 1 at a tree's first period Beacon of M5 (R363, R457). -/
def State.ownerEpoch (s : State) : State :=
  if s.modeNo != 5 || !s.on Reg.BOOT_CTL_OWNER then s
  else
    let own := s.rd Reg.MIRR_AUTH_EPOCH
    if s.mirror.auth && decide (s.mirror.maxLast.toNat < own) then s
    else
      (s.wr Reg.MIRR_AUTH_EPOCH (max own (max s.mirror.peerEpoch.toNat s.mirror.maxLast.toNat) + 1)).modMirror fun m => { m with auth := true }

/-- TREE_SWITCH (R130, R453, R455): every non-vacant slot complete and R112 met, the tree goes over to period Beacons. -/
def State.treeSwitch (s : State) (r t : Nat) : State :=
  if s.treeState r t != 2 || s.rd (ef r t Rgn.ENUM_TREE0_PHASE) == 3 || !s.epochs then s
  else if !((s.planSlots r t).all fun j => (s.slot r t j).phase == 5) then s
  else if !s.treeFits r t then s.setCond (.tree r t) { src := Src.LEAD_SHORT } true
  else
    let s := (s.leadCheck r t).ownerEpoch
    let s := s.wr (ef r t Rgn.ENUM_TREE0_PHASE) 3
    let s := s.modTree r t fun x => { x with keyed := true, firstBeacon := true, lostN := 0, enumReq := none }
    if 6 ≤ s.modeNo then (s.wr (tf r t Tree.TREE_CFG_STATE) 3).modTree r t fun x => x.holdTmo s.pn else s
def execTreeSwitch (r t : Nat) (s : State) : Host.Outcome State Fault Refusal := .next (s.treeSwitch r t)

/-- ENUM_TIMEOUT (R454): a tree not switched ENUM_CFG.TMO after its enumeration began. -/
def State.enumTimeout (s : State) (r t : Nat) : State :=
  if s.treeState r t != 2 || s.rd (ef r t Rgn.ENUM_TREE0_PHASE) == 3 || s.on (ef r t Rgn.ENUM_TREE0_STALL) then s
  else
    let n := (s.tree r t).enumFrom + s.rd Reg.ENUM_CFG_TMO * 1000000
    let s := s.runTo n
    if s.ns < n then s
    else
      let s := s.wr (ef r t Rgn.ENUM_TREE0_STALL) 1
      ((s.planSlots r t).filter fun j => (s.slot r t j).phase != 5).foldl (fun s j => s.enumLog r t j 8 (s.mapSerial r t j)) s
def execEnumTimeout (r t : Nat) (s : State) : Host.Outcome State Fault Refusal := .next (s.enumTimeout r t)

end Sys2Proof.Machine
end

