-- ==== Sys2Proof/Machine/GlintOps.lean ====
section
/-! DEFINITION. What an accepted Glint does (R118, R128, R349, R350, R379, R401, R427), and how a transaction ends. -/

namespace Sys2Proof.Machine

/-! ### Cell parameter sets of the armed Clause (R423, R427) -/

/-- The entries an armed Clause holds for a cell: its own set and that of its arm (R423). -/
def armedEntries (items : List Item) (c : Nat) (arm : Option Nat) : List SetEntry :=
  items.flatMap fun
    | .cellSet i es _ => if i = c then es else []
    | .armSet r a es _ => if r = idxRegion c ∧ some a = arm then es else []
    | _ => []
/-- The arm of a cell on this unit. -/
def State.cellArm (s : State) (c : Nat) : Option Nat := s.armOf (idxRegion c) (idxTree c)
/-- The set of a cell that Basath computes its CRC over (R427, R510). -/
def State.cellSetCrc (s : State) (a : Armed) (c : Nat) : Nat :=
  setCrc a.id a.epoch (armedEntries a.items c (s.cellArm c))

/-- A set addressed to one cell is queued on its tree (R427). -/
def State.sendSet (s : State) (c : Nat) : State :=
  match s.clause.armed with
  | some a =>
    s.modTree (idxRegion c) (idxTree c) fun x =>
      x.queue 4 (idxSlot c) false (setPayload a.id a.epoch (armedEntries a.items c (s.cellArm c))) (.clauseSet c)
  | none => s

/-- The deliveries of the armed Clause, changed for one cell. -/
def State.modDeliv (s : State) (c : Nat) (f : CellDeliv → CellDeliv) : State :=
  { s with clause := { s.clause with armed := s.clause.armed.map fun a =>
      { a with cells := a.cells.map fun d => if d.cell == c then f d else d } } }

/-- CLAUSE_CONFIRM (R427): a CRC returned for the set of a cell; a mismatch resends the set, within TREE_MGMT.RETRY. -/
def State.confirmCrc (s : State) (c : Nat) (crc : Option Nat) : State :=
  match s.clause.armed with
  | none => s
  | some a =>
    if a.committed then s
    else if crc == some (s.cellSetCrc a c) then s.modDeliv c fun d => { d with confirmed := true }
    else
      let tries := match a.cells.find? fun d => d.cell == c with | some d => d.tries | none => 0
      if s.rd (tf (idxRegion c) (idxTree c) Tree.TREE_MGMT_RETRY) ≤ tries then s.abandonClause Rsn.CELL_UNCONFIRMED (some c)
      else (s.modDeliv c fun d => { d with tries := d.tries + 1 }).sendSet c

/-! ### Reply fragments (R128) -/

/-- A transaction leaves its tree port. -/
def State.endTxn (s : State) (r t num : Nat) : State :=
  s.modTree r t fun x => { x with txns := x.txns.filter fun y => y.num != num }
/-- A transaction of a tree changed. -/
def State.modTxn (s : State) (r t num : Nat) (f : Txn → Txn) : State :=
  s.modTree r t fun x => { x with txns := x.txns.map fun y => if y.num == num then f y else y }

/-- A transaction is sent again, or fails with MGMT_FAIL after TREE_MGMT.RETRY resends (R128). -/
def State.retryTxn (s : State) (r t : Nat) (tx : Txn) : State :=
  if s.rd (tf r t Tree.TREE_MGMT_RETRY) ≤ tx.tries then
    (s.failTxn r t tx).raise (.tree r t) { src := Src.MGMT_FAIL }
  else s.modTxn r t tx.num fun y => { y with next := 0, sentPn := none, tries := y.tries + 1, frags := 0, reply := [] }

/-- A transaction ends with an error fragment other than SEQUENCE (R128, R428, R511). -/
def State.errorTxn (s : State) (r t : Nat) (tx : Txn) (code : Nat) : State :=
  let s := s.endTxn r t tx.num
  match tx.origin with
  | .host ring tag op notify _ => s.complete ring tag op notify Cpl.CELL_ERROR 0 code
  | .clauseSet c => s.abandonClause Rsn.CELL_REFUSED (some c)
  | .crcQuery c => s.confirmCrc c none
  | _ => s

/-- A transaction ends with its last-data fragment (R128): the completion of CELL_REG holds the value read and that of CELL_MEM the bytes
moved (R416, R508, R509); a CRC confirms a set (R427). -/
def State.replyTxn (s : State) (r t : Nat) (tx : Txn) (reply : List Byte) : State :=
  let s := s.endTxn r t tx.num
  match tx.origin with
  | .host ring tag op notify len =>
    s.complete ring tag op notify Cpl.OK (if op == 5 then leAt reply 1 4 else len) 0
  | .clauseSet c => s.confirmCrc c (some (leAt reply 0 4))
  | .crcQuery c => s.confirmCrc c (some (leAt reply 0 4))
  | _ => s

/-- MGMT_REPLY_FRAGMENT (R128): the fragment of an accepted Glint goes to the open transaction of its slot. -/
def State.fragment (s : State) (r t j : Nat) (f : Frag) : State :=
  match (s.tree r t).txns.find? fun tx => tx.slot == j && !tx.bcast && decide (0 < tx.next) with
  | none => s
  | some tx =>
    if f.typ == 0 then s
    else if f.typ == 3 then
      if f.data.toNat / 65536 == 1 then s.retryTxn r t tx else s.errorTxn r t tx f.data.toNat
    else if tx.sentPn.isNone then s
    else if tx.origin == .ranging then
      (s.endTxn r t tx.num).rangingResult r t j s.time.ctr f.data.toNat
    else if f.num.toNat != tx.frags % 64 then s.retryTxn r t tx
    else
      let reply := tx.reply ++ leBytes 3 f.data.toNat
      if f.typ == 2 then s.replyTxn r t tx reply
      else s.modTxn r t tx.num fun y => { y with frags := y.frags + 1, reply := reply }

/-! ### Faults of a report (R349, R350) -/

/-- The FAULT field as bytes 24 to 27 of a Glint hold it, with STATUS in the three bytes after it: DETAIL of a cell report (R107, R359). -/
def Glint.detail (g : Glint) : Nat := g.fault.word + 2 ^ 32 * g.status.word

/-- CELL_TRIP and CELL_REPORT (R349). -/
def State.cellReports (s : State) (r t c : Nat) (g : Glint) : State :=
  let sev := g.fault.severity.toNat
  let o (src cap : Nat) : Occ := { src := src, cell := some c, cap := cap, ts := some s.time.ctr, detail := Glint.detail g }
  let s := if g.fault.trip then s.raise (.tree r t) (o Src.CELL_TRIP sev) else s
  let s := if 2 ≤ sev && g.fault.fresh then s.raise (.tree r t) (o Src.CELL_REPORT (min sev 4)) else s
  s.setCond (.tree r t) (o Src.CELL_REPORT (min sev 4)) (decide (2 ≤ sev))

/-- ALERT_ACK_QUEUE (R350): a register write of 1 to FLT_CLR.ALERT_ACK, ahead of the other segments of the tree, unless one is on its way. -/
def State.ackAlert (s : State) (r t j : Nat) : State :=
  if (s.tree r t).txns.any fun tx => tx.slot == j && tx.front then s
  else s.modTree r t fun x => x.queue 1 j false (RegOp.bytes ⟨true, 0x64C, 1, 1⟩) .alertAck

/-! ### Authority and resume -/

/-- What the OWNER bit of an accepted report tells (R378, R379, R381): a new owner is posted once for each cell, and a unit in M7 or M9 that
sees its partner as owner yields. A claim ends when a report shows this unit as owner. -/
def State.ownerReport (s : State) (r t j : Nat) (g : Glint) : State :=
  let b := g.status.owner
  let changed := match (s.slot r t j).ownerSeen with | some o => o != b | none => false
  let s := s.modSlot r t j fun y => { y with ownerSeen := some b }
  let s := if changed then s.authEvent 3 b (cellIndex r t j) else s
  if b == s.unitB then s.modMirror fun m => { m with claimFrom := none }
  else if s.mirror.claimFrom.isNone then s.yieldNow else s

/-- The fourth trigger of R378: HOLD_CNT above 0 for MIRR_CFG.CLAIM_N consecutive periods, this one included. -/
def State.holdTrigger (s : State) : State :=
  if s.modeNo == 8 && decide (0 < s.holdCnt) && decide (s.rd Reg.MIRR_CFG_CLAIM_N ≤ s.mirror.holdRun + 1) then s.claimTrigger else s

/-- RESUME_COMPLETE (R401): every enabled tree of a resuming unit meets R130. -/
def State.resumeDone (s : State) : State :=
  if s.modeNo == 5 && s.mode.resumeFrom.isSome && s.mode.running.isNone && s.treesReady then
    s.request { who := .warden, target := 6 }
  else s

/-! ### Acceptance (R103, R118) -/

/-- Whether the preamble of a burst whose byte 0 arrives now lies in the Glint window, shifted by the provisional offset, in units of 0.01 ns (R110, R118). -/
def State.inWindow (s : State) (r t : Nat) : Bool :=
  let a : Int := 25 * ((quarters s.time.ctr : Int) - 4 * (s.time.epochAt : Int))
  let p : Int := (s.tree r t).provOfs
  decide (25 * (s.rd (tf r t Tree.TREE_SLOTS_START) : Int) + p ≤ a - preamble) && decide (a ≤ 25 * (s.glintEnd : Int) + p)

/-- A cell that an applied Clause names and whose report of epoch e shows HOLDING counts in its closed record (R429). -/
def State.noteLate (s : State) (c : Nat) (g : Glint) : State :=
  match s.clause.applied with
  | some a =>
    if g.status.holding && a.cells.contains c && !a.late.contains c && sampleEpoch s.pn g.samplePn.toNat == a.epoch then
      { s with clause := { s.clause with applied := some { a with late := c :: a.late } } }
    else s
  | none => s

/-- A Glint whose tag has verified and whose SLOT is one of the plan (R118 and the rules of its fields). -/
def State.acceptGlint (s : State) (r t j : Nat) (g : Glint) : State :=
  let c := cellIndex r t j
  let s := s.modSlot r t j fun y => { y with heard := true, last := some g, lastAt := s.time.ctr }
  let s := s.setCond (.tree r t) { src := Src.GLINT_MISS, cell := some c } false
  let s := s.arrival r t j (25 * ((quarters s.time.ctr : Int) - 4 * (s.time.epochAt : Int) - (s.slotAt r t j s.pn : Int)) - preamble)
  let s := s.fragment r t j g.mgmt
  let s := (s.cellReports r t c g).noteLate c g
  let s := if g.fault.class0 then s.ackAlert r t j else s
  let s := match s.armOf r t with | some a => s.rankReport r a c g | none => s
  (s.ownerReport r t j g).holdTrigger

end Sys2Proof.Machine
end

