-- ==== Sys2Proof/Machine/Image.lean ====
section
/-! DEFINITION. Image checks and IMAGE_LOAD (R133, R135, R136, R142, R147, R164, R173, R175, R177 to R179, R185, R198, R214, R374, R416, R462 to R464). -/

namespace Sys2Proof.Machine

/-! ### Programs (R179, R185) -/

/-- A LOOP's end, or a BR's target. -/
def jumpOf : DI → Option Nat
  | .br _ t => some t.toNat
  | .loop _ t => some t.toNat
  | _ => none
/-- Whether an instruction is a LOOP. -/
def isLoop : DI → Bool
  | .loop .. => true
  | _ => false
/-- The loops of a program, as (index of the LOOP, its end). -/
def loopsOf (l : List DI) : List (Nat × Nat) :=
  l.zipIdx.filterMap fun q => match q.1 with | .loop _ t => some (q.2, t.toNat) | _ => none
/-- Whether index `i` lies in the body of a loop. -/
def inBody (i : Nat) (b : Nat × Nat) : Bool := decide (b.1 < i) && decide (i ≤ b.2)
/-- The shape of a program (R179, R185): at most 64 instructions, END last, jumps forward and inside, COUNT 1 to 32, no BR across a loop body, bodies nested
within one another and at most two deep. -/
def shapeOk (l : List DI) : Bool :=
  let bs := loopsOf l
  decide (l.length ≤ 64) && l.getLast? == some .end_ &&
  l.zipIdx.all fun q =>
    (match jumpOf q.1 with | some t => decide (q.2 < t) && decide (t < l.length) | none => true) &&
    (match q.1 with
      | .loop n t => decide (1 ≤ n.toNat) && decide (n.toNat ≤ 32) && decide ((bs.filter (inBody q.2)).length ≤ 1)
          && (bs.all fun b => !inBody q.2 b || decide (t.toNat ≤ b.2))
      | .br _ t => bs.all fun b => inBody q.2 b == inBody t.toNat b
      | _ => true)

/-- The largest sum of weights over the paths from `lo` to the end of [lo, hi] or to END (R179): a LOOP counts its own weight and COUNT times its body with
`iter` added, a BR the larger of its two continuations. `body`: the sum over a loop body. -/
def pathSum (w : DI → Nat) (iter : Nat) (l : List DI) (body : Nat → Nat → Nat) (lo hi : Nat) : Nat :=
  let tab := (List.range (hi + 1 - lo)).foldl (fun (tab : FMap Nat) k =>
    let i := hi - k
    let v := match l[i]? with
      | none => 0
      | some .end_ => 0
      | some (.br c t) => w (.br c t) + max (fget 0 tab (i + 1)) (fget 0 tab t.toNat)
      | some (.loop n t) => w (.loop n t) + n.toNat * (body (i + 1) t.toNat + iter) + fget 0 tab (t.toNat + 1)
      | some x => w x + fget 0 tab (i + 1)
    fset i v tab) []
  fget 0 tab lo
/-- The same where loops may still nest `d` deep. -/
def worst (w : DI → Nat) (iter : Nat) (l : List DI) : Nat → Nat → Nat → Nat
  | 0 => pathSum w iter l fun _ _ => 0
  | d + 1 => pathSum w iter l (worst w iter l d)
/-- The computed worst-case cost of a program in ns (R179). -/
def progCost (l : List DI) : Nat := 10 + worst DI.cost 2 l 2 0 (l.length - 1)
/-- The most stores on a path (R177). -/
def progStores (l : List DI) : Nat := worst (fun i => match i with | .st .. => 1 | _ => 0) 0 l 2 0 (l.length - 1)

end Sys2Proof.Machine

namespace Sys2Proof
open Sys2Proof.Machine

/-! ### Verbs (R135, R136) -/

/-- VERB_MAX (R136). -/
def verbMax : Nat := 150
/-- The least cost a Verb may declare (R135, R214): that of the Verb set, the computed one of a program; SELECT's of one cell; for the extrapolation of FF_AC, whose
cost the manual does not state, that of the shortest program (R179; log entry 27, DESIGN CHOICE). None for a reserved opcode, a number of words or terms outside
R135, a reserved encoding or a program that breaks R185. -/
def VerbDecl.minCost (v : VerbDecl) : Option Nat :=
  match v.opc with
  | 0x01 => if v.params.getD 1 0 ≤ 8 then some 24 else none
  | 0x02 =>
    let n := v.params.getD 1 0 + v.params.getD 2 0
    if 1 ≤ n ∧ n ≤ 16 then some (20 + 6 * n) else none
  | 0x03 => some 46
  | 0x04 => some 28
  | 0x05 => some 22
  | 0x06 =>
    let n := v.params.getD 1 0
    if 1 ≤ n ∧ n ≤ 16 then some (16 + 4 * n) else none
  | 0x07 => some 18
  | 0x08 => some 18
  | 0x09 => some 40
  | 0x0A => some 30
  | 0x0B => some 42
  | 0x0C => some 40
  | 0x0D => some 60
  | 0x0E => some 20
  | 0x0F =>
    if !v.custom then some (if v.params.getD 0 0 = 1 then 48 else 10)
    else match decodeProg v.prog with
      | some l => if shapeOk l && decide (progStores l ≤ 16) then some (progCost l) else none
      | none => none
  | _ => none
/-- Whether a Verb may be marked portable (R144, R178): VEC, CMP, CHOOSE, or a program of the image without a memory instruction; every other Verb loads, stores or has
results beside its OUT operands. At most 64 bytes of operands. -/
def VerbDecl.mayRoam (v : VerbDecl) : Bool :=
  decide (v.inputs.length ≤ 16) && ([0x06, 0x07, 0x08].contains v.opc
    || (v.custom && match decodeProg v.prog with | some l => l.all fun i => !memOp i | none => false))
/-- A Verb's cost, and its portable marking (R136, R178). -/
def VerbDecl.ok (v : VerbDecl) : Bool :=
  (match v.minCost with | some n => decide (n ≤ v.cost) && decide (v.cost ≤ verbMax) | none => false) && (!v.portable || v.mayRoam)

/-! ### Phrases (R133, R142, R147, R162, R173, R175, R214) -/

/-- Class, level, home, trigger and MAX_ACT agree (R133). -/
def Phrase.classOk (p : Phrase) : Bool :=
  match p.cls with
  | 0 => p.level == 0 && decide (p.home < 4) && decide (1 ≤ p.maxAct) && decide (p.maxAct ≤ 16)
      && (match p.trig with | .doorbell | .completion _ => false | _ => true)
  | 1 => decide (1 ≤ p.level) && decide (p.level ≤ 3) && decide (p.home < 8)
      && (match p.trig with | .sample _ | .timer .. => true | _ => false)
  | 2 => decide (4 ≤ p.level) && decide (p.level ≤ 7) && decide (p.home < 8)
  | _ => false
/-- A multiple of 4. -/
def by4 {n : Nat} (b : BitVec n) : Bool := b.toNat % 4 == 0
/-- An address context (R162, R173, R185). R161 gives CLj the range 4 to 65,536 and R185 no refusal of a value outside it: such an image is taken, and with a length
of 0 every circular access is an address error (log entry 98, DESIGN CHOICE). -/
def Ctx.ok (c : Ctx) : Bool := c.ofs.all by4 && c.cb.all by4 && c.cl.all by4 && decide (c.persist.length ≤ 4)
/-- The latest deadline of R147, as an offset from the epoch. -/
def lastDeadline (period lead : Nat) : Nat := period - lead - 500
/-- The declared class-1 deadline is no later (R147). -/
def Phrase.deadlineOk (p : Phrase) (period lead : Nat) : Bool :=
  p.cls != 1 || match p.deadline with | some d => decide (d ≤ lastDeadline period lead) | none => true
/-- The gain of each law slot of a wrapper, Q2.30: 0.25 <= |g| < 2 (R214). -/
def Phrase.gainsOk (p : Phrase) : Bool :=
  p.wrapWords.isNone || [0, 1].all fun k =>
    let g := (BitVec.ofNat 32 (p.wrapSlots.getD (3 * k + 1) 0)).toInt.natAbs
    decide (2 ^ 28 ≤ g) && decide (g < 2 ^ 31)
/-- The longest Sentence of a class-1 Phrase (R142). -/
def Phrase.sentenceOk (p : Phrase) : Bool :=
  p.cls != 1 || p.sentences.all fun x =>
    decide ((p.verbs.filter fun v => match v.sentence with | some q => q.1 == x | none => false).length ≤ 128)
/-- A Phrase by itself. -/
def Phrase.ok (p : Phrase) (period lead : Nat) : Bool :=
  p.classOk && p.ctx.ok && decide (p.windows.length ≤ 8) && p.deadlineOk period lead && p.gainsOk && p.sentenceOk && p.verbs.all VerbDecl.ok

/-- The sections that BIQ Verbs of an image use, as (region, loop, section). -/
def Image.sections (i : Image) : List (Nat × Nat × Nat) :=
  i.phrases.flatMap fun p => p.verbs.filterMap fun v => if v.opc = 0x03 then some (p.region, v.params.getD 0 0, v.params.getD 1 0) else none
/-- The contexts of the class-0 and class-1 Sentences of a region (R142). -/
def Image.contexts (i : Image) (r : Nat) : Nat :=
  ((i.phrases.filter fun p => p.region == r && decide (p.cls ≤ 1)).map fun p => (p.sentences.map p.ctxNeed).sum).sum

end Sys2Proof

namespace Sys2Proof.Machine

/-! ### The image (R142, R175, R198, R374) -/

/-- Every Verb of a region that may store, with its Phrase number and Sentence. -/
def State.writers (s : State) (i : Image) (r : Nat) : List ((Nat × Option Nat) × List (Nat × Nat)) :=
  (i.phrases.filter fun p => p.region == r).flatMap fun p =>
    (p.verbs.map fun v => ((p.num, v.sentence.map Prod.fst), s.stores p v)).filter fun q => !q.2.isEmpty
/-- No two Verbs may store to one word, unless both belong to one Sentence (R175). -/
def oneWriter : List ((Nat × Option Nat) × List (Nat × Nat)) → Bool
  | [] => true
  | q :: t => (t.all fun q' => (q.1.2.isSome && q.1 == q'.1) || !(q.2.any fun a => q'.2.any (overlap a))) && oneWriter t
/-- The poles of a section with denominator words a1 and a2 lie inside the unit circle (R198). -/
def polesIn (a1 a2 : W32) : Bool := decide (a2.toInt.natAbs < 2 ^ 30) && decide ((a1.toInt.natAbs : Int) < 2 ^ 30 + a2.toInt)
/-- Every such section's coefficient words in region memory meet R198. -/
def State.polesOk (s : State) (i : Image) : Bool :=
  i.sections.all fun q =>
    let o := s.rd (rf q.1 Rgn.LOOP_BASE_BASE) + 0x140 * q.2.1 + 0x20 + 32 * q.2.2
    polesIn (s.rgnWord q.1 (o + 12)) (s.rgnWord q.1 (o + 16))
/-- Every check of an image load but its signature, its version and the poles. -/
def State.imageShape (s : State) (i : Image) : Bool :=
  (i.phrases.all fun p => decide (p.region < s.dies) && p.ok s.period (s.rd Reg.BEACON_LEAD_LEAD)) &&
  (List.range s.dies).all fun r =>
    decide (i.contexts r ≤ 12) && oneWriter (s.writers i r) && decide (4 * (i.mirroredOf r).length ≤ 6080)

/-- IMAGE_LOAD (R416, R438): `i` is what the buffer holds, none where its read fails. In M1 the image comes into force, in another mode it becomes the one
candidate. The result is the image number, which the manual does not say how to form. DETAIL of a failure is POLE_OUTSIDE where only the poles fail (R198), and
otherwise the offset of the error in a file whose layout the manual does not give (log entry 3, DESIGN CHOICE). -/
def State.imageLoad (s : State) (i : Option Image) : State × Nat × Nat × Nat :=
  match i with
  | none => (s, Cpl.DMA_ERROR, 0, 0)
  | some i =>
    if !s.trusts i || !s.imageShape i then (s.used, Cpl.IMAGE_ERROR, 0, s.freeVal.toNat % 2 ^ 32)
    else if !s.polesOk i then (s, Cpl.IMAGE_ERROR, 0, Rsn.POLE_OUTSIDE)
    else
      let n := s.freeVal.toNat % 2 ^ 32
      let s := s.used
      if s.modeNo == 1 then (s.putImage i n, Cpl.OK, n, 0) else ({ s with candidate := some (n, i) }, Cpl.OK, n, 0)
def execImageLoad (c : HostCmd) (i : Option Image) (s : State) : Host.Outcome State Fault Refusal :=
  .next (s.command c 0x04 fun s => s.imageLoad i)

/-- BOOT_IMAGE_LOAD (R438): with BOOT 1 the stored image, if there is one, is verified and M2 is requested; one that breaks a check of an image load is refused too
(R133, R136, R142, R147, R185, R198). -/
def State.bootImage (s : State) (i : Option Image) : State :=
  if s.modeNo != 1 || s.rd Reg.BOOT_STAT_BOOT != 1 || s.imageSet then s
  else match i with
    | some i => if s.trusts i && s.imageShape i && s.polesOk i then (s.putImage i 0).request { who := .warden, target := 2 } else s.wr Reg.BOOT_STAT_ERR 5
    | none => s.wr Reg.BOOT_STAT_ERR 5
def execBootImageLoad (i : Option Image) (s : State) : Host.Outcome State Fault Refusal := .next (s.bootImage i)

end Sys2Proof.Machine
end

