-- ==== Sys2Proof/Machine/ClauseChk.lean ====
section
/-! DEFINITION. The checks of a Clause (R425): the items, the state with them applied, and each check in the order of its code. -/

namespace Sys2Proof.Machine

/-! ### The register map by word (R482 to R487) -/

/-- What the word at a BAR0 offset belongs to: 0 the chip, 1 a region, 2 a tree, 3 an arm; with the offset of that block's table (R482, R483). -/
def basPlace (a : Nat) : Nat × Nat :=
  if a < 0x100000 then (0, 0)
  else
    let r := (a - 0x100000) / 0x40000
    let b := rgnBase r
    let o := a - b
    if 0x1000 ≤ o && decide (o < 0x1600) then (2, b + 0x1000 + (o - 0x1000) / 0x30 * 0x30)
    else if 0x2000 ≤ o && decide (o < 0x2140) then (3, b + 0x2000 + (o - 0x2000) / 0x50 * 0x50)
    else (1, b)
/-- The fields of a kind of block. -/
def basTable : Nat → List Fld
  | 0 => Reg.table
  | 1 => Rgn.table
  | 2 => Tree.table
  | _ => Arm.table
/-- The fields of the word at `a` as their table has them, and the offset of the block, for `n` region dies. -/
def basWord (n a : Nat) : Nat × List Fld :=
  let p := basPlace a
  if 0x100000 + n * 0x40000 ≤ a then (0, []) else (p.2, (basTable p.1).filter fun f => (f.at p.2).inWord a)
/-- The fields of the word at `a`. -/
def basFields (n a : Nat) : List Fld := (basWord n a).2.map fun f => f.at (basWord n a).1
/-- Selectors, and the registers that a selector windows (R486). -/
def isSelector (a : Nat) : Bool := a == 0x20 || a == 0x2010 || a == 0x2024
def isWindow (a : Nat) : Bool :=
  (decide (0x28 ≤ a) && decide (a < 0x44)) || (decide (0x2014 ≤ a) && decide (a < 0x2024)) || a == 0x2028 || a == 0x202C

/-- The ranges of the chip's RW and RWC fields that do not take every value of their width (R488 to R494). -/
def chipRanges : List (Fld × Nat × Nat) :=
  [(Reg.HOST_CFG_CMD_MAX, 1, 256), (Reg.HOST_CFG_FAIL_N, 1, 15), (Reg.HOST_DB_POLL_INT, 10, 10000), (Reg.TIME_INCR_INCR, 0x07FEF9DB23, 0x08010624DD),
    (Reg.TIME_CTL_STEP_MAX_RUN, 0, 1000), (Reg.TIME_CTL_PEER_TOL, 0, 1000), (Reg.CTRL_PERIOD_NS, 5000, 50000), (Reg.BEACON_LEAD_LEAD, 500, 20000),
    (Reg.PPS_OUT_CFG_WIDTH, 1, 500000), (Reg.TEVT_OUT_CFG_WIDTH, 1, 131071)] ++
  [(Reg.MIRR_CFG_LOSS_N, 1, 15), (Reg.MIRR_CFG_CLAIM_N, 1, 15), (Reg.MIRR_CFG_MISS_N, 1, 15), (Reg.MIRR_CFG_CLAIM_TMO, 1, 255), (Reg.MODE_RT_HOLD, 1, 65535),
    (Reg.PWR_CFG_RESUME_TMO, 1, 100), (Reg.PWR_CFG_IDLE_DLY, 1, 60000), (Reg.PWR_CFG_RETRY_INT, 1, 60000), (Reg.WAKE_CFG_SEV, 1, 7),
    (Reg.AVS_CFG_CLK, 1, 20), (Reg.AVS_CFG_ACK_TMO, 10, 10000), (Reg.AVS_CFG_RETRY, 1, 7), (Reg.AVS_CFG_INT, 10, 1000), (Reg.AVS_CFG_STEP, 1, 20),
    (Reg.AVS_CFG_MARGIN, 0, 50), (Reg.AVS_LIM_MIN, 600, 900), (Reg.AVS_LIM_MAX, 600, 900), (Reg.AVS_TGT_GLIM, 600, 900), (Reg.AVS_TGT_DORM, 600, 900),
    (Reg.AVS_TGT_SERDES, 750, 950), (Reg.AVS_TGT_SER_DORM, 600, 950), (Reg.AVS_CAL_INT, 1, 3600)] ++
  [(Reg.ENUM_CFG_OFS_N, 1, 60), (Reg.ENUM_CFG_ADDR_MAX, 16, 4096), (Reg.ENUM_CFG_TRY, 1, 7), (Reg.ENUM_CFG_TMO, 10, 600000), (Reg.CFLT_TRIPIN_FILT, 0, 125),
    (Reg.CFLT_TRIPOUT_SEV0, 1, 7), (Reg.CFLT_TRIPOUT_SEV1, 1, 7), (Reg.CFLT_TRIPOUT_SEV2, 1, 7), (Reg.CFLT_TRIPOUT_SEV3, 1, 7),
    (Reg.CFLT_REC_QUIET_TIME, 1, 60000), (Reg.CFLT_REC_THR, 1, 7), (Reg.CFLT_REC_REC_LIMIT, 1, 15), (Reg.CFLT_REC_REC_WINDOW, 1, 86400)]
/-- The same of a region (R495, R498 to R500). -/
def rgnRanges : List (Fld × Nat × Nat) :=
  [(Rgn.DISP_CFG_STEAL_DELAY, 0, 1000), (Rgn.DISP_CFG_XSTEAL_DELAY, 250, 10000), (Rgn.DISP_DL_REPEAT_N, 1, 15), (Rgn.RANK_CFG_PRED_MAX, 1, 255),
    (Rgn.RANK_CEST_TC, 4, 16), (Rgn.RANK_CEST_REJ, 1, 4), (Rgn.RANK_CEST_TOL, 1, 50), (Rgn.RANK_CEST_DV, 8, 4095), (Rgn.FLT_TJ_WARN, 0, 125),
    (Rgn.FLT_TJ_CRIT, 0, 125), (Rgn.MEAS_CFG_MAX_AGE, 100, 10000), (Rgn.MEAS_CFG_STALE_N, 1, 15), (Rgn.PWR_GLIM_INT, 1, 1000)]
/-- The same of a tree (R496). -/
def treeRanges : List (Fld × Nat × Nat) :=
  [(Tree.TREE_SLOTS_N, 1, 128), (Tree.TREE_SLOTS_START, 1200, 16000), (Tree.TREE_RR_DRIFT_TOL, 1, 63), (Tree.TREE_RR_RR_MIN, 1, 16),
    (Tree.TREE_RR_MISS_N, 1, 15), (Tree.TREE_RR_LOST_N, 1, 15), (Tree.TREE_MGMT_TMO, 8, 1024), (Tree.TREE_MGMT_EXTRA, 0, 8)]
/-- The same of an arm (R497). -/
def armRanges : List (Fld × Nat × Nat) :=
  [(Arm.ARM_HOVR_TOL_TOL, 0, 0x7FFFFFFF), (Arm.ARM_HOVR_SLEW_SLEW, 1, 0x7FFFFFFF), (Arm.ARM_FF_HOLD_N, 1, 1023), (Arm.ARM_RANK_I_IDX, 0, 6),
    (Arm.ARM_RANK_TIE_Q, 0, 8), (Arm.ARM_CAL_PER_ARM, 0, 16), (Arm.ARM_CAL_INTERVAL, 10, 24), (Arm.ARM_CAL_TMO, 4, 255), (Arm.ARM_SEL_N_MIN, 0, 4096),
    (Arm.ARM_SEL_IDEAD, 0, 0x7FFFFFFF), (Arm.ARM_EDGE_BASE, 0, 4000), (Arm.ARM_EDGE_MAX, 0, 4000), (Arm.ARM_EDGE_GROUP, 1, 64)]
/-- The signed fields with a range: the greatest magnitude. -/
def chipSigned : List (Fld × Nat) :=
  [(Reg.PPS_OUT_CFG_OFFSET, 4000), (Reg.STN_LAT0_TX_ADJ, 8192), (Reg.STN_LAT1_TX_ADJ, 8192), (Reg.STN_LAT0_RX_ADJ, 8192), (Reg.STN_LAT1_RX_ADJ, 8192)]
/-- The offsets within a period, which stay below CTRL_PERIOD.NS. -/
def chipBelowT : List Fld := [Reg.EPOCH_PHASE_PHASE, Reg.MIRR_CFG_APPLY, Reg.HOST_DB_OFS, Reg.STN_GOOSE_OFS]
/-- Whether a value lies in the range that a list gives a field. -/
def inRanges (l : List (Fld × Nat × Nat)) (f : Fld) (v : Nat) : Bool :=
  match l.find? fun q => q.1 == f with
  | some (_, lo, hi) => decide (lo ≤ v) && decide (v ≤ hi)
  | none => true
/-- Whether field `f` of the table of kind `k` has a value in its range, under the period `t`. -/
def basFits (t k : Nat) (f : Fld) (v : Nat) : Bool :=
  match k with
  | 0 =>
    if f == Reg.ENUM_CFG_SPREAD then [1, 2, 4, 8, 16, 32, 64].contains v
    else if chipBelowT.contains f then decide (v < t)
    else if f == Reg.STN_TAB_BASE_BASE then v % 4 == 0
    else match chipSigned.find? fun q => q.1 == f with
      | some (_, m) => decide ((sext f.width v).natAbs ≤ m)
      | none => inRanges chipRanges f v
  | 1 =>
    if f == Rgn.RANK_BASE_BASE then v % 0x40000 == 0 && decide (v < 0x740000)
    else if f == Rgn.ENUM_MAP_BASE_BASE then v % 0x10000 == 0 && decide (v < 0x7F0000)
    else if f == Rgn.CELL_ID_BASE_BASE then v % 0x40000 == 0 && decide (v < 0x7C0000)
    else if f == Rgn.LOOP_BASE_BASE || f == Rgn.MEAS_TAB_BASE_BASE then v % 4 == 0
    else if f == Rgn.MEAS_LATCH_LATCH then decide (v < t)
    else inRanges rgnRanges f v
  | 2 => if f == Tree.TREE_ASYM_ASYM then decide ((sext 15 v).natAbs ≤ 16383) else inRanges treeRanges f v
  | _ => if f == Arm.ARM_PBASE_BASE then v % 4 == 0 else inRanges armRanges f v

/-! ### The state with a Clause's items applied (R424, R430) -/

/-- A word of a parameter block: Y_LAST and LIM_DIR keep their values (R211). -/
def State.clauseWord (s : State) (r : Nat) (q : Nat × W32) : State :=
  match s.loopWord r q.1 with
  | some (_, o) => if o = 8 || o = 12 then s else s.setWord r q.1 q.2
  | none => s.setWord r q.1 q.2
/-- A register write of a Clause (R487). -/
def State.clauseReg (s : State) (off : Nat) (m v : W32) : State :=
  { s with regs := s.regs.stage (basFields s.dies off) off m.toNat v.toNat }
/-- The register writes and the parameter blocks, in this order (R430, step 1). -/
def State.putRegs (s : State) (l : List Item) : State :=
  l.foldl (fun s i => match i with | .regWrite o m v => s.clauseReg o m v | _ => s) s
def State.putParams (s : State) (l : List Item) : State :=
  l.foldl (fun s i => match i with | .param r ad b => (paramWords ad b).foldl (fun s q => s.clauseWord r q) s | _ => s) s
/-- The loop commands (R430, step 4). -/
def State.putLoops (s : State) (l : List Item) : State :=
  l.foldl (fun s i => match i with | .loopCmd r l a => s.loopAct r l a | _ => s) s
/-- The image in force once the candidate is selected. -/
def State.putSelect (s : State) (l : List Item) : State :=
  l.foldl (fun s i => match i, s.candidate with
    | .imageSelect n, some (k, im) => if k = n then { s with image := im, imageSet := true } else s
    | _, _ => s) s
/-- Everything but the loop commands, and everything. -/
def State.preview (s : State) (l : List Item) : State := ((s.putRegs l).putParams l).putSelect l
def State.previewAll (s : State) (l : List Item) : State := (s.preview l).putLoops l
/-- The state a staged Clause is checked against: the armed Clause applied, and the loop commands that wait for the next epoch. -/
def State.checkBase (s : State) : State :=
  let s := (List.range s.dies).foldl (fun s r => (loopLast (s.rgn r).loopReq).foldl (fun s q => s.loopAct r q.1 q.2) s) s
  match s.clause.armed with
  | some a => s.previewAll a.items
  | none => s

/-! ### Cells a Clause names (R423) -/

/-- The cell of the network that holds a global index on this unit's port. -/
def State.physOf (s : State) (i : Nat) : Nat :=
  match s.cells.find? fun q => (q.2.port (b2n s.unitB)).idx == some i with
  | some q => q.1
  | none => 32768
/-- The global indices a set item names. -/
def State.itemCells (s : State) : Item → List Nat
  | .cellSet i _ _ => [i]
  | .armSet r a _ _ => s.armCells r a
  | _ => []
/-- Every index that the items name, once each. -/
def State.namedCells (s : State) (l : List Item) : List Nat := (l.flatMap s.itemCells).eraseDups
/-- The entries of a set item. -/
def itemEntries : Item → List SetEntry
  | .cellSet _ es _ => es
  | .armSet _ _ es _ => es
  | _ => []
/-- Whether an item is a cell set, and its kinds beside. -/
def isSet : Item → Bool
  | .cellSet .. => true
  | .armSet .. => true
  | _ => false
def isSelect : Item → Bool
  | .imageSelect _ => true
  | _ => false
/-- Registers of a cell with the armed Clause's entries and those of `l` for it applied. -/
def State.cellAfter (s : State) (l : List Item) (i : Nat) : Regs :=
  let arm := s.cellArm i
  let g := (s.cell (s.physOf i)).regs
  let put (es : List SetEntry) (g : Regs) : Regs := ({ id := 0, epoch := 0, entries := es } : CellSet).onRegs g
  let g := match s.clause.armed with | some a => put (armedEntries a.items i arm) g | none => g
  put (armedEntries l i arm) g

/-- Item 0xFFFF: no one item breaks the check (R418). -/
def noItem : Nat := 0xFFFF
/-- The first item that breaks a check. -/
def firstItem (l : List Item) (bad : Item → Bool) : Option Nat := l.findIdx? bad
/-- A check that no one item breaks. -/
def whole (bad : Bool) : Option Nat := if bad then some noItem else none

/-! ### Checks 0x01 to 0x07 -/

/-- IMAGE_ERROR: image select names no verified candidate, or an address context breaks R185. -/
def State.chkImage (s : State) (l : List Item) : Option Nat :=
  firstItem l fun i => match i with
    | .imageSelect n => (match s.candidate with | some (k, im) => k != n || !im.phrases.all fun p => p.ctx.ok | none => true)
    | _ => false

/-- Whether a global index names a cell (R47). -/
def State.indexOk (s : State) (i : Nat) : Bool :=
  decide (idxRegion i < s.dies) && s.on (tf (idxRegion i) (idxTree i) Tree.TREE_CFG_EN) && decide (idxSlot i < s.slotsN (idxRegion i) (idxTree i))
/-- Whether a die-table entry names a position and die that the table of cell `c` declares (R47, R510). -/
def State.endPointOk (s : State) (c : Nat) (e : SetEntry) : Bool :=
  !e.die || (s.declared c e.pos.toNat && (e.addr.toNat < 32 || decide ((e.addr.toNat - 32) / 8 < s.nDies c e.pos.toNat)))
/-- INDEX_INVALID (R47). -/
def State.chkIndex (p : State) (l : List Item) : Option Nat :=
  firstItem l fun i => match i with
    | .param r _ _ => decide (p.dies ≤ r)
    | .cellSet c es _ => !p.indexOk c || es.any fun e => !p.endPointOk (p.physOf c) e
    | .armSet r a es _ => decide (p.dies ≤ r) || decide (4 ≤ a) || (p.armCells r a).any fun c => es.any fun e => !p.endPointOk (p.physOf c) e
    | .loopCmd r k _ => decide (p.dies ≤ r) || decide (64 ≤ k)
    | .armEnable r a => decide (p.dies ≤ r) || decide (4 ≤ a)
    | _ => false

/-- The arms of the unit, with or without trees. -/
def State.everyArm (s : State) : List (Nat × Nat) := (List.range s.dies).flatMap fun r => (List.range 4).map fun a => (r, a)
/-- MEMBERSHIP (R34, R49, R520). -/
def State.chkMember (b p : State) (l : List Item) : Option Nat :=
  let shared := (List.range 32).any fun k => 2 ≤ ((List.range 8).filter fun c => (p.rd (convFld c)).testBit k).length
  let emptied := b.epochs && p.everyArm.any fun q =>
    !b.armBlocked q.1 q.2 && !(b.armTrees q.1 q.2).isEmpty && (p.armTrees q.1 q.2).isEmpty
  let lanes := p.unitArms.any fun q => (p.armChans q.1 q.2).any fun ch => p.on (tf q.1 (24 + ch / 4) Tree.TREE_CFG_EN)
  match firstItem l fun i => match i with | .armEnable r a => (p.armTrees r a).isEmpty | _ => false with
  | some n => some n
  | none => whole (shared || emptied || lanes)

/-- SLOT_PLAN (R112), with the ranged delays in force. -/
def State.chkPlan (p : State) : Option Nat := whole (p.allTrees.any fun q => !p.treeFits q.1 q.2)

/-- Whether a section of the words at a loop, one that its LCFG counts, breaks R198. -/
def State.loopPoles (p : State) (r k : Nat) : Bool :=
  let lb := p.loopAt r k
  (List.range (min 8 (bits (p.rgnWord r lb).toNat 0 4))).any fun i =>
    !polesIn (p.rgnWord r (lb + 0x20 + 32 * i + 12)) (p.rgnWord r (lb + 0x20 + 32 * i + 16))
/-- POLE_OUTSIDE (R198): the loops whose words a parameter block writes, and the sections of an image selected. -/
def State.chkPoles (p : State) (l : List Item) : Option Nat :=
  firstItem l fun i => match i with
    | .param r ad b => (List.range 64).any fun k => overlap (ad, b.length) (p.loopAt r k, 0x130) && p.loopPoles r k
    | .imageSelect _ => !p.polesOk p.image
    | _ => false

/-- Whether some cell of a set item meets a condition on its entries and its registers after the Clause. -/
def State.anyCell (p : State) (l : List Item) (f : Nat → List SetEntry → Regs → Bool) (i : Item) : Bool :=
  (p.itemCells i).any fun c => f (p.physOf c) (itemEntries i) (p.cellAfter l c)
/-- DEAD_TIME_LOW (R269). -/
def State.chkDead (p : State) (l : List Item) : Option Nat := firstItem l (p.anyCell l fun c es g => p.setDeadTime c es g)

/-- Whether a parameter block changes a coefficient or state word of a CLOSED loop of `b`. -/
def State.changesClosed (b : State) (i : Item) : Bool :=
  match i with
  | .param r ad d => (paramWords ad d).any fun q =>
      match b.loopWord r q.1 with
      | some (k, o) => b.loopClosed r k && loopGuarded o && b.rgnWord r q.1 != q.2
      | none => false
  | _ => false
/-- Whether any such word of loop `k` differs between two states, LOOP_BASE included. -/
def loopDiffers (b p : State) (r k : Nat) : Bool :=
  (List.range 80).any fun i => loopGuarded (4 * i) && b.rgnWord r (b.loopAt r k + 4 * i) != p.rgnWord r (p.loopAt r k + 4 * i)
/-- LOOP_CLOSED (R212): `p` has no loop command applied. -/
def chkClosed (b p : State) (l : List Item) : Option Nat :=
  match firstItem l b.changesClosed with
  | some n => some n
  | none => whole ((List.range b.dies).any fun r => (List.range 64).any fun k => b.loopClosed r k && loopDiffers b p r k)

/-! ### Checks 0x08 to 0x0A -/

/-- The heaviest dependency chain of Sentence `x` that ends at each Verb of a Phrase, as (weight, Verbs on it), with weight cost + 44 each (R149): it starts at a
Verb of the Sentence that is ready at the trigger, and passes from each Verb to one of the Sentence that takes its operand. (0, 0) where there is none. -/
def chainsOf (l : List VerbDecl) (x : Nat) : List (Nat × Nat) :=
  let own (v : VerbDecl) : Bool := match v.sentence with | some y => y.1 == x | none => false
  let start (v : VerbDecl) : Bool := v.inputs.all fun i => match i with | .verb .. => false | .const _ => true
  (List.range l.length).foldl (fun (tab : List (Nat × Nat)) _ =>
    l.map fun v =>
      let best := v.inputs.foldl (fun (b : Nat × Nat) i => match i with
        | .verb k _ => let y := tab.getD k (0, 0); if b.1 < y.1 then y else b
        | .const _ => b) (0, 0)
      if own v && (start v || 0 < best.2) then (best.1 + v.cost + 44, best.2 + 1) else (0, 0)) (l.map fun _ => (0, 0))
/-- The heaviest chain of Sentence `x` of a Phrase. Of chains of one weight the first found, which R149 does not choose, gives occ_path (log entry 99, DESIGN
CHOICE). -/
def sentenceChain (l : List VerbDecl) (x : Nat) : Nat × Nat :=
  (chainsOf l x).foldl (fun (b : Nat × Nat) q => if b.1 < q.1 then q else b) (0, 0)
/-- The engine time of one activation: cost + 30 for each Verb (R149, R156). -/
def actCost (l : List VerbDecl) : Nat := (l.map fun v => v.cost + 30).sum
/-- The latest instant, from the epoch, at which the triggering entry of a Phrase is posted: 100 ns after MEAS_LATCH for a sample entry (R190), the offset of a timer. -/
def State.trigAt (p : State) (r : Nat) (t : Trig) : Nat :=
  match t with
  | .timer _ o => o
  | _ => p.rd (rf r Rgn.MEAS_LATCH_LATCH) + 100
/-- The earliest instant of the same: at MEAS_LATCH for a sample entry (R189), at any time for reports and station arrivals. -/
def State.trigFrom (p : State) (r : Nat) (t : Trig) : Nat :=
  match t with
  | .timer _ o => o
  | .sample _ => p.rd (rf r Rgn.MEAS_LATCH_LATCH)
  | _ => 0
/-- The work of levels 0 to 3 that can occupy cluster `c` of region `r` between `t` and `d` (R149): of the class-1 Phrases homed there those triggered by `d` whose
deadline is not before `t`, and of the class-0 Phrases of the pair those triggered by `d`, at MAX_ACT activations. -/
def State.imageWork (p : State) (r c t d : Nat) : Nat :=
  (p.image.phrases.map fun f =>
    if f.region != r || decide (d < p.trigFrom r f.trig) then 0
    else if f.cls == 1 && f.home == c && decide (t ≤ f.deadline.getD (lastDeadline p.period (p.rd Reg.BEACON_LEAD_LEAD))) then actCost f.verbs
    else if f.cls == 0 && f.home == c / 2 then f.maxAct * actCost f.verbs
    else 0).sum
/-- The bound of R149 exceeds the deadline of Sentence `x`. -/
def State.lateSentence (p : State) (f : List VerbDecl) (r c x t d : Nat) : Bool :=
  let k := sentenceChain f x
  let w := p.imageWork r c t d
  decide (16 * d < 16 * (t + 6 + 150 + k.1 + 16) + (w - (k.1 - 14 * k.2)))
/-- A class-1 Phrase breaks R147 or R149. -/
def State.phraseLate (p : State) (f : Phrase) : Bool :=
  let lead := p.rd Reg.BEACON_LEAD_LEAD
  f.cls == 1 && (!f.deadlineOk p.period lead || f.sentences.any fun x =>
    p.lateSentence f.verbs f.region f.home x (p.trigAt f.region f.trig) (f.deadline.getD (lastDeadline p.period lead)))
/-- Whether the image, the period or the lead changes. -/
def planChanges (b p : State) (l : List Item) : Bool :=
  l.any isSelect || b.period != p.period || b.rd Reg.BEACON_LEAD_LEAD != p.rd Reg.BEACON_LEAD_LEAD
/-- DEADLINE_INFEASIBLE (R147, R149): of the image that will be in force, and the declared deadlines of the one in force too. -/
def chkDeadline (b p : State) (l : List Item) : Option Nat :=
  whole (planChanges b p l && (p.image.phrases.any p.phraseLate
    || b.image.phrases.any fun f => !f.deadlineOk p.period (p.rd Reg.BEACON_LEAD_LEAD)))

/-- The image bullets of R156 for region `r`. -/
def levelZeroOk (i : Image) (period r : Nat) : Bool :=
  let ps := i.phrases.filter fun p => p.region == r && p.cls == 0
  decide (ps.length ≤ 16) && (List.range 4).all fun k =>
    let qs := ps.filter fun p => p.home == k
    decide ((qs.map fun p => p.width).sum ≤ 32) && decide ((qs.map fun p => p.maxAct * actCost p.verbs).sum ≤ 8 * period)
/-- L0_INFEASIBLE (R156). -/
def chkL0 (b p : State) (l : List Item) : Option Nat :=
  whole ((l.any isSelect || b.period != p.period) && (List.range p.dies).any fun r => !levelZeroOk p.image p.period r)

/-- Whether the wrapper of a Phrase is in COMPARE or SLEW (R214, log entry 27, DESIGN CHOICE). -/
def State.inHandover (s : State) (f : Phrase) : Bool :=
  match f.wrapWords with
  | some w => let st := bits (s.rgnWord f.region w).toNat 1 2; st == 1 || st == 2
  | none => false
/-- The loops of a Phrase: those its BIQ and INT Verbs run, and those of its slots (R214). -/
def loopsOfPhrase (f : Phrase) : List Nat :=
  (f.verbs.filterMap fun v => if v.opc = 0x03 ∨ v.opc = 0x04 then some (v.params.getD 0 0) else none) ++ [f.wrapSlots.getD 2 0, f.wrapSlots.getD 5 0]
/-- HANDOVER_BUSY (R216): a Clause changes a slot of such a wrapper: a loop of it, its preset word, or the image. -/
def chkHandover (b p : State) (l : List Item) : Option Nat :=
  whole (b.image.phrases.any fun f => b.inHandover f && (l.any isSelect || (loopsOfPhrase f).any (loopDiffers b p f.region) || [0, 1].any fun k =>
    let pw := f.wrapSlots.getD (3 * k) 0
    b.rgnWord f.region pw != p.rgnWord f.region pw))

/-! ### Checks 0x0B to 0x10 -/

/-- Whether a Clause writes 1 to ARM_CFG.FB of an arm (R222). -/
def setsFb (l : List Item) (r a : Nat) : Bool :=
  let f := af r a Arm.ARM_CFG_FB
  l.any fun i => match i with
    | .regWrite o m v => f.inWord o && Nat.land (f.cover o) (Nat.land m.toNat v.toNat) != 0
    | _ => false
/-- MOD_INVALID (R217, R222). A configured slot that no cell holds has no die table. -/
def chkMod (b p : State) (l : List Item) : Option Nat :=
  whole (p.everyArm.any fun q =>
    let f := af q.1 q.2
    (p.on (f Arm.ARM_CFG_MOD) && 64 < (p.armCells q.1 q.2).length
      && (!b.on (f Arm.ARM_CFG_MOD) || b.armCells q.1 q.2 != p.armCells q.1 q.2))
    || (setsFb l q.1 q.2
      && (p.armCells q.1 q.2).any fun c => let x := p.physOf c; x != 32768 && !(p.declared x 2 && p.declared x 3)))
/-- SEL_INVALID (R247). -/
def chkSel (p : State) : Option Nat := whole (p.everyArm.any fun q => decide (p.period ≤ 2 * p.rd (af q.1 q.2 Arm.ARM_EDGE_MAX)))
/-- Cells that CARRIER_INVALID and CONV_INVALID are judged for: those named, and every cell of this unit where the period changes. -/
def ratedCells (b p : State) (l : List Item) : List Nat :=
  p.namedCells l ++ (if b.period != p.period then p.cells.filterMap fun (q : Nat × CellSt) => (q.2.port (b2n p.unitB)).idx else [])
/-- CARRIER_INVALID (R258). -/
def chkCarrier (b p : State) (l : List Item) : Option Nat :=
  whole ((ratedCells b p l).any fun c => p.period % (4 * max 1 ((p.cellAfter l c).rd Els.PWM_CAR_RATIO)) != 0)
/-- CONV_INVALID (R312). -/
def chkConv (b p : State) (l : List Item) : Option Nat :=
  whole ((ratedCells b p l).any fun c => p.period % (50 * max 1 ((p.cellAfter l c).rd Els.CV_CFG_OSR)) != 0)
/-- LEASE_INVALID (R368). -/
def State.chkLease (p : State) (l : List Item) : Option Nat := firstItem l (p.anyCell l fun _ es g => setLease es g)

/-- The blocks of a STATE frame of `n` payload bytes (R376). -/
def stateBlocks (n : Nat) : Nat := ceilDiv (n + 48) 8 + 2
/-- The blocks of the STATE frames of `n` bytes of a region, in frames of at most 1,024 (R374, R376). -/
def regionBlocks (n : Nat) : Nat := n / 1024 * stateBlocks 1024 + (if n % 1024 = 0 then 0 else stateBlocks (n % 1024))
/-- The blocks of one period's copy: map entries, arm blocks and mirrored words of each region. -/
def State.copyBlocks (p : State) : Nat :=
  ((List.range p.dies).map fun r => regionBlocks (2048 + 64 + 4 * (p.image.mirroredOf r).length)).sum + 12
/-- MIRROR_INFEASIBLE (R375, R376). -/
def chkMirror (b p : State) (l : List Item) : Option Nat :=
  let ap := p.rd Reg.MIRR_CFG_APPLY
  whole ((planChanges b p l || b.rd Reg.MIRR_CFG_APPLY != ap) &&
    (((List.range p.dies).any fun r => decide (p.rd (rf r Rgn.MEAS_LATCH_LATCH) ≤ ap))
      || decide (100 * (p.rd Reg.BEACON_LEAD_LEAD + 500 + ap) < 64 * p.copyBlocks + 25 * p.rd Reg.MIRR_LAT_LAT)))

end Sys2Proof.Machine
end

