-- ==== Sys2Proof/Machine/Clause.lean ====
section
/-! DEFINITION. Clauses (R423 to R431): the remaining checks, the commands of a ring, the commit point, the epoch, and the closed record. -/

namespace Sys2Proof.Machine

/-! ### Checks 0x11 to 0x14 -/

/-- A field that the tables keep below CTRL_PERIOD.NS is not below it (R425, R488 to R499). -/
def State.beyondPeriod (p : State) : Bool :=
  (chipBelowT.any fun f => decide (p.period ≤ p.rd f)) || (List.range p.dies).any fun r => decide (p.period ≤ p.rd (rf r Rgn.MEAS_LATCH_LATCH))
/-- A register write breaks R487, or leaves a field outside its range. -/
def State.regItemBad (p : State) (o : Nat) (m : W32) : Bool :=
  let w := basWord p.dies o
  let cover := coverOf (w.2.map fun f => f.at w.1) o fun f => f.acc == .rw || f.acc == .rwc
  o % 4 != 0 || isSelector o || isWindow o || cover == 0 || Nat.land m.toNat cover != m.toNat
    || (w.2.any fun f => Nat.land ((f.at w.1).cover o) m.toNat != 0 && !basFits p.period (basPlace o).1 f (p.rd (f.at w.1)))
    || (Nat.land (Reg.CTRL_PERIOD_NS.cover o) m.toNat != 0 && p.beyondPeriod)
/-- The blocks of R501 of region `r`, as (base, bytes). -/
def State.rgnBlocks (p : State) (r : Nat) : List (Nat × Nat) :=
  [(p.rd (rf r Rgn.RANK_BASE_BASE), 0xC0000), (p.rd (rf r Rgn.ENUM_MAP_BASE_BASE), 0xC000), (p.rd (rf r Rgn.CELL_ID_BASE_BASE), 0x40000),
    (p.rd (rf r Rgn.LOOP_BASE_BASE), 0x5000), (p.rd (rf r Rgn.MEAS_TAB_BASE_BASE), 0x280)] ++
  (List.range 4).map fun a => (p.rd (af r a Arm.ARM_PBASE_BASE), 0x100)
/-- No two ranges of a list share a byte. -/
def disjoint : List (Nat × Nat) → Bool
  | [] => true
  | x :: t => (t.all fun y => !overlap x y) && disjoint t
/-- Whether region `r` breaks R501. -/
def State.blocksBad (p : State) (r : Nat) : Bool :=
  !disjoint (p.rgnBlocks r) || (p.rgnBlocks r).any fun x => decide (0x800000 < x.1 + x.2)
/-- An arm has K_Q or C_NOM at 0. -/
def State.unscaled (p : State) (r a : Nat) : Bool := p.rd (af r a Arm.ARM_RANK_K_Q) == 0 || p.rd (af r a Arm.ARM_RANK_C_NOM) == 0
/-- FIELD_INVALID (R291, R487, R501, and the ranges of the tables), and a parameter block over the rank keeper's memory, which only it writes (R227; log entry 97, DESIGN
CHOICE). -/
def State.chkField (p : State) (l : List Item) : Option Nat :=
  match firstItem l fun i => match i with
      | .regWrite o m _ => p.regItemBad o m
      | .param r ad b => ad % 4 != 0 || b.length % 4 != 0 || decide (0x800000 < ad + b.length)
          || overlap (ad, b.length) (p.rd (rf r Rgn.RANK_BASE_BASE), 0xC0000)
      | .loopCmd _ _ a => decide (2 < a)
      | .armEnable r a => p.unscaled r a
      | i => isSet i && ((itemEntries i).any (fun e => !entryAddrOk e) || p.anyCell l (fun c es g => p.setFields c es g) i) with
  | some n => some n
  | none => whole (((List.range p.dies).any p.blocksBad) || p.unitArms.any fun q => p.unscaled q.1 q.2)

/-- Whether two entries give one word different bits. -/
def entriesClash (x y : SetEntry) : Bool :=
  x.die == y.die && x.pos == y.pos && x.addr == y.addr && (x.mask &&& y.mask &&& (x.value ^^^ y.value)) != 0
/-- Whether two sets for one cell clash. -/
def setsClash (es fs : List SetEntry) (c d : Option W32) : Bool :=
  (es.any fun x => fs.any (entriesClash x)) || match c, d with | some v, some w => v != w | _, _ => false
/-- Whether two items set one field or word to different values. -/
def State.clash (p : State) (i j : Item) : Bool :=
  match i, j with
  | .regWrite o m v, .regWrite o' m' v' => o == o' && (m &&& m' &&& (v ^^^ v')) != 0
  | .param r ad b, .param r' ad' b' => r == r' && (List.range b.length).any fun k =>
      decide (ad' ≤ ad + k) && decide (ad + k < ad' + b'.length) && b.getD k 0 != b'.getD (ad + k - ad') 0
  | .imageSelect n, .imageSelect n' => n != n'
  | .loopCmd r k a, .loopCmd r' k' a' => r == r' && k == k' && a != a'
  | .cellSet c es v, .cellSet c' es' v' => c == c' && setsClash es es' v v'
  | .armSet r a es v, .armSet r' a' es' v' => r == r' && a == a' && setsClash es es' v v'
  | .cellSet c es v, .armSet r a es' v' => (p.armCells r a).contains c && setsClash es es' v v'
  | .armSet r a es v, .cellSet c es' v' => (p.armCells r a).contains c && setsClash es es' v v'
  | _, _ => false
/-- CONFLICT: the first item that clashes with one before it. -/
def State.chkConflict (p : State) (l : List Item) : Option Nat :=
  (List.range l.length).find? fun n => match l[n]? with | some j => (l.take n).any fun i => p.clash i j | none => false

/-- The parameter-block bytes of region `r`. -/
def paramBytes (l : List Item) (r : Nat) : Nat := (l.map fun i => match i with | .param q _ b => if q = r then b.length else 0 | _ => 0).sum
/-- LIMIT (R423). -/
def State.chkLimit (p : State) (l : List Item) : Option Nat :=
  match firstItem l fun i => match i with
      | .param _ _ b => decide (b.length < 4) || decide (65536 < b.length)
      | i => isSet i && decide (40 < (itemEntries i).length) with
  | some n => some n
  | none => whole (decide (4096 < l.length) || ((List.range p.dies).any fun r => decide (262144 < paramBytes l r))
      || (p.namedCells l).any fun c => decide (40 < (armedEntries l c (p.cellArm c)).length))
/-- NOT_OWNER: a cell set in M8, or in M1 to M4. -/
def State.chkOwner (s : State) (l : List Item) : Option Nat :=
  if s.modeNo ≤ 4 || s.modeNo == 8 then firstItem l isSet else none

/-! ### CLAUSE_CHECK (R425, R426) -/

/-- The checks that are made again at the commit point (R428). -/
def recheck (b p : State) (l : List Item) : List (Nat × Option Nat) :=
  [(Rsn.SLOT_PLAN, p.chkPlan), (Rsn.LOOP_CLOSED, chkClosed b p l), (Rsn.HANDOVER_BUSY, chkHandover b p l)]
/-- Every check in table order: `b` the configuration the Clause is checked against, `p` with its items applied but for its loop commands. -/
def State.checks (s b p : State) (l : List Item) : List (Nat × Option Nat) :=
  [(Rsn.IMAGE_ERROR, b.chkImage l), (Rsn.INDEX_INVALID, p.chkIndex l), (Rsn.MEMBERSHIP, b.chkMember p l), (Rsn.SLOT_PLAN, p.chkPlan),
    (Rsn.POLE_OUTSIDE, p.chkPoles l), (Rsn.DEAD_TIME_LOW, p.chkDead l), (Rsn.LOOP_CLOSED, chkClosed b p l), (Rsn.DEADLINE_INFEASIBLE, chkDeadline b p l),
    (Rsn.L0_INFEASIBLE, chkL0 b p l), (Rsn.HANDOVER_BUSY, chkHandover b p l)] ++
  [(Rsn.MOD_INVALID, chkMod b p l), (Rsn.SEL_INVALID, chkSel p), (Rsn.CARRIER_INVALID, chkCarrier b p l), (Rsn.CONV_INVALID, chkConv b p l),
    (Rsn.LEASE_INVALID, p.chkLease l), (Rsn.MIRROR_INFEASIBLE, chkMirror b p l), (Rsn.FIELD_INVALID, p.chkField l), (Rsn.CONFLICT, p.chkConflict l),
    (Rsn.LIMIT, p.chkLimit l), (Rsn.NOT_OWNER, s.chkOwner l)]
/-- The first failure: reason and item. -/
def firstFail (l : List (Nat × Option Nat)) : Option (Nat × Nat) :=
  l.foldr (fun q t => match q.2 with | some n => some (q.1, n) | none => t) none
/-- The first check that the items fail in a state. -/
def State.checkFails (s : State) (l : List Item) : Option (Nat × Nat) :=
  let b := s.checkBase
  firstFail (s.checks b (b.preview l) l)

/-- The segments of a set of `n` entries (R125, R510). -/
def setSegs (n : Nat) : Nat := ceilDiv (8 + 12 * n) 120
/-- S_t (R426): the segments that deliver the sets on tree `t` of region `r`, with a CRC query for each cell of it that an arm set names. -/
def State.treeSegs (p : State) (l : List Item) (r t : Nat) : Nat :=
  let onTree (c : Nat) : Bool := idxRegion c == r && idxTree c == t
  let single := l.filterMap fun i => match i with | .cellSet c _ _ => if onTree c then some c else none | _ => none
  let arms := (l.filterMap fun i => match i with | .armSet q a es _ => if q == r && p.armOf r t == some a then some es else none | _ => none)
  let ones := (single.eraseDups.map fun c => setSegs (armedEntries l c (p.cellArm c)).length).sum
  ones + (if arms.isEmpty then 0 else setSegs (arms.map List.length).sum + (p.treeCells r t).length)
/-- The earliest epoch (R426). -/
def State.earliest (p : State) (l : List Item) : Nat :=
  if l.any isSet then
    p.pn + 3 + p.allTrees.foldl (fun m q => max m (ceilDiv (p.treeSegs l q.1 q.2) (1 + p.rd (tf q.1 q.2 Tree.TREE_MGMT_EXTRA)))) 0
  else p.pn + 2

/-- The entry of a cell set that writes PWM_CAR.PHASE (R510, R514). -/
def phaseEntry (v : Nat) : SetEntry :=
  let f := Els.PWM_CAR_PHASE
  let a := f.lsb / 32 * 4
  ⟨false, 0, BitVec.ofNat 16 a, BitVec.ofNat 32 (f.cover a), BitVec.ofNat 32 (f.part a v)⟩
/-- The carrier interleave (R221, R259): with a Clause that changes the membership or the modulation of an arm, Basath's cell parameter sets write PHASE of its cells,
floor(j × 65,536 / N_CFG) in a PSC arm and 0 in another, unless the Clause sets it. They join the Clause at its check (log entry 93, DESIGN CHOICE), where a cell
set is possible. -/
def State.withInterleave (s : State) (l : List Item) : List Item :=
  let b := s.checkBase
  let p := b.preview l
  if s.modeNo ≤ 4 || s.modeNo == 8 then l
  else l ++ p.everyArm.flatMap fun q =>
    let cells := p.armCells q.1 q.2
    let f := af q.1 q.2 Arm.ARM_CFG_MOD
    if p.on f == b.on f && cells == b.armCells q.1 q.2 then []
    else cells.zipIdx.filterMap fun c =>
      let v := if p.on f then c.2 * 65536 / cells.length else 0
      if writesField (armedEntries l c.1 (p.cellArm c.1)) Els.PWM_CAR_PHASE || (p.cellAfter l c.1).rd Els.PWM_CAR_PHASE == v then none
      else some (.cellSet c.1 [phaseEntry v] none)
/-- CLAUSE_CHECK (R425): the status, the result and DETAIL. A staged Clause that passes becomes checked. -/
def State.clauseCheck (s : State) : State × Nat × Nat × Nat :=
  match s.clause.staged with
  | none => (s, Cpl.BAD_COMMAND, 0, 0)
  | some g =>
    let g := { g with items := s.withInterleave g.items }
    match s.checkFails g.items with
    | some (code, item) => (s, Cpl.CLAUSE_FAILED, 0, code + item % 65536 * 256)
    | none =>
      let e := (s.checkBase.preview g.items).earliest g.items
      let s := (s.wr Reg.CLAUSE_STAT_CHECKED 1).wr Reg.CLAUSE_STAT_EST e
      ({ s with clause := { s.clause with
          staged := some { g with checked := true, checkPn := s.pn, est := e, underArmed := s.clause.armed.isSome } } }, Cpl.OK, e, 0)
def execClauseCheck (c : HostCmd) (s : State) : Host.Outcome State Fault Refusal := .next (s.command c 0x11 State.clauseCheck)

/-! ### CLAUSE_STAGE, CLAUSE_DISCARD (R423, R424) -/

/-- CLAUSE_STAGE (R423): `items` is what the buffer holds, none where its read fails. The result is the number of items staged in all. -/
def State.clauseStage (s : State) (items : Option (List Item)) : State × Nat × Nat × Nat :=
  let waits := match s.clause.staged with | some g => g.checked && s.clause.armed.isSome | none => false
  match items with
  | none => (s, Cpl.DMA_ERROR, 0, 0)
  | some l =>
    if s.mirror.handover.isSome || s.mirror.handoverIn.isSome || waits then (s, Cpl.CLAUSE_BUSY, 0, 0)
    else
      let all := (match s.clause.staged with | some g => g.items | none => []) ++ l
      let s := (s.wr Reg.CLAUSE_STAT_STAGED 1).wr Reg.CLAUSE_STAT_CHECKED 0
      ({ s with clause := { s.clause with staged := some { items := all } } }, Cpl.OK, all.length, 0)
def execClauseStage (c : HostCmd) (items : Option (List Item)) (s : State) : Host.Outcome State Fault Refusal :=
  .next (s.command c 0x10 fun s => s.clauseStage items)
/-- CLAUSE_DISCARD (R424). -/
def execClauseDiscard (c : HostCmd) (s : State) : Host.Outcome State Fault Refusal := .next (s.command c 0x13 fun s => (s.dropStaged, Cpl.OK, 0, 0))

/-! ### The effect of an applied Clause (R430) -/

/-- TREE_CFG.EN and the slot plans as a Clause leaves them (R130, R354): a tree that is disabled or enabled changes state, and a cell outside the
plan is isolated no more. `old`: the state before. -/
def State.treesChanged (s old : State) : State :=
  s.everyTree.foldl (fun s q =>
    let was := old.on (tf q.1 q.2 Tree.TREE_CFG_EN)
    let is := s.on (tf q.1 q.2 Tree.TREE_CFG_EN)
    let s := if was && !is then s.setTree q.1 q.2 0 else if !was && is then s.setTree q.1 q.2 1 else s
    let n := if is then s.slotsN q.1 q.2 else 0
    if (s.tree q.1 q.2).slots.any fun (x : Nat × SlotSt) => x.2.isolated && decide (n ≤ x.1) then
      s.modTree q.1 q.2 fun x => { x with slots := x.slots.map fun (y : Nat × SlotSt) => (y.1, if n ≤ y.1 then { y.2 with isolated := false } else y.2) }
    else s) s
/-- C_EST of the cells that a set item names; each opens a new interval (R236). -/
def State.putCEst (s : State) (l : List Item) : State :=
  l.foldl (fun s i =>
    match (match i with | .cellSet _ _ v => v | .armSet _ _ _ v => v | _ => none) with
    | some v => (s.itemCells i).foldl (fun s c =>
        s.modRank c fun x => { x with cEst := v.toNat, ivl := x.base.map fun b => (b.2, b.1), badPns := [] }) s
    | none => s) s
/-- Image select: the candidate comes into force. Persistent pointers start anew from its address contexts. -/
def State.selectImage (s : State) (l : List Item) : State :=
  l.foldl (fun s i => match i, s.candidate with
    | .imageSelect n, some (k, im) =>
      if k = n then { s.putImage im n with candidate := none, disp := s.disp.map fun (q : Nat × DispSt) => (q.1, { q.2 with ptrs := [] }) } else s
    | _, _ => s) s
/-- An arm enable (R354): it acts if the Clause was armed after the arm's last block decision and none falls in the collection tick of now. A decision that comes later
in that tick finds the cause kept. -/
def State.enableArm (s : State) (armedAt r a : Nat) : State :=
  let ok := match (s.armSt r a).blockAt with | some b => decide (b < armedAt) && b / 8 != s.collTick | none => true
  if ok && s.armBlocked r a then
    let s := { s with arms := fmod {} (armKey r a) (fun x =>
      { x with enabledAt := some (s.collTick, s.rd (af r a Arm.ARM_BLK_LEVEL), s.rd (af r a Arm.ARM_BLK_SOURCE)) }) s.arms }
    (((s.wr (af r a Arm.ARM_BLK_BLOCKED) 0).wr (af r a Arm.ARM_BLK_LEVEL) 0).wr (af r a Arm.ARM_BLK_SOURCE) 0).wr (af r a Arm.ARM_BLK_MANY) 0
  else s
def State.putEnables (s : State) (armedAt : Nat) (l : List Item) : State :=
  l.foldl (fun s i => match i with | .armEnable r a => s.enableArm armedAt r a | _ => s) s
/-- TIME_INCR as the register writes of a Clause leave it: a value outside its range is not taken (R60). -/
def State.keepIncr (s old : State) : State :=
  if incrOk (s.rd Reg.TIME_INCR_INCR) then s else (s.wr Reg.TIME_INCR_INCR (old.rd Reg.TIME_INCR_INCR)).wr Reg.TIME_STAT_INCR_REFUSED 1
/-- The items take effect, in the order of R430. -/
def State.applyItems (s : State) (armedAt : Nat) (l : List Item) : State :=
  let t := ((((s.putRegs l).keepIncr s).putParams l).treesChanged s).joinArms s
  ((((t.putCEst l).driftAll.selectImage l).putEnables armedAt l).putLoops l)

/-! ### CLAUSE_ARM (R426, R427) -/

/-- The identifier after `n`: modulo 4,096, skipping 0 (R426). -/
def nextClause (n : Nat) : Nat := if 4095 ≤ n then 1 else n + 1
/-- The broadcast of an arm set on each tree of the arm: the entries of every set of that arm (R427). -/
def State.sendArm (s : State) (l : List Item) (id e r a : Nat) : State :=
  let es := l.flatMap fun i => match i with | .armSet q b es _ => if q = r && b = a then es else [] | _ => []
  (s.armTrees r a).foldl (fun s t => s.modTree r t fun x => x.queue 4 0 true (setPayload id e es) (.clauseSet (cellIndex r t 0))) s
/-- The delivery of an armed Clause starts (R427): its broadcasts, then a CRC query to each cell that only an arm set names, and a set to each other. -/
def State.deliver (s : State) (l : List Item) (id e : Nat) : State :=
  let arms := (l.filterMap fun i => match i with | .armSet r a _ _ => some (r, a) | _ => none).eraseDups
  let s := arms.foldl (fun s q => s.sendArm l id e q.1 q.2) s
  (s.namedCells l).foldl (fun s c =>
    if l.any fun i => match i with | .cellSet d _ _ => d == c | _ => false then s.sendSet c
    else s.modTree (idxRegion c) (idxTree c) fun x => x.queue 5 (idxSlot c) false (leBytes 2 id) (.crcQuery c)) s
/-- Whether epoch `e` is too early or too late for a checked Clause (R426). -/
def State.epochBad (s : State) (g : Staged) (e : Nat) : Bool :=
  decide (e < g.est + (s.pn - g.checkPn)) || (match s.clause.lastOutcome with | some o => decide (e < o + 16) | none => false) || decide (s.pn + 2 ^ 24 < e)
/-- CLAUSE_ARM (R426). In M1 to M4 epoch 0 applies the items at once. -/
def State.clauseArm (s : State) (e : Nat) : State × Nat × Nat × Nat :=
  let early := (s, Cpl.CLAUSE_FAILED, 0, Rsn.EPOCH_TOO_EARLY + noItem * 256)
  if s.clause.armed.isSome then (s, Cpl.CLAUSE_BUSY, 0, 0)
  else match s.clause.staged with
  | none => (s.used, Cpl.CLAUSE_FAILED, 0, s.freeVal.toNat % 2 ^ 32)
  | some g =>
    if !g.checked then (s.used, Cpl.CLAUSE_FAILED, 0, s.freeVal.toNat % 2 ^ 32)
    else
      let id := s.clause.nextId
      let took (s : State) : State :=
        let s := ((s.dropStaged.wr Reg.CLAUSE_STAT_ID id).wr Reg.CLAUSE_STAT_EPOCH e)
        { s with clause := { s.clause with nextId := nextClause id } }
      if s.modeNo ≤ 4 then
        if e != 0 then early
        else (((took s).applyItems (s.ns + 1) g.items).clauseRecord 0 0 id noItem 0 none 0 0, Cpl.OK, id, 0)
      else if s.epochBad g e then early
      else
        let cells := (s.namedCells g.items).map fun c => ({ cell := c } : CellDeliv)
        let s := (took s).wr Reg.CLAUSE_STAT_ARMED 1
        let s := { s with clause := { s.clause with armed := some ⟨g.items, id, e, s.ns, cells, false⟩ } }
        ((s.deliver g.items id e).splitArmed g.items e, Cpl.OK, id, 0)
def execClauseArm (c : HostCmd) (e : Nat) (s : State) : Host.Outcome State Fault Refusal := .next (s.command c 0x12 fun s => s.clauseArm e)

/-- CLAUSE_ABANDON (R416, R428). -/
def State.clauseAbandon (s : State) (id : Nat) : State × Nat × Nat × Nat :=
  match s.clause.armed with
  | some a => if a.id != id || a.committed then (s, Cpl.BAD_COMMAND, 0, 0) else (s.abandonClause Rsn.HOST_ABANDON none, Cpl.OK, 0, 0)
  | none => (s, Cpl.BAD_COMMAND, 0, 0)
def execClauseAbandon (c : HostCmd) (id : Nat) (s : State) : Host.Outcome State Fault Refusal := .next (s.command c 0x14 fun s => s.clauseAbandon id)

/-! ### The commit point and the epoch (R428 to R430) -/

/-- A tree is busy for a Clause (R124, R428): it re-ranges, and holds a cell set or has its TREE_SLOTS or TREE_ASYM changed. -/
def State.busyTree (s p : State) (a : Armed) : Bool :=
  s.allTrees.any fun q =>
    s.treeState q.1 q.2 == 4 && ((a.cells.any fun d => idxRegion d.cell == q.1 && idxTree d.cell == q.2)
      || [Tree.TREE_SLOTS_N, Tree.TREE_SLOTS_START, Tree.TREE_ASYM_ASYM].any fun f => s.rd (tf q.1 q.2 f) != p.rd (tf q.1 q.2 f))
/-- Whether this unit is the owner of a cell, by its last accepted Glint. -/
def State.owns (s : State) (c : Nat) : Bool := match (s.cellSlot c).last with | some g => g.status.owner == s.unitB | none => false
/-- Why the armed Clause is abandoned at its commit point: the reason, the item and the cell concerned (R428). -/
def State.commitFails (s : State) (a : Armed) : Option (Nat × Nat × Option Nat) :=
  let p := s.preview a.items
  match a.cells.find? fun d => !d.confirmed with
  | some d => some (Rsn.CELL_UNCONFIRMED, noItem, some d.cell)
  | none =>
    if s.busyTree p a then some (Rsn.TREE_BUSY, noItem, none)
    else if !s.epochs then some (Rsn.MODE_LEFT, noItem, none)
    else match a.cells.find? fun d => !s.owns d.cell with
    | some d => some (Rsn.AUTH_LOST, noItem, some d.cell)
    | none => (firstFail (recheck s p a.items)).map fun q => (q.1, q.2, none)
/-- CLAUSE_COMMIT (R428): at the class-1 deadline of period e - 1 the armed Clause has the outcome apply, or is abandoned. -/
def State.clauseCommit (s : State) : State :=
  match s.clause.armed with
  | none => s
  | some a =>
    if a.committed || decide (s.pn + 1 < a.epoch) then s
    else
      let s := s.runTo (s.time.epochAt + s.period - s.rd Reg.BEACON_LEAD_LEAD - 500)
      match s.commitFails a with
      | some (why, item, cell) => s.abandonItem why item cell
      | none =>
        let s := s.clauseRecord 0 0 a.id noItem a.epoch none 0 0
        { s with clause := { s.clause with armed := some { a with committed := true }, outcome := some ⟨a.id, true, 16⟩, lastOutcome := some a.epoch } }
def execClauseCommit (s : State) : Host.Outcome State Fault Refusal := .next s.clauseCommit

/-- CLAUSE_APPLY (R430): at epoch e the items of a committed Clause take effect. -/
def State.clauseApply (s : State) : State :=
  match s.clause.armed with
  | none => s
  | some a =>
    if !a.committed || decide (s.pn < a.epoch) then s
    else
      let s := (s.applyItems a.armedAt a.items).wr Reg.CLAUSE_STAT_ARMED 0
      { s with clause := { s.clause with armed := none, applied := some ⟨a.id, a.epoch, a.cells.map fun d => d.cell, []⟩ } }
def execClauseApply (s : State) : Host.Outcome State Fault Refusal := .next s.clauseApply

/-- CLAUSE_CLOSE (R429): at epoch e + 16 the closed record counts the named cells whose reports showed HOLDING at epoch e. -/
def State.clauseClose (s : State) : State :=
  match s.clause.applied with
  | none => s
  | some a =>
    if s.pn < a.epoch + 16 then s
    else { s.clauseRecord 2 0 a.id noItem a.epoch none 0 a.late.length with clause := { s.clause with applied := none } }
def execClauseClose (s : State) : Host.Outcome State Fault Refusal := .next s.clauseClose

end Sys2Proof.Machine
end

