-- ==== Sys2Proof/Machine/Epoch.lean ====
section
/-! DEFINITION. EPOCH (R16, R63, R65, R67, R71, R120). -/

namespace Sys2Proof.Machine

/-- Whether the Glints of a slot count in the period that ends (R129, R131, R453): the tree runs a plan, the slot is configured and due to report,
and two periods have passed since the tree's first period Beacon. -/
def State.glintDue (s : State) (r t j : Nat) : Bool :=
  s.sendsPeriod r t && s.treeState r t != 5 && !(s.tree r t).firstBeacon && decide ((s.tree r t).firstPn + 2 ≤ s.pn)
    && s.mapSerial r t j != 0 && s.reports r t j s.pn

/-- The end of a period on a tree: misses are counted, the records of the coming period come into force, and the counts of the period restart. -/
def State.treeEpoch (s : State) (r t : Nat) : State :=
  let n := s.slotsN r t
  let due := (List.range n).filter fun j => s.glintDue r t j
  let x := s.tree r t
  let any := (List.range n).any fun j => (x.slot j).heard
  let slots := (List.range n).foldl (fun m j =>
    fmod {} j (fun (y : SlotSt) =>
      { y with
        miss := if y.heard then 0 else if due.contains j then y.miss + 1 else y.miss
        heard := false
        recNow := y.recNext
        blockedIn := y.blockedIn && y.recNext.cmd == 0 }) m) x.slots
  (s.offsetEpoch r t any).modTree r t fun y =>
    { y with
      slots := slots
      lostN := if any then 0 else if due.isEmpty then y.lostN else y.lostN + 1
      seq := 0
      extraUsed := 0
      driftNow := [] }

/-- What each tree does at the instant of the epoch: RERANGE_APPLY (R120), and the delays of a single re-ranged cell (R119). -/
def State.treeApply (s : State) (r t : Nat) : State :=
  if s.treeState r t == 4 && (s.tree r t).rrApply then s.rerangeApply r t
  else if (s.tree r t).slots.any fun p => p.2.newDelay.isSome then
    (s.modTree r t fun y => { y with slots := y.slots.map fun (p : Nat × SlotSt) => (p.1, p.2.applyDelay s.pn) }).leadCheck r t
  else s

/-- What the Mirror part does at an epoch: a handover is over at epoch h + 1 (R382), and the consecutive periods with HOLD_CNT above 0 are
counted (R378). -/
def State.mirrorEpoch (s : State) : State :=
  let held := decide (0 < s.holdCnt)
  s.modMirror fun m =>
    { m with
      pnTake := none
      handover := m.handover.bind fun p => if p.1 < s.pn then none else some p
      handoverIn := m.handoverIn.bind fun h => if h < s.pn then none else some h
      holdRun := if held then m.holdRun + 1 else 0 }

/-- Words of reference records that the host wrote apply at the epoch (R193). -/
def State.applyRefs (s : State) (r : Nat) : State :=
  ((s.rgn r).refWrites.foldl (fun s q => s.setWord r q.1 q.2) s).modRgn r fun x => { x with refWrites := [] }

/-- EPOCH (R67): in M5 to M11 the counter reaches the next epoch; a committed step applies, PN advances, and the period's actions start. -/
def State.epoch (s : State) : State :=
  if !s.epochs || !s.running then s
  else
    let e := s.nextEpoch
    let s := s.runTo e
    let s := { s with mode := { s.mode with mramQueue := 0, atEpoch := s.modeNo } }
    let s := s.allTrees.foldl (fun s p => s.treeEpoch p.1 p.2) s
    let step := match s.time.committed with | some (v, n) => if n ≤ s.ns then v.toInt else 0 | none => 0
    let s := s.stepDue.noteBroken
    let s := { s.wr Reg.TIME_PN_PN s.pnNext with disp := s.disp.map fun (q : Nat × DispSt) => (q.1, { q.2 with actCount := [] }) }
    let s := { s with time := { s.time with epochAt := ((e : Int) + step).toNat } }.mirrorEpoch
    let s := s.allTrees.foldl (fun s p => s.treeApply p.1 p.2) s
    (List.range s.dies).foldl (fun s r => (s.applyRefs r).writeCEst r) s
def execEpoch (s : State) : Host.Outcome State Fault Refusal := .next s.epoch

end Sys2Proof.Machine
end

