-- ==== Sys2Proof/Machine/Glint.lean ====
section
/-! DEFINITION. The upstream commands of the tree ports and the tree-port states (R115, R118, R128, R130, R131, R401, R455). -/

namespace Sys2Proof.Machine

/-- A Glint on a tree that runs the slot plan (R118, R131). A SLOT that is no slot of the plan names no cell in a record (R47). -/
def State.planGlint (s : State) (r t : Nat) (g : Glint) : State :=
  let j := g.slot.toNat
  let c := cellIndex r t j
  if g.kind != 1 && !(g.kind == 2 && s.modeNo == 5) then s
  else if g.kind == 1 && !s.inWindow r t then s
  else if !glintTag (s.tree r t).useKey s.pn g.kind.toNat c g.mac then
    let s := s.raise (.tree r t) { src := Src.GLINT_TAG, ts := some (s.stamp 0) }
    if s.slotsN r t ≤ j then s
    else s.modSlot r t j fun y => { y with tagFails := y.tagFails + 1 }
  else if s.slotsN r t ≤ j || s.mapSerial r t j == 0 || (g.kind == 1 && !s.reports r t j s.pn) then
    s.raise (.tree r t) { src := Src.GLINT_MISPLACED, ts := some s.time.ctr }
  else if g.kind == 2 then s.fragment r t j g.mgmt
  else s.acceptGlint r t j g

/-- GLINT_RECEIVE (R118): byte 0 of a burst arrives `q` quarter nanoseconds on. -/
def State.glintReceive (s : State) (r t q : Nat) (g : Glint) : State :=
  let s := s.runBy q
  let st := s.treeState r t
  if !s.epochs then s
  else if st == 2 && s.rd (ef r t Rgn.ENUM_TREE0_PHASE) != 3 then s.enumGlint r t g
  else if st == 2 || st == 3 || st == 4 || st == 5 then (s.planGlint r t g).resumeDone
  else s
def execGlintReceive (r t q : Nat) (g : Glint) (s : State) : Host.Outcome State Fault Refusal := .next (s.glintReceive r t q g)

/-- Whether alert windows are open on a tree (R110, R129, R407, R455): with the slot plan, or in IDLE in M4. -/
def State.alertsOpen (s : State) (r t : Nat) : Bool :=
  let st := s.treeState r t
  (s.epochs && (st == 3 || st == 4 || st == 5 || (st == 2 && s.rd (ef r t Rgn.ENUM_TREE0_PHASE) == 3))) || (s.modeNo == 4 && st == 1)

/-- ALERT_DECLARE (R79, R110, R115, R395, R407): window `m` of the period, or in M4 window `m` after the last Glimmer Beacon, showed `light` quarter nanoseconds of light that belongs to no verified burst. In a re-range the windows are shifted by the provisional offset (R120). -/
def State.alertDeclare (s : State) (r t m light : Nat) : State :=
  if !s.alertsOpen r t || decide (light < 32) then s
  else
    let start := if s.modeNo == 4 then 4 * (s.time.lastGlimmer + 20000 + 1250 * m)
      else ((4 * (s.time.epochAt + 1250 * m) : Nat) + (s.tree r t).provOfs / 25 : Int).toNat
    let stamp : Time := BitVec.ofNat 96 (start * 2 ^ 30)
    let inPeriod := if s.modeNo == 4 then decide (m ≤ 7) else decide (1250 * m + 60 ≤ s.period)
    if !inPeriod then s
    else
      let s := s.runToQ (start + 240)
      let s := s.modTree r t fun x => { x with lastAlert := stamp }
      let s := s.raise (.tree r t) { src := Src.ALERT, ts := some stamp, detail := m }
      if s.modeNo == 4 then s.noteWake 1 else s
def execAlertDeclare (r t m light : Nat) (s : State) : Host.Outcome State Fault Refusal := .next (s.alertDeclare r t m light)

/-- GLINT_MISS (R129, R131): a slot without an accepted Glint for MISS_N consecutive periods in which it should report. -/
def State.glintMiss (s : State) (r t j : Nat) : State :=
  if s.rd (tf r t Tree.TREE_RR_MISS_N) ≤ (s.slot r t j).miss && s.treeState r t != 5 then
    s.setCond (.tree r t) { src := Src.GLINT_MISS, cell := some (cellIndex r t j) } true
  else s
def execGlintMiss (r t j : Nat) (s : State) : Host.Outcome State Fault Refusal := .next (s.glintMiss r t j)

/-- TREE_LOST (R130, R131): no accepted Glint from any slot for LOST_N periods. -/
def State.treeLostRow (s : State) (r t : Nat) : State :=
  if (s.treeState r t == 3 || s.treeState r t == 4) && decide (s.rd (tf r t Tree.TREE_RR_LOST_N) ≤ (s.tree r t).lostN) then s.treeLost r t
  else s
def execTreeLost (r t : Nat) (s : State) : Host.Outcome State Fault Refusal := .next (s.treeLostRow r t)

/-- TREE_TX_FAULT (R130, R131): FAILED from any state but DISABLED; the lane goes off and TREE_TX_FAIL is active. -/
def State.treeTxFault (s : State) (r t : Nat) : State :=
  if s.treeState r t == 0 then s
  else
    let s := (s.setTree r t 6).setCond (.tree r t) { src := Src.TREE_LOST } false
    s.setCond (.tree r t) { src := Src.TREE_TX_FAIL } true
def execTreeTxFault (r t : Nat) (s : State) : Host.Outcome State Fault Refusal := .next (s.treeTxFault r t)

/-- TREE_CMD_RESET (R130): FAILED to IDLE. -/
def State.treeReset (s : State) (r t : Nat) : State :=
  s.onWrite fun s =>
    if s.treeState r t == 6 then (s.setTree r t 1).setCond (.tree r t) { src := Src.TREE_TX_FAIL } false else s
def execTreeCmdReset (r t : Nat) (s : State) : Host.Outcome State Fault Refusal := .next (s.treeReset r t)

/-- TREE_CMD_RECOVER (R130, R455): a LOST tree whose arm is blocked, or in M5 or M6, is enumerated again. -/
def State.treeRecover (s : State) (r t : Nat) : State :=
  s.onWrite fun s =>
    if s.treeState r t == 5 && (s.treeBlocked r t || s.modeNo == 5 || s.modeNo == 6) then
      (s.startEnum r t).setCond (.tree r t) { src := Src.TREE_LOST } false
    else s
def execTreeCmdRecover (r t : Nat) (s : State) : Host.Outcome State Fault Refusal := .next (s.treeRecover r t)

/-- MGMT_TIMEOUT (R94, R128): the ending fragment of a slot's transaction has not arrived TMO periods after its LAST segment, which are over at the Beacon
launch of the last of them and declared so 40 ns later (log entry 84, DEDUCED); it does not run in ENUM for a kind that is held there. -/
def State.mgmtTimeout (s : State) (r t j : Nat) : State :=
  match (s.tree r t).txns.find? fun tx => tx.slot == j && !tx.bcast && tx.sentPn.isSome with
  | none => s
  | some tx =>
    match tx.sentPn with
    | some n =>
      let held := s.treeState r t == 2 && !tx.enumKind
      let last := n + s.rd (tf r t Tree.TREE_MGMT_TMO)
      if held || decide (s.pn < last) then s
      else
        let due := if s.pn == last then s.launchAt + 40 else s.ns
        let s := s.runTo due
        if s.ns < due then s else s.retryTxn r t tx
    | none => s
def execMgmtTimeout (r t j : Nat) (s : State) : Host.Outcome State Fault Refusal := .next (s.mgmtTimeout r t j)

/-- RESUME_TIMEOUT (R401): PWR_CFG.RESUME_TMO after the resume began, trees with a slot that has not answered are enumerated. -/
def State.resumeTimeout (s : State) : State :=
  match s.mode.resumeFrom with
  | none => s
  | some n =>
    let e := n + s.rd Reg.PWR_CFG_RESUME_TMO * 1000000
    let s := s.runTo e
    if s.ns < e then s
    else
      let s := s.allTrees.foldl (fun s p =>
        if s.treeState p.1 p.2 == 2 && !s.treeReady p.1 p.2 then s.startEnum p.1 p.2 else s) s
      { s with mode := { s.mode with resumeFrom := none } }
def execResumeTimeout (s : State) : Host.Outcome State Fault Refusal := .next s.resumeTimeout

end Sys2Proof.Machine
end

