-- ==== Sys2Proof/Machine/Matrix.lean ====
section
/-! DEFINITION. Gate matrices and the frames that cross their links (R279 to R305). -/

namespace Sys2Proof.Machine

/-! ### The gate matrix (R282 to R286, R305) -/

/-- What a frame of the shadow set says of a die. -/
def ShadowWr.entry (w : ShadowWr) (d : Nat) : Option CfgEntry := if w.first ≤ d then w.entries[d - w.first]? else none
/-- A die entry as a matrix holds it: that of the last frame of the shadow set that names it, or the active one. -/
def MatrixSt.holds (m : MatrixSt) (d : Nat) : CfgEntry := (m.shadow.reverse.findSome? fun w => w.entry d).getD (fget {} m.active d)
/-- Entries written into the active set from a die on. -/
def putEntries (a : FMap CfgEntry) : Nat → List CfgEntry → FMap CfgEntry
  | _, [] => a
  | d, e :: t => putEntries (fset d e a) (d + 1) t
/-- The echo of a run of dies (R282, R285). -/
def MatrixSt.answer (m : MatrixSt) (seq first n : Nat) (read : Bool) : MatrixSt :=
  let l := (List.range n).map fun i => m.holds (first + i)
  { m with echo := some (seq, first, n, cfgCrc l, if read then l else []) }
/-- Whether a run of dies is one a frame may name (R282). -/
def runOk (first n : Nat) : Bool := decide (0 < n) && decide (n ≤ 16) && decide (first + n ≤ 128)

/-- IDENT_REQ at the matrix (R282, R286): it answers with IDENT. -/
def execIdentReq (c p : Nat) (s : State) : Host.Outcome State Fault Refusal :=
  .next (s.modMat c p fun m => { m with identSent := m.identSent + 1, heard := (s.cell c).time.clock })

/-- CFG_WRITE at the matrix (R284), its last bit `q` quarters on: the shadow set takes it, and CFG_ECHO answers. A frame whose CRC fails is discarded (R281). -/
def State.matWrite (s : State) (c p q : Nat) (ok : Bool) (seq first : Nat) (l : List CfgEntry) : State :=
  let s := s.cellBy c q
  if !ok || !runOk first l.length then s
  else s.modMat c p fun m =>
    ({ m with shadow := m.shadow ++ [({ endAt := (s.cell c).time.clock, seq := seq, first := first, entries := l } : ShadowWr)], heard := (s.cell c).time.clock }).answer seq first l.length false
def execCfgWrite (c p q : Nat) (ok : Bool) (seq first : Nat) (l : List CfgEntry) (s : State) : Host.Outcome State Fault Refusal :=
  .next (s.matWrite c p q ok seq first l)

/-- CFG_READ at the matrix (R282). -/
def State.matRead (s : State) (c p q : Nat) (ok : Bool) (seq first n : Nat) : State :=
  let s := s.cellBy c q
  if !ok || !runOk first n then s
  else s.modMat c p fun m => ({ m with heard := (s.cell c).time.clock }).answer seq first n true
def execCfgRead (c p q : Nat) (ok : Bool) (seq first n : Nat) (s : State) : Host.Outcome State Fault Refusal := .next (s.matRead c p q ok seq first n)

/-- KEEP at the matrix (R283). -/
def execKeep (c p q : Nat) (s : State) : Host.Outcome State Fault Refusal :=
  .next ((s.cellBy c q).modMat c p fun m => { m with heard := (s.cellBy c q).cell c |>.time.clock })

/-- The frames of the shadow set whose last bit arrived at least 200 ns before an edge at `r` become active in order (R284, R285). -/
def MatrixSt.apply (m : MatrixSt) (r : Nat) : MatrixSt :=
  let due := m.shadow.filter fun w => decide (w.endAt + 800 ≤ r)
  { m with
    active := due.foldl (fun a w => putEntries a w.first w.entries) m.active
    shadow := m.shadow.filter fun w => decide (r < w.endAt + 800)
    seq := match due.getLast? with | some w => w.seq | none => m.seq }
/-- MATRIX_SHADOW_APPLY (R284): at a rising edge of the position's gate command each frame at least 200 ns old becomes active; a later one waits for the following edge. -/
def State.shadowApply (s : State) (c p : Nat) : State :=
  if fhas (s.cell c).sw.riseAt p then s.modMat c p fun m => m.apply (fget 0 (s.cell c).sw.riseAt p) else s
def execMatrixShadowApply (c p : Nat) (s : State) : Host.Outcome State Fault Refusal := .next (s.shadowApply c p)

/-- GML_ENABLE_LOW (R280, R305): every die off, the gate command ignored. It has an effect while GMLn_EN is low. -/
def State.enableLow (s : State) (c p : Nat) : State :=
  if (s.cell c).enHigh p then s else s.modMat c p fun m => { m with enabled := false, on := false, desatOff := [] }
def execGmlEnableLow (c p : Nat) (s : State) : Host.Outcome State Fault Refusal := .next (s.enableLow c p)

/-- DESAT_TURN_OFF (R305): the matrix turns a die off for overcurrent, and its record reports it. -/
def State.desatOff (s : State) (c p d : Nat) : State :=
  s.modMat c p fun m =>
    if !m.on || m.desatOff.contains d then m
    else { m with desatOff := m.desatOff ++ [d], desat := if m.desat.contains d then m.desat else m.desat ++ [d] }
def execDesatTurnOff (c p d : Nat) (s : State) : Host.Outcome State Fault Refusal := .next (s.desatOff c p d)

/-! ### Reception at the Elsum -/

/-- A frame from the matrix ends `q` quarters on (R281, R283): one whose CRC fails is counted and discarded. The flag tells whether it is used. -/
def State.fromMatrix (s : State) (c p q : Nat) (ok : Bool) : State × Bool :=
  let x := s.cell c
  if !x.up || !x.linkEn p || decide (4 ≤ p) then (s, false)
  else
    let s := s.cellBy c q
    if !ok then (s.cinc c (gmlCrc p), false)
    else (s.modLink c p fun l => { l with heardAt := (s.cell c).time.clock }, true)

/-! ### Identity and bring-up (R286 to R288) -/

/-- Whether the Elsum accepts an identity (R287). -/
def identOk (i : Ident) : Bool :=
  i.gmc == 1 && decide (1 ≤ i.dies.toNat) && decide (i.dies.toNat ≤ 128) && decide (i.dtMin.toNat ≤ 8000) && decide (i.tPd.toNat ≤ 150)
/-- The blocks of 16 dies of a position. -/
def blocksOf (n : Nat) : List (Nat × Nat) := (List.range ((n + 15) / 16)).map fun i => (16 * i, min 16 (n - 16 * i))

/-- A die's entry at bring-up, step 4 of R288: restored from its MRAM record, or cleared with a new stress record. -/
def State.initDie (s : State) (c p n d : Nat) (same : Bool) : State :=
  let a := dieEnt p d
  if n ≤ d then s.cellWrite c a (List.replicate 8 0)
  else if same then
    let r := s.cellRead c (stressRec p d + 44) 4
    let f := clrBit (setBit (setBit (leAt r 3 1) 0) 7) 2
    s.cellWrite c a (r.take 3 ++ leBytes 1 f ++ leBytes 4 0)
  else (s.cellWrite c a (leBytes 3 0 ++ leBytes 1 0x81 ++ leBytes 4 0)).cellWrite c (stressRec p d) (List.replicate 64 0)

/-- Steps 3 to 5 of R288: the header, the trims and flags, and the configuration frames. GMLn_EN is held low. -/
def State.bringUp (s : State) (c p : Nat) (i : Ident) (seq : Nat) : State :=
  let r := s.cellRead c (matRec p) 14
  let same := leAt r 0 2 == i.vendor.toNat && leAt r 2 8 == i.serial.toNat
  let lim := s.cellRead c (if same then matRec p + 10 else dieTab p + 16) 4
  let s := s.modLink c p fun l => { l with live := false, phase := 1, out := none, todo := blocksOf i.dies.toNat, okSeq := 0, acc := [], shr := [], sense := [], stress := if same then l.stress else [] }
  let s := s.refreshEn c
  let s := s.cellWrite c (dieTab p + 1) (leBytes 1 i.dies.toNat ++ leBytes 2 i.dtMin.toNat ++ leBytes 2 i.tPd.toNat ++ leBytes 2 i.vendor.toNat
    ++ leBytes 8 i.serial.toNat ++ lim ++ leBytes 1 seq ++ leBytes 1 0 ++ leBytes 10 0)
  let s := s.cellWrite c (matRec p) (leBytes 2 i.vendor.toNat ++ leBytes 8 i.serial.toNat ++ lim)
  let s := ((List.range 128).foldl (fun s d => s.initDie c p i.dies.toNat d same) s).showIso c p
  let s := if same then s else s.raise (.cell c) { src := Src.MATRIX_CHANGED }
  (s.cwr c (gmlUp p) 1).pump c p

/-- IDENT (R283, R287, R288): refused, or the same matrix with its configuration kept is read back, or the link is brought up. -/
def State.identRx (s : State) (c p q : Nat) (ok : Bool) (seq : Nat) (i : Ident) : State :=
  let r := s.fromMatrix c p q ok
  let s := r.1
  if !r.2 then s
  else if !identOk i then
    let s := s.modLink c p fun l => { l with phase := 0, live := false, out := none, todo := [], sense := [] }
    let s := (s.cwr c (gmlUp p) 0).cput c (dieTab p) 1 (clrBit (s.cval c (dieTab p) 1) 0)
    (s.refreshEn c).raise (.cell c) { src := Src.GML_CFG_ERR }
  else
    let l := (s.cell c).link p
    if l.phase != 0 then s
    else if l.lost && s.cval c (dieTab p + 6) 2 == i.vendor.toNat && s.cval c (dieTab p + 8) 8 == i.serial.toNat && seq != 0 then
      ((s.cput c (dieTab p + 20) 1 seq).modLink c p fun l => { l with phase := 2, out := none, todo := blocksOf (s.nDies c p) }).pump c p
    else s.bringUp c p i seq
def execGmlIdent (c p q : Nat) (ok : Bool) (seq : Nat) (i : Ident) (s : State) : Host.Outcome State Fault Refusal := .next (s.identRx c p q ok seq i)

/-! ### Configuration echoes (R285) -/

/-- A configuration frame is sent again with a new SEQ, up to GML_CFG.RETRY times; after that GML_CFG_ERR is raised and the entries stay unconfirmed. -/
def State.resend (s : State) (c p : Nat) (o : CfgOut) : State :=
  if o.tries < s.crd c Els.GML_CFG_RETRY then
    (s.modLink c p fun l => { l with out := none }).sendCfg c p o.first o.entries.length (o.tries + 1) o.read
  else ((s.modLink c p fun l => { l with out := none }).raise (.cell c) { src := Src.GML_CFG_ERR }).pump c p

/-- CFG_ECHO (R283, R285): a CRC that matches confirms the entries; in a read-back one that differs has the block written again. -/
def State.echoRx (s : State) (c p q : Nat) (ok : Bool) (seq first crc : Nat) : State :=
  let r := s.fromMatrix c p q ok
  let s := r.1
  match ((s.cell c).link p).out with
  | none => s
  | some o =>
    if !r.2 || o.first != first || o.seq != seq then s
    else if crc = cfgCrc o.entries then
      let s := s.modLink c p fun l => { l with out := none, okSeq := if o.read then l.okSeq else o.seq }
      (s.confirmAll c p o.first o.entries).pump c p
    else if o.read then (s.modLink c p fun l => { l with out := none }).sendCfg c p o.first o.entries.length 0 false
    else s.resend c p o
def execGmlCfgEcho (c p q : Nat) (ok : Bool) (seq first crc : Nat) (s : State) : Host.Outcome State Fault Refusal := .next (s.echoRx c p q ok seq first crc)

/-- CFG_ECHO_TIMEOUT (R285): no echo within 10 µs. -/
def State.echoTimeout (s : State) (c p : Nat) : State :=
  match ((s.cell c).link p).out with
  | none => s
  | some o =>
    let s := s.cellTo c (o.sentAt + 40000)
    if (s.cell c).time.clock < o.sentAt + 40000 then s else s.resend c p o
def execCfgEchoTimeout (c p : Nat) (s : State) : Host.Outcome State Fault Refusal := .next (s.echoTimeout c p)

/-! ### The life of a link (R283) -/

/-- GML_KEEP_DUE (R283): a link idle for 2 µs sends KEEP. -/
def State.keepDue (s : State) (c p : Nat) : State :=
  let x := s.cell c
  if !x.up || !x.linkEn p then s
  else
    let due := (x.link p).txEnd + 8000
    let s := s.cellTo c due
    if (s.cell c).time.clock < due then s else s.txFrame c p 4 0
def execGmlKeepDue (c p : Nat) (s : State) : Host.Outcome State Fault Refusal := .next (s.keepDue c p)

/-- GML_DOWN (R283): no valid frame for GML_CFG.TMO. The position goes on switching. -/
def State.gmlDown (s : State) (c p : Nat) : State :=
  let x := s.cell c
  if (x.link p).phase == 0 then s
  else
    let due := (x.link p).heardAt + 4000 * x.rd Els.GML_CFG_TMO
    let s := s.cellTo c due
    if (s.cell c).time.clock < due then s
    else
      let s := s.modLink c p fun l => { l with phase := 0, lost := true, out := none, todo := [], sense := [], reqAt := due }
      ((s.cwr c (gmlUp p) 0).cput c (dieTab p) 1 (clrBit (s.cval c (dieTab p) 1) 0)).showDown c
def execGmlDown (c p : Nat) (s : State) : Host.Outcome State Fault Refusal := .next (s.gmlDown c p)

/-- IDENT_REQ_RETRY (R283, R288): IDENT_REQ every 20 µs while the link is down or coming up. -/
def State.identRetry (s : State) (c p : Nat) : State :=
  let x := s.cell c
  if !x.up || !x.linkEn p || (x.link p).phase != 0 then s
  else
    let due := (x.link p).reqAt + 80000
    let s := s.cellTo c due
    if (s.cell c).time.clock < due then s else (s.modLink c p fun l => { l with reqAt := due }).txFrame c p 1 0
def execIdentReqRetry (c p : Nat) (s : State) : Host.Outcome State Fault Refusal := .next (s.identRetry c p)

/-- FAULT (R282, R309). -/
def State.faultRx (s : State) (c p q : Nat) (ok : Bool) (b : Nat) : State :=
  let r := s.fromMatrix c p q ok
  if r.2 && b % 256 != 0 then r.1.raise (.cell c) { src := Src.MATRIX_FAULT } else r.1
def execGmlFault (c p q : Nat) (ok : Bool) (b : Nat) (s : State) : Host.Outcome State Fault Refusal := .next (s.faultRx c p q ok b)

/-! ### Trims (R296 to R298) -/

/-- Whether trim adjustment runs on a position (R296), which a source active at severity 3 also stops (R347). -/
def State.trimRuns (s : State) (c p : Nat) : Bool :=
  let x := s.cell c
  x.on Els.DIE_TRIM_EN && x.st == 3 && (x.link p).phase == 3 && !x.on Els.GEN_STAT_HOLDING && !x.on Els.GEN_STAT_FALLBACK
    && !((s.coll (.cell c)).conds.any fun o => x.sev o.src == 3)
/-- Whether a frame's measurements count (R296): its SEQ is that of the last confirmed write, and no write is open. -/
def LinkSt.seqOk (l : LinkSt) (seq : Nat) : Bool := seq == l.okSeq && l.todo.isEmpty && (match l.out with | some o => o.read | none => true)

/-- AT_LIM of a die (R298): set, with TRIM_LIMIT, by a decision at the limit beyond the deadband; cleared by one within the deadband. -/
def State.atLimit (s : State) (c p d : Nat) : State := (s.setFlag c p d 6 true).raise (.cell c) { src := Src.TRIM_LIMIT }

/-- The decision of a full batch: `e` beyond the deadband above (1), below (-1), or within it (0); the trim moves against it within [lo, hi]. -/
def State.decideTrim (s : State) (c p d kind : Nat) (e lo hi : Int) (m : Nat) : State :=
  let t := s8 (s.cval c (dieEnt p d + kind) 1)
  if 0 < e then (if lo < t then s.setTrim c p d kind (unsext 8 (t - 1)) m 0 else s.atLimit c p d)
  else if e < 0 then (if t < hi then s.setTrim c p d kind (unsext 8 (t + 1)) m 0 else s.atLimit c p d)
  else s.setFlag c p d 6 false

/-- One die of an EDGE frame (R296): kind 0 turn-on, 1 turn-off. -/
def State.edgeDie (s : State) (c p kind d : Nat) (v : BitVec 8) : State :=
  let x := s.cell c
  if v == 0x80 || decide (s.nDies c p ≤ d) || s.dieIso c p d then s
  else
    let a := fget (0, 0) (x.link p).acc (2 * d + kind)
    let sum := a.1 + v.toInt
    let n := 2 ^ x.rd Els.DIE_TRIM_EVENTS
    if a.2 + 1 < n then s.modLink c p fun l => { l with acc := fset (2 * d + kind) (sum, a.2 + 1) l.acc }
    else
      let s := s.modLink c p fun l => { l with acc := fdel (2 * d + kind) l.acc }
      let m := sum.tdiv n
      let db : Int := x.rd Els.DIE_TRIM_DB
      let lim : Int := s.cval c (dieTab p + 16 + kind) 1
      s.decideTrim c p d kind (if db < m then 1 else if m < -db then -1 else 0) (-lim) lim (unsext 16 m)
/-- Every die of a group. -/
def State.edgeDies (s : State) (c p kind : Nat) : Nat → List (BitVec 8) → State
  | _, [] => s
  | d, v :: t => (s.edgeDie c p kind d v).edgeDies c p kind (d + 1) t

/-- EDGE (R294, R296): `off` a turn-off, `g` the group, `i` the current, `age` the quarters since the edge.
The current of a turn-on is kept where no later turn-on has been made. -/
def State.edgeRx (s : State) (c p q : Nat) (ok : Bool) (seq : Nat) (off : Bool) (g : Nat) (i : BitVec 16) (l : List (BitVec 8)) (age : Nat) : State :=
  let r := s.fromMatrix c p q ok
  let s := r.1
  if !r.2 then s
  else
    let s := s.cput c (dieTab p + 20) 1 seq
    let x := s.cell c
    let s := if off || decide (x.time.clock < fget 0 x.sw.riseAt p + age) then s else s.modLink c p fun l => { l with iOn := i.toInt }
    if s.trimRuns c p && (x.link p).seqOk seq && decide (x.rd Els.DIE_TRIM_IMIN ≤ i.toInt.natAbs) && decide (age ≤ 20000) then
      s.edgeDies c p (b2n off) (16 * g) (l.take 16)
    else s
def execGmlEdge (c p q : Nat) (ok : Bool) (seq : Nat) (off : Bool) (g : Nat) (i : BitVec 16) (l : List (BitVec 8)) (age : Nat) (s : State) :
    Host.Outcome State Fault Refusal := .next (s.edgeRx c p q ok seq off g i l age)

/-! ### Sense records (R293, R297, R300) -/

/-- A condition in N consecutive valid records isolates the die where DIE_ISO.AUTO is 1 (R300); answers the count that goes on. -/
def State.autoIso (s : State) (c p d n reason : Nat) : State :=
  let x := s.cell c
  if x.on Els.DIE_ISO_AUTO && decide (x.rd Els.DIE_ISO_N ≤ n) then s.isolate c p d reason else s

/-- The share trim (R297) and the isolation of R300 for SHARE. -/
def State.shareTrim (s : State) (c p d seq v : Nat) : State :=
  let x := s.cell c
  if !s.trimRuns c p || !(x.link p).seqOk seq || s.dieIso c p d || decide ((x.link p).iOn.natAbs < x.rd Els.DIE_TRIM_IMIN) then s
  else
    let a := fget (0, 0) (x.link p).shr d
    let n := 2 ^ x.rd Els.DIE_TRIM_EVENTS
    let sum := a.1 + v
    if a.2 + 1 < n then s.modLink c p fun l => { l with shr := fset d (sum, a.2 + 1) l.shr }
    else
      let s := s.modLink c p fun l => { l with shr := fdel d l.shr }
      let db := x.rd Els.DIE_TRIM_SHARE_DB
      let lo := s8 (s.cval c (dieTab p + 18) 1)
      let atLo := decide (s8 (s.cval c (dieEnt p d + 2) 1) ≤ lo)
      let e : Int := if (1024 + db) * n < sum then 1 else if sum + db * n < 1024 * n then -1 else 0
      let s := s.decideTrim c p d 2 e lo (s8 (s.cval c (dieTab p + 19) 1)) (sum / n)
      if atLo && decide ((1024 + x.rd Els.DIE_ISO_SHARE) * n < sum) && x.on Els.DIE_ISO_AUTO then s.isolate c p d 3 else s

/-- DIE_HOT, once on entry (R293). -/
def State.hotCheck (s : State) (c p d : Nat) (t : Int) : State :=
  let x := s.cell c
  let was := (x.link p).hot.contains d
  let hot := decide (16 * (x.rd Els.DIE_TEMP_WARN : Int) < t)
  let s := if hot && !was then s.raise (.cell c) { src := Src.DIE_HOT } else s
  s.modLink c p fun l => { l with hot := if hot then (if was then l.hot else l.hot ++ [d]) else l.hot.filter fun y => y != d }

/-- What a valid record says of a die: the table, the stress record, isolation by temperature and by gate fault. -/
def State.senseValid (s : State) (c p d seq : Nat) (v : SenseRec) : State :=
  let x := s.cell c
  let t : Int := (v.t.toNat : Int) - 640
  let s := (s.cput c (dieEnt p d + 4) 2 (unsext 16 t)).cput c (dieEnt p d + 6) 2 v.s.toNat
  let s := s.hotCheck c p d t
  let nt := if 16 * (x.rd Els.DIE_TEMP_TMAX : Int) < t then fget 0 (x.link p).hotN d + 1 else 0
  let ng := if v.gateFlt then fget 0 (x.link p).gateN d + 1 else 0
  let more (z : Stress) : Stress := { z with tMax := max z.tMax v.t.toNat, sMax := max z.sMax v.s.toNat }
  let s := s.modLink c p fun l => { l with hotN := fset d nt l.hotN, gateN := fset d ng l.gateN, stress := fmod {} d more l.stress }
  let s := (s.autoIso c p d nt 2).autoIso c p d ng 4
  s.shareTrim c p d seq v.s.toNat

/-- One record (R293, R303). -/
def State.senseDie (s : State) (c p d seq : Nat) (v : SenseRec) : State :=
  let add (z : Stress) : Stress := { z with desat := z.desat + 1 }
  if s.nDies c p ≤ d then s else
  let s := if v.desat && v.valid then s.modLink c p fun l => { l with stress := fmod {} d add l.stress } else s
  let s := s.modLink c p fun l => { l with sense := fset d (v, (s.cell c).time.pn) l.sense }
  let s := s.modMat c p fun m => { m with desat := m.desat.filter fun y => y != d }
  if v.valid then s.senseValid c p d seq v else s.raise (.cell c) { src := Src.DIE_SENSE }
/-- The records of a frame in die order. -/
def State.senseDies (s : State) (c p seq : Nat) : Nat → List SenseRec → State
  | _, [] => s
  | d, v :: t => (s.senseDie c p d seq v).senseDies c p seq (d + 1) t

/-- SENSE (R293). -/
def State.senseRx (s : State) (c p q : Nat) (ok : Bool) (seq first : Nat) (l : List SenseRec) : State :=
  let r := s.fromMatrix c p q ok
  let s := r.1
  if !r.2 || ((s.cell c).link p).phase == 0 || !runOk first l.length then s
  else (s.cput c (dieTab p + 20) 1 seq).senseDies c p seq first l
def execGmlSense (c p q : Nat) (ok : Bool) (seq first : Nat) (l : List SenseRec) (s : State) : Host.Outcome State Fault Refusal :=
  .next (s.senseRx c p q ok seq first l)

end Sys2Proof.Machine
end

