-- ==== Sys2Proof/Machine/Mirror.lean ====
section
/-! DEFINITION. The commands of the Mirror link and of the two units' authority (R70, R71, R373 to R382, R442, R470, R491). -/

namespace Sys2Proof.Machine

/-- Whether a Mirror frame is accepted (R373, R470): the link is up and the tag verifies under K_M, with TX_TS, KIND and SEG in its IV. -/
def State.mirrAccepts (s : State) (kind seg : Nat) (txTs : W64) (m : Mac) : Bool :=
  s.linkUp && s.mirror.keyed && m.ok && m.key == s.mirror.key && m.ivPn == txTs && m.ivKind == BitVec.ofNat 8 kind
    && m.ivSeq == BitVec.ofNat 8 seg && m.ivCell == 0

/-! ### LEASE (R70, R71, R377 to R382) -/

/-- How long the partner held the frame it echoes, from when it heard it to its own launch, in quarter nanoseconds. -/
def leaseHeld (l : Lease) (heard : W64) (hq : BitVec 2) : Int := 4 * (l.txTs.toNat : Int) - (4 * (heard.toNat : Int) + (hq.toNat : Int))
/-- The one-way delay in quarter nanoseconds: half of the round trip from the launch of the own frame that the partner echoes to the arrival of the partner's
frame, without the time `turn` that the partner held it, for the round trip is taken as symmetric (R70, R377; log entry 24, DESIGN CHOICE). -/
def State.oneWay (s : State) (l : Lease) (turn : Int) : Nat := (((quarters s.time.ctr : Int) - 4 * (l.echoTs.toNat : Int) - turn) / 2).toNat
/-- The peer offset of R70 in quarter nanoseconds: partner time minus own time at the arrival. -/
def State.peerOfs (s : State) (l : Lease) (lat : Nat) : Int := 4 * (l.txTs.toNat : Int) + (lat : Int) - (quarters s.time.ctr : Int)
/-- The measurement of R70. PEER_TIME counts the consecutive periods in which the offset exceeds PEER_TOL. -/
def State.peerMeasure (s : State) (ofs : Int) (lat : Nat) : State :=
  let s := ((s.wr Reg.TIME_PEER_OFS_OFS (unsext 32 ofs)).wr Reg.TIME_STAT_PEER_VALID 1).wr Reg.MIRR_LAT_LAT lat
  { s with time := { s.time with peerBad := if 4 * s.rd Reg.TIME_CTL_PEER_TOL < ofs.natAbs then s.time.peerBad + 1 else 0 } }

/-- How many of its own epochs from the current one the unit matches a LEASE frame to (R71): the epoch nearest to TX_TS plus BEACON_LEAD, in own time. -/
def State.matchEpoch (s : State) (l : Lease) (ofs : Int) : Int :=
  let x : Int := (l.txTs.toNat : Int) + (s.rd Reg.BEACON_LEAD_LEAD : Int) - ofs / 4
  if s.period = 0 then 0 else (x - (s.time.epochAt : Int) + (s.period / 2 : Nat)) / (s.period : Int)

/-- PN alignment (R71): rule 1 in M5, M6 and M8, and PEER_TIME while the PN differ or no epoch can be matched. -/
def State.alignPn (s : State) (l : Lease) (ofs : Int) : State :=
  if !s.epochs then s
  else
    let n := s.matchEpoch l ofs
    let own : Int := (s.pn : Int) + n
    let far := decide ((s.period : Int) < (ofs.natAbs : Int))
    let takes := (s.modeNo == 5 || s.modeNo == 6 || s.modeNo == 8) && !far && decide (own < (l.pn.toNat : Int))
    let aligned := !far && (decide (own = (l.pn.toNat : Int)) || takes)
    let s := s.modMirror fun m =>
      { m with pnTake := if takes then some ((l.pn.toNat : Int) - n + 1).toNat else m.pnTake, pnAligned := aligned }
    s.setCond .chip { src := Src.PEER_TIME } (!aligned || decide (16 ≤ s.time.peerBad))

/-- AUTH_CONFLICT (R380): both units in M7 or M9 with equal epochs; unit B yields in the same tick. -/
def State.authConflict (s : State) (l : Lease) : State :=
  if (s.modeNo == 7 || s.modeNo == 9) && (l.mode == 7 || l.mode == 9) && l.authEpoch.toNat == s.rd Reg.MIRR_AUTH_EPOCH then
    (if s.unitB then s.yieldNow else s).raise .chip { src := Src.AUTH_CONFLICT }
  else s

/-- The handover a LEASE frame carries (R382): a unit in M8 answers with HANDOVER_ACK; a frame with none ends it. -/
def State.leaseHandover (s : State) (l : Lease) : State :=
  if l.h == 0 then s.modMirror fun m => { m with handoverIn := none }
  else if s.modeNo == 8 then (s.modMirror fun m => { m with handoverIn := some l.h.toNat }).sendMirror 5 l.h.toNat
  else s

/-- LEASE_RECEIVE (R377): `q` quarter nanoseconds on. A frame that echoes one of this unit's gives a measurement (R70), `heard` and `hq` being when the
partner heard it. -/
def State.leaseReceive (s : State) (q : Nat) (l : Lease) (m : Mac) (heard : W64) (hq : BitVec 2) : State :=
  let s := s.runBy q
  if !s.mirrAccepts 1 0 l.txTs m then s
  else
    let s := s.modMirror fun x =>
      { x with lease := some l, leaseAt := s.time.ctr, lossCnt := 0, heardLease := true, peerEpoch := l.authEpoch }
    let s := s.setCond .chip { src := Src.PEER_LOST } false
    let lat := s.oneWay l (leaseHeld l heard hq)
    let ofs := s.peerOfs l lat
    let s := if l.echoTs == 0 then s else (s.peerMeasure ofs lat).alignPn l ofs
    let bad := !l.healthy || l.yield
    let s := if bad then s.noteWake 6 else s
    let s := if bad && s.modeNo == 8 then s.claimTrigger else s
    let s := if decide (0 < l.acceptCnt.toNat) && decide (s.rd Reg.MIRR_AUTH_EPOCH < l.authEpoch.toNat) then s.yieldNow else s
    (s.authConflict l).leaseHandover l
def execLeaseReceive (q : Nat) (l : Lease) (m : Mac) (heard : W64) (hq : BitVec 2) (s : State) : Host.Outcome State Fault Refusal :=
  .next (s.leaseReceive q l m heard hq)

/-! ### The copy set (R374, R375) -/

/-- SEG of a STATE frame (R373). -/
def segByte (g : StateSeg) : Nat := g.region % 8 + 8 * (g.seg % 8) + 64 * b2n g.last

/-- STATE_RECEIVE (R375): a verified STATE frame joins the copy of its period. -/
def State.stateReceive (s : State) (q : Nat) (h : MirrHdr) (g : StateSeg) : State :=
  let s := s.runBy q
  if !s.mirrAccepts 2 (segByte g) h.txTs h.mac then s
  else s.modMirror fun m =>
    { m with
      peerEpoch := h.authEpoch
      copyPn := h.pn.toNat
      copySegs := (if m.copyPn == h.pn.toNat then m.copySegs.filter (fun x => !(x.region == g.region && x.seg == g.seg)) else []) ++ [g] }
def execStateReceive (q : Nat) (h : MirrHdr) (g : StateSeg) (s : State) : Host.Outcome State Fault Refusal := .next (s.stateReceive q h g)

/-- The frames of one region of the copy in order, or none where one is missing (R374, R375). -/
def MirrorSt.regionSegs (m : MirrorSt) (r : Nat) : Option (List StateSeg) :=
  match m.copySegs.find? fun g => g.region == r && g.last with
  | none => none
  | some l =>
    let gs := (List.range (l.seg + 1)).filterMap fun i => m.copySegs.find? fun g => g.region == r && g.seg == i
    if gs.length == l.seg + 1 then some gs else none

/-- A mirrored word takes its copied value (R375). The rank keeper's memory has no other writer (R227). -/
def State.applyWord (s : State) (r : Nat) (w : W32) : MirrWord → State
  | .word a => if s.rankByte r a then s else s.setWord r a w
  | .pointer ph i => s.modDisp r fun d => { d with ptrs := fset (ph * 8 + i) (w.setWidth 23) d.ptrs }
/-- The mirrored words of a region are written, in image order (R374, R375). -/
def State.applyWords (s : State) (r : Nat) (ws : List W32) : State :=
  ((s.image.mirroredOf r).zip ws).foldl (fun s p => s.applyWord r p.2 p.1) s

/-- The record a map entry stands for (R372): PWM_POS, PWM_NEG and HYST with the DUTY of the arm block. -/
def mapRec (cmd : BitVec 4) (duty : BitVec 16) : CmdRec :=
  ⟨cmd, false, if cmd == 3 || cmd == 5 || cmd == 6 then duty else 0, 0⟩

/-- The copy of one region is applied (R372, R375): the mirrored words, DIR_PREV of each arm and the command map. -/
def State.applyRegion (s : State) (r : Nat) (gs : List StateSeg) : State :=
  let map := gs.flatMap fun g => g.map
  let arms := gs.flatMap fun g => g.arms
  let s := s.applyWords r (gs.flatMap fun g => g.words)
  let s := arms.zipIdx.foldl (fun s p => s.modArm r p.2 fun x => { x with dirPrev := p.1.dirPrev }) s
  (s.treesOf r).foldl (fun s t =>
    (s.treeCells r t).foldl (fun s c =>
      match map[c % 4096]? with
      | some cmd =>
        if cmd == 15 then s
        else
          let duty := match s.armOf r t with
            | some a => (match arms[a]? with | some x => x.duty | none => 0)
            | none => 0
          s.modSlot r t (idxSlot c) fun x => { x with recMap := mapRec cmd duty, recMapPn := some s.pn }
      | none => s) s) s

/-- MIRROR_DOWN (R380): while the link is not up, and while COPY_MISS has grown on MISS_N consecutive periods in M8. -/
def State.showMirrorDown (s : State) : State :=
  s.setCond .chip { src := Src.MIRROR_DOWN } (!s.linkUp || (s.modeNo == 8 && decide (s.rd Reg.MIRR_CFG_MISS_N ≤ s.mirror.missRun)))

/-- MIRROR_COPY_APPLY (R375): at epoch j + 1 + APPLY, for a unit that was in M8 at the class-1 deadline of period j. -/
def State.copyApply (s : State) : State :=
  if s.mirror.copyDue != some (s.pn - 1) || s.pn == 0 then s
  else
    let s := s.runTo (s.time.epochAt + s.rd Reg.MIRR_CFG_APPLY)
    let parts := (List.range s.dies).map fun r => if s.mirror.copyPn == s.pn - 1 then s.mirror.regionSegs r else none
    let s := s.modMirror fun m => { m with copyDue := none }
    if parts.all Option.isSome then
      let s := parts.zipIdx.foldl (fun s p => match p.1 with | some gs => s.applyRegion p.2 gs | none => s) s
      (s.modMirror fun m => { m with missRun := 0, copyTick := some (s.ns / 2) }).showMirrorDown
    else
      let due := match s.mirror.lease with
        | some l => l.pn.toNat == s.pn && (l.mode == 7 || l.mode == 9)
        | none => false
      if due then
        ((s.inc Reg.MIRR_STAT_COPY_MISS).modMirror fun m => { m with missRun := m.missRun + 1, missPn := some s.pn }).showMirrorDown
      else (s.modMirror fun m => { m with missRun := 0 }).showMirrorDown
def execMirrorCopyApply (s : State) : Host.Outcome State Fault Refusal := .next s.copyApply

/-! ### Claims, yields and handovers (R378 to R382) -/

/-- TRIP_RECEIVE (R378). -/
def State.tripReceive (s : State) (q : Nat) (h : MirrHdr) : State :=
  let s := s.runBy q
  if s.mirrAccepts 3 0 h.txTs h.mac then (s.modMirror fun m => { m with peerEpoch := h.authEpoch }).claimTrigger else s
def execTripReceive (q : Nat) (h : MirrHdr) (s : State) : Host.Outcome State Fault Refusal := .next (s.tripReceive q h)

/-- Whether the owner accepts a handover at epoch `h` (R382). -/
def State.handoverOk (s : State) (h : Nat) : Bool :=
  (s.modeNo == 7 || s.modeNo == 9) && decide (s.pn + 3 ≤ h) && s.linkUp && s.mirror.pnAligned
    && (match s.mirror.lease with | some l => l.mode == 8 && l.healthy | none => false)
    && (match s.mirror.missPn with | some n => decide (n + 16 ≤ s.pn) | none => true)
    && s.clause.armed.isNone && s.clause.staged.isNone

/-- A handover is agreed: the LEASE frames carry h from now on (R382). -/
def State.agree (s : State) (h : Nat) : State := s.modMirror fun m => { m with handover := some (h, false) }

/-- YIELD_REQ_RECEIVE (R379, R382): a healthy owner agrees a handover at the epoch the frame names. -/
def State.yieldReq (s : State) (q : Nat) (h : MirrHdr) : State :=
  let s := s.runBy q
  if !s.mirrAccepts 6 0 h.txTs h.mac then s
  else
    let s := s.modMirror fun m => { m with peerEpoch := h.authEpoch }
    if s.mirror.healthy && s.handoverOk h.pn.toNat then s.agree h.pn.toNat else s
def execYieldReqReceive (q : Nat) (h : MirrHdr) (s : State) : Host.Outcome State Fault Refusal := .next (s.yieldReq q h)

/-- HANDOVER_ACK_RECEIVE (R382). -/
def State.handoverAck (s : State) (q : Nat) (h : MirrHdr) : State :=
  let s := s.runBy q
  if s.mirrAccepts 5 0 h.txTs h.mac then
    s.modMirror fun m => { m with peerEpoch := h.authEpoch, handover := m.handover.map fun p => if p.1 == h.pn.toNat then (p.1, true) else p }
  else s
def execHandoverAckReceive (q : Nat) (h : MirrHdr) (s : State) : Host.Outcome State Fault Refusal := .next (s.handoverAck q h)

/-- HANDOVER_ABANDON (R382): no acknowledgement by epoch h - 2. -/
def State.handoverAbandon (s : State) : State :=
  match s.mirror.handover with
  | some (h, false) => if h ≤ s.pn + 2 then s.modMirror fun m => { m with handover := none } else s
  | _ => s
def execHandoverAbandon (s : State) : Host.Outcome State Fault Refusal := .next s.handoverAbandon

/-- When a LEASE frame of the last launch is declared missing: at the launch plus the one-way delay, with the 60 ns of R94 (log entry 24, DESIGN CHOICE). -/
def State.leaseDue (s : State) : Nat := s.time.launchNs + ceilDiv (s.rd Reg.MIRR_LAT_LAT) 4 + 60
/-- PEER_LOST (R94, R378, R380, R395): LOSS_N launches without a LEASE frame. -/
def State.peerLost (s : State) : State :=
  let lost := s.epochs && decide (s.rd Reg.MIRR_CFG_LOSS_N ≤ s.mirror.lossCnt)
  let s := if lost then s.runTo s.leaseDue else s
  if lost && decide (s.leaseDue ≤ s.ns) then
    let s := s.setCond .chip { src := Src.PEER_LOST } true
    (s.noteWake 6).claimTrigger
  else s
def execPeerLost (s : State) : Host.Outcome State Fault Refusal := .next s.peerLost

/-- CLAIM_TIMEOUT (R378, R381): CLAIM_TMO periods without a Glint that shows this unit as owner. -/
def State.claimTimeout (s : State) : State :=
  match s.mirror.claimFrom with
  | some n =>
    if (s.modeNo == 7 || s.modeNo == 9) && decide (n + s.rd Reg.MIRR_CFG_CLAIM_TMO ≤ s.pn) then
      let s := (s.inc Reg.MIRR_STAT_CLAIM_REFUSED).authEvent 1 (!s.unitB) 0
      let s := s.modMirror fun m => { m with claimFrom := none, holdRun := 0 }
      s.request { who := .warden, target := 8 }
    else s
  | none => s
def execClaimTimeout (s : State) : Host.Outcome State Fault Refusal := .next s.claimTimeout

/-- A rejected write of MIRR_CMD (R382, R491). -/
def State.cmdErr (s : State) : State := s.wr Reg.MIRR_STAT_CMD_ERR 1

/-- A handover asked for at epoch `h` (R382); a request that names no epoch asks for nothing (R491). -/
def State.askHandover (s : State) (h : Nat) : State := if h != 0 && s.handoverOk h then s.agree h else s.cmdErr
/-- A YIELD_REQ asked for: the standby names h = PN + 4 (R382). -/
def State.askYield (s : State) : State := if s.modeNo == 8 && s.linkUp then s.sendMirror 6 (s.pn + 4) else s.cmdErr
/-- A claim asked for, whatever AUTO is (R378). -/
def State.askClaim (s : State) : State := if s.modeNo == 8 && s.mirror.healthy then s.startClaim else s.cmdErr
/-- MIRR_CMD_HANDOVER (R382, R491). -/
def execMirrCmdHandover (h : BitVec 56) (s : State) : Host.Outcome State Fault Refusal := .next (s.onWrite fun s => s.askHandover h.toNat)
/-- MIRR_CMD_REQ_YIELD (R382). -/
def execMirrCmdReqYield (s : State) : Host.Outcome State Fault Refusal := .next (s.onWrite State.askYield)
/-- MIRR_CMD_CLAIM (R378). -/
def execMirrCmdClaim (s : State) : Host.Outcome State Fault Refusal := .next (s.onWrite State.askClaim)

/-! ### The link and its key (R442, R470) -/

/-- MIRROR_LANES_ALIGNED (R442, R470): the lanes are aligned, with the partner's BOOT_STAT.UNIT; equal numbers hold the link down. -/
def State.lanesAligned (s : State) (peerB : Bool) : State :=
  let s := s.modMirror fun m => { m with aligned := true, peerUnit := some peerB }
  if peerB == s.unitB then
    ((s.wr Reg.BOOT_STAT_UNIT_CLASH 1).wr Reg.MIRR_STAT_LINK_UP 0).showMirrorDown
  else s.startKx
def execMirrorLanesAligned (peerB : Bool) (s : State) : Host.Outcome State Fault Refusal := .next (s.lanesAligned peerB)

/-- An attempt at a key exchange ends; the unit starts again after 100 ms (R470). -/
def State.kxFails (s : State) : State :=
  (s.modMirror fun m => { m with offerSent := false, confirmSent := false, retryAt := some (s.ns + 100000000) }).showMirrorDown

/-- Whether a KEY_EXCHANGE frame of a step is taken (R373, R470): the link is not up and the tag verifies under the enumeration key. -/
def State.kxAccepts (s : State) (step : Nat) (m : Mac) : Bool :=
  !s.linkUp && s.mirror.offerSent && m.ok && m.key == 0 && m.ivKind == 7 && m.ivSeq == BitVec.ofNat 8 (8 * step) && m.ivCell == 0

/-- SEC_OWNER_HASH (R494). -/
def State.ownerHash (s : State) : BitVec 384 :=
  BitVec.ofNat 384 ((List.range 12).foldl (fun v i => v + s.rd (Reg.SEC_OWNER_HASH0.at (4 * i)) * 2 ^ (32 * i)) 0)

/-- MIRROR_OFFER_RECEIVE (R470): the partner's OFFER is checked, and the unit sends its CONFIRM. -/
def State.offerReceive (s : State) (o : MirrOffer) (m : Mac) : State :=
  if !s.kxAccepts 0 m then s
  else if o.ownerHash == s.ownerHash && o.endorsed && o.signed then
    s.modMirror fun x => { x with myAgreed := o.agreed, confirmSent := true, confirmAt := s.ns }
  else s.kxFails
def execMirrorOfferReceive (o : MirrOffer) (m : Mac) (s : State) : Host.Outcome State Fault Refusal := .next (s.offerReceive o m)

/-- MIRROR_CONFIRM_RECEIVE (R470): the partner's CONFIRM; `right`: it is the confirmation of the key agreed. -/
def State.confirmReceive (s : State) (right : Bool) (m : Mac) : State :=
  if !s.kxAccepts 1 m then s
  else if s.mirror.confirmSent && right then
    let s := s.modMirror fun x => { x with key := x.myAgreed, keyed := true, offerSent := false, confirmSent := false, lastTx := 0 }
    (s.wr Reg.MIRR_STAT_LINK_UP 1).showMirrorDown
  else s.kxFails
def execMirrorConfirmReceive (right : Bool) (m : Mac) (s : State) : Host.Outcome State Fault Refusal := .next (s.confirmReceive right m)

/-- MIRROR_CONFIRM_TIMEOUT (R470): 10 ms after the unit's own CONFIRM. -/
def State.confirmTimeout (s : State) : State :=
  if s.mirror.confirmSent && !s.linkUp then
    let s := s.runTo (s.mirror.confirmAt + 10000000)
    if s.ns < s.mirror.confirmAt + 10000000 then s else s.kxFails
  else s
def execMirrorConfirmTimeout (s : State) : Host.Outcome State Fault Refusal := .next s.confirmTimeout

/-- MIRROR_RETRY (R470): 100 ms after a failed attempt. -/
def State.mirrorRetry (s : State) : State :=
  match s.mirror.retryAt with
  | some n =>
    let s := s.runTo n
    if s.ns < n then s else s.startKx
  | none => s
def execMirrorRetry (s : State) : Host.Outcome State Fault Refusal := .next s.mirrorRetry

/-- MIRROR_LINK_DOWN (R373, R380): a lane loses alignment. -/
def execMirrorLinkDown (s : State) : Host.Outcome State Fault Refusal :=
  .next ((s.modMirror fun m => { m with aligned := false, peerUnit := none }).linkDown)

end Sys2Proof.Machine
end

