-- ==== Sys2Proof/Machine/Loops.lean ====
section
/-! DEFINITION. LOOP_CMD (R209, R210, R213). -/

namespace Sys2Proof.Machine

/-- Whether the armed Clause changes coefficient or state words of a loop, by its parameter blocks or by LOOP_BASE (R213). -/
def State.clauseTouches (s : State) (r l : Nat) : Bool :=
  match s.clause.armed with
  | none => false
  | some a => loopDiffers s (s.preview a.items) r l

/-- A LOOP_CMD write (R209): the last request before an epoch counts. A close that conflicts with the armed Clause is refused (R213). -/
def State.loopCmd (s : State) (r l action : Nat) : State :=
  if s.dies ≤ r || 64 ≤ l then s
  else s.onWrite fun s =>
    if action != 0 && s.clauseTouches r l then s.wr (rf r Rgn.LOOP_STAT_REFUSED) 1
    else s.modRgn r fun x => { x with loopReq := x.loopReq ++ [(l, action, s.ns / 2)] }
/-- LOOP_OPEN (R209). -/
def execLoopOpen (r l : Nat) (s : State) : Host.Outcome State Fault Refusal := .next (s.loopCmd r l 0)
/-- LOOP_CLOSE_KEEP (R210). -/
def execLoopCloseKeep (r l : Nat) (s : State) : Host.Outcome State Fault Refusal := .next (s.loopCmd r l 1)
/-- LOOP_CLOSE_CLEAR (R210). -/
def execLoopCloseClear (r l : Nat) (s : State) : Host.Outcome State Fault Refusal := .next (s.loopCmd r l 2)

end Sys2Proof.Machine
end

