-- ==== Sys2Proof/Machine/Time.lean ====
section
/-! DEFINITION. The commands of the time base (R55 to R65, R90 to R92). The epoch itself is in Machine/Epoch.lean. -/

namespace Sys2Proof.Machine

/-- The latch of a multi-word register takes its words 1 and up (R21, R484). -/
def State.latchWords (s : State) (base n v : Nat) : State :=
  (List.range n).foldl (fun s i =>
    if i = 0 then s else { s with latch := fset (base + 4 * i) (bits v (32 * i) 32) s.latch }) s

/-- A timestamp as a 96-bit register holds it (R489): nanoseconds in [63:0], fraction in [95:64]. -/
def tsWords (t : Time) : Nat := timeNs t + t.toNat % 2 ^ 32 * 2 ^ 64

/-- TIME_NS_READ (R56, R58): the low word is returned, and all 96 bits are captured for the reads of the other words. -/
def execTimeNsRead (s : State) : Host.Outcome State Fault Refusal :=
  let v := tsWords s.tickValue
  .next { (s.latchWords 0x1000 3 v) with lastRead := BitVec.ofNat 32 v }

/-- TIME_INCR_WRITE (R60, R61): the high word, with the held low word. -/
def State.timeIncrWrite (s : State) (hi : W32) : State :=
  let v := s.joined 0x1010 2 (s.rd Reg.TIME_INCR_INCR) hi % 2 ^ 40
  s.onWrite fun s => if incrOk v then s.wr Reg.TIME_INCR_INCR v else s.wr Reg.TIME_STAT_INCR_REFUSED 1
def execTimeIncrWrite (hi : W32) (s : State) : Host.Outcome State Fault Refusal := .next (s.timeIncrWrite hi)

/-- TIME_STEP_WRITE (R62): arms a step of the written value, in place of a step that is still armed. -/
def State.timeStepWrite (s : State) (hi : W32) : State :=
  let v := s.joined 0x1018 2 (s.rd Reg.TIME_STEP_STEP) hi
  s.onWrite fun s =>
    let s := s.wr Reg.TIME_STEP_STEP v
    { s with time := { s.time with armed := some (BitVec.ofNat 64 v), armedAt := s.time.ctr.toNat / 2 ^ 33 } }.showArmed
def execTimeStepWrite (hi : W32) (s : State) : Host.Outcome State Fault Refusal := .next (s.timeStepWrite hi)

/-- REFCLK_LOSS (R59): the counter stops, REFCLK_LOSS is active and DISCONT is set. -/
def execRefclkLoss (s : State) : Host.Outcome State Fault Refusal :=
  .next (({ s with time := { s.time with refclk := false } }.setCond .chip { src := Src.REFCLK_LOSS } true).wr Reg.TIME_STAT_DISCONT 1)

/-- REFCLK_RETURN (R59): the counter resumes from the value it held. -/
def execRefclkReturn (s : State) : Host.Outcome State Fault Refusal :=
  .next ({ s with time := { s.time with refclk := true } }.setCond .chip { src := Src.REFCLK_LOSS } false)

/-- The counter value, in quarters, of the next rise of PPS_OUT at or after quarter `now` (R90): a whole second plus OFFSET. -/
def State.ppsNext (s : State) (now : Nat) : Nat :=
  let ofs := sext 13 (s.rd Reg.PPS_OUT_CFG_OFFSET)
  let sec := (((now : Int) - ofs).toNat + 3999999999) / 4000000000
  (((sec * 4000000000 : Nat) : Int) + ofs).toNat

/-- PPS_OUT_PULSE (R90): the counter passes the next whole second plus OFFSET. A second has one pulse, and one that a step passes over has none. -/
def State.ppsPulse (s : State) : State :=
  if !s.running || !s.on Reg.PPS_OUT_CFG_EN then s
  else
    let now := quarters s.time.ctr
    let n := s.ppsNext (if s.time.ppsSecond = now then now + 1 else now)
    let s := s.runToQ n
    if quarters s.time.ctr = n then { s with time := { s.time with ppsOut := true, ppsRise := s.ns, ppsSecond := n } } else s
def execPpsOutPulse (s : State) : Host.Outcome State Fault Refusal := .next s.ppsPulse

/-- With PPS_OUT_CFG.EN = 0 the ball is driven low (R90). -/
def State.ppsLevel (s : State) : State :=
  if s.on Reg.PPS_OUT_CFG_EN then s else { s with time := { s.time with ppsOut := false } }

/-- PPS_OUT_PULSE_END (R90): WIDTH µs after the rise. -/
def State.ppsEnd (s : State) : State :=
  if !s.time.ppsOut then s
  else
    let s := s.runTo (s.time.ppsRise + 1000 * s.rd Reg.PPS_OUT_CFG_WIDTH)
    { s with time := { s.time with ppsOut := false } }
def execPpsOutPulseEnd (s : State) : Host.Outcome State Fault Refusal := .next s.ppsEnd

/-- The event-ring record of a time input (R422 type 0x07). -/
def State.timeInput (s : State) (input : Nat) : State :=
  s.postEvent 0x07 [(2, 1, input), (8, 8, s.ns), (16, 1, timeQ s.time.ctr)] false

/-- PPS_IN_EDGE (R91): a rising edge `q` quarter nanoseconds on. -/
def State.ppsIn (s : State) (q : Nat) : State :=
  let s := s.runBy q
  let s := s.wr Reg.PPS_IN_TS_TS (tsWords (s.stamp 0))
  let s := { s with time := { s.time with ppsInLast := some s.ns } }
  (s.setCond .chip { src := Src.PPS_LOST } false).timeInput 0
def execPpsInEdge (q : Nat) (s : State) : Host.Outcome State Fault Refusal := .next (s.ppsIn q)

/-- PPS_LOST (R91): 1,100 ms after the previous edge, with PPS_IN_CFG.EN = 1. -/
def State.ppsLost (s : State) : State :=
  match s.time.ppsInLast with
  | some n =>
    let due := n + 1100000000
    let s := if s.on Reg.PPS_IN_CFG_EN then s.runTo due else s
    if !s.on Reg.PPS_IN_CFG_EN || decide (s.ns < due) then s
    else (s.wr Reg.TIME_STAT_PPS_LOST 1).setCond .chip { src := Src.PPS_LOST } true
  | none => s
def execPpsLost (s : State) : Host.Outcome State Fault Refusal := .next s.ppsLost

/-- The timestamp register of TIME_EVT0 or TIME_EVT1. -/
def tevtFld (n : Nat) : Fld := if n = 0 then Reg.TEVT_TS0_TS else Reg.TEVT_TS1_TS

/-- TIME_EVT_INPUT_EDGE (R92): a rising edge on TIME_EVTn, n = 0 or 1, `q` quarter nanoseconds on: timestamped and posted, or
counted when it lies within 1 µs of the previous edge on the ball. An edge on TIME_EVT0 is wake event 5 (R395). -/
def State.tevtIn (s : State) (n q : Nat) : State :=
  if 2 ≤ n then s
  else
    let s := s.runBy q
    let t := quarters s.time.ctr
    let close := match (s.time.tevtLast.find? fun p => p.1 == n) with
      | some p => decide (t < p.2 + 4000)
      | none => false
    let s := { s with time := { s.time with tevtLast := fset n t s.time.tevtLast } }
    if close then s.inc Reg.TIME_STAT_TEVT_LOST
    else
      let s := (s.wr (tevtFld n) (tsWords (s.stamp 0))).timeInput (1 + n)
      if n = 0 then s.noteWake 5 else s
def execTimeEvtInputEdge (n q : Nat) (s : State) : Host.Outcome State Fault Refusal := .next (s.tevtIn n q)

/-- The time register of TIME_EVT2 or TIME_EVT3. -/
def tevtOutFld (n : Nat) : Fld := if n = 2 then Reg.TEVT_OUT_TIME2_TIME else Reg.TEVT_OUT_TIME3_TIME

/-- TEVT_OUT_TIME_WRITE (R92): the high word of TEVT_OUT_TIMEn, n = 2 or 3, arms the pulse, or TEVT_LATE is set when the time has passed. -/
def State.tevtWrite (s : State) (n : Nat) (hi : W32) : State :=
  if n != 2 && n != 3 then s
  else
    let v := s.joined (0x1080 + 8 * (n - 2)) 2 (s.rd (tevtOutFld n)) hi
    s.onWrite fun s =>
      let s := s.wr (tevtOutFld n) v
      if v < s.ns then s.wr Reg.TIME_STAT_TEVT_LATE 1
      else { s with time := { s.time with tevtArm := fset n v s.time.tevtArm } }
def execTevtOutTimeWrite (n : Nat) (hi : W32) (s : State) : Host.Outcome State Fault Refusal := .next (s.tevtWrite n hi)

/-- TEVT_OUT_PULSE (R92): the armed output produces its pulse, of TEVT_OUT_CFG.WIDTH units of 8 ns, at its counter value; not while the counter stands
below it, nor where a step on the way passes it over. -/
def State.tevtPulse (s : State) (n : Nat) : State :=
  match (s.time.tevtArm.find? fun p => p.1 == n) with
  | some p =>
    let s := s.runTo p.2
    if decide (s.ns < p.2) || !fhas s.time.tevtArm n then s
    else
      { s with time := { s.time with
          tevtArm := fdel n s.time.tevtArm
          tevtHigh := fset n (p.2 + 8 * s.rd Reg.TEVT_OUT_CFG_WIDTH) s.time.tevtHigh } }
  | none => s
def execTevtOutPulse (n : Nat) (s : State) : Host.Outcome State Fault Refusal := .next (s.tevtPulse n)

end Sys2Proof.Machine
end

