-- ==== Sys2Proof/Machine/RegFile.lean ====
section
/-! DEFINITION. Register accesses by address: REGISTER_WRITE and REGISTER_LOW_WORD_READ (R19 to R22, R411, R484 to R486). A register whose write
has a row of its own acts as that row does. -/

namespace Sys2Proof.Machine

/-! ### Places -/

/-- The registers of more than one word of a kind of block. -/
def basMultis : Nat → List (Nat × Nat)
  | 0 => Reg.multi
  | 1 => Rgn.multi
  | 2 => Tree.multi
  | _ => Arm.multi
/-- The register of more than one word that holds the word at `a`: its lowest address and its words. -/
def basMulti (a : Nat) : Option (Nat × Nat) :=
  let p := basPlace a
  ((basMultis p.1).map fun b => (b.1 + p.2, b.2)).find? fun b => decide (b.1 ≤ a) && decide (a < b.1 + 4 * b.2)
/-- The instance that the selector of a windowed register names (R486). -/
def State.windowNo (s : State) (a : Nat) : Nat :=
  if a < 0x1000 then s.rd Reg.RING_SEL_N else if a < 0x2024 then s.rd Reg.SV_SEL_N else s.rd Reg.GOOSE_SEL_N
/-- The fields of the word at `a` that an access now reaches. -/
def State.wordFields (s : State) (a : Nat) : List Fld :=
  let fs := basFields s.dies a
  if isWindow a then fs.map fun f => f.win (s.windowNo a) else fs
/-- Whether the word at `a` takes no writes as things stand: RING_BASE of an enabled ring (R412), the owner hash once it is set (R462). -/
def State.wordLocked (s : State) (a : Nat) : Bool :=
  ((a == 0x28 || a == 0x2C) && s.on (ringF (s.rd Reg.RING_SEL_N) Reg.RING_CFG_EN))
    || (decide (0x6000 ≤ a) && decide (a < 0x6030) && s.on Reg.SEC_STAT_OWNER_SET)

/-! ### Writes -/

/-- A direct write of one whole word into its fields (R19). -/
def State.putWord (s : State) (a : Nat) (v : W32) : State :=
  if s.wordLocked a then s else { s with regs := s.regs.write (s.wordFields a) a 0xFFFFFFFF v.toNat s.hwSet s.time.tick }
/-- MIRR_CMD: the held words, those not held as 0, and the highest word (R484). The write performs one action; a write that requests none or more
than one completes nothing and sets CMD_ERR (R491). -/
def State.mirrCmd (s : State) (hi : W32) : State :=
  let v := s.joined 0x3010 2 0 hi
  let h := v % 2 ^ 56
  s.onWrite fun s =>
    match h != 0, v.testBit 56, v.testBit 57 with
    | true, false, false => s.askHandover h
    | false, true, false => s.askYield
    | false, false, true => s.askClaim
    | _, _, _ => s.cmdErr
/-- What a write of a chip-level word starts, if its register has a row of its own (R60, R62, R92, R344, R382, R386, R395, R412, R462, R463). -/
def State.chipAct (s : State) (a : Nat) (v : W32) : Option State :=
  let n := v.toNat
  if a = 0x38 then some (s.ringCfg v)
  else if a = 0x1014 then some (s.timeIncrWrite v)
  else if a = 0x101C then some (s.timeStepWrite v)
  else if a = 0x1084 then some (s.tevtWrite 2 v)
  else if a = 0x108C then some (s.tevtWrite 3 v)
  else if a = 0x3014 then some (s.mirrCmd v)
  else if a = 0x4000 then some (if n.testBit 31 then s.fullReset s.mode.resetN else s.modeCmd (n % 16))
  else if a = 0x400C then some (s.latTolWrite v)
  else if a = 0x5040 && n.testBit 31 then some (s.clearFirst 3 0)
  else if a = 0x6030 then some (s.onWrite fun s =>
      let s := if n.testBit 0 then s.wr Reg.SEC_STAT_OWNER_SET 1 else s
      if n.testBit 1 && s.imageSet then s.wr Reg.SEC_SVN_MIN_SVN (max (s.rd Reg.SEC_SVN_MIN_SVN) s.image.svn.toNat) else s)
  else none
/-- The same of a region's word (R130, R209, R344, R455). -/
def State.rgnAct (s : State) (a : Nat) (v : W32) : Option State :=
  let p := basPlace a
  let r := (a - 0x100000) / 0x40000
  let o := a - p.2
  let n := v.toNat
  if p.1 = 2 && o = 0x14 then
    let t := (p.2 - rgnBase r - 0x1000) / 0x30
    some (s.onWrite fun s =>
      let s := if n.testBit 0 then s.treeReset r t else s
      if n.testBit 1 then s.treeRecover r t else s)
  else if p.1 = 1 && o = 8 then some (if bits n 8 2 = 3 then s.onWrite fun s => s else s.loopCmd r (n % 64) (bits n 8 2))
  else if p.1 = 1 && o = 0x5060 && n.testBit 31 then some (s.clearFirst 2 r)
  else none
/-- A write of the MSI-X table (R415): bit 0 of a vector's control word masks it; unmasking issues a held message. -/
def State.msixWrite (s : State) (a : Nat) (v : W32) : State :=
  let k := (a - 0x300000) / 16
  let s := { s with host := { s.host with msixTab := fset (a - 0x300000) v.toNat s.host.msixTab } }
  if a % 16 != 12 then s
  else if v.toNat.testBit 0 then { s with host := { s.host with msixUnmasked := s.host.msixUnmasked.filter fun x => x != k } }
  else if s.host.msixUnmasked.contains k then s else s.unmask k
/-- A write of a word that is its register's highest, or its only one, with the held words of the register (R21, R484). -/
def State.lastWord (s : State) (a : Nat) (v : W32) (mine : FMap Nat) : State :=
  let s := { s with held := mine }
  match (if a < 0x100000 then s.chipAct a v else s.rgnAct a v) with
  | some t => t
  | none =>
    s.onWrite fun s =>
      let s := (mine.foldl (fun (s : State) q => s.putWord q.1 (BitVec.ofNat 32 q.2)) s).putWord a v
      if a = 0x506C && v.toNat.testBit 31 then s.unlatch
      else if a = 0x5060 then [0, 1, 2, 3].foldl (fun s k => if v.toNat.testBit (16 + k) then s.tripOutClear k else s) s
      else if a = 0x403C then s.holdSer
      else s.ppsLevel
/-- Last offsets of the chip-level blocks and of the blocks of a region die, by base (R481, R482). -/
def unitBlocks : List (Nat × Nat) :=
  [(0, 0x27F), (0x1000, 0x10FF), (0x2000, 0x217F), (0x3000, 0x30BF), (0x4000, 0x40BF), (0x5000, 0x50BF), (0x6000, 0x607F), (0x7000, 0x703F)]
def regBlocks : List (Nat × Nat) :=
  [(0, 0x9F), (0x1000, 0x15FF), (0x2000, 0x213F), (0x3000, 0x30FF), (0x4000, 0x405F), (0x5000, 0x50BF), (0x6000, 0x607F), (0x7000, 0x7037)]
/-- Whether BAR0 offset `a` lies in a register block: a word of a block that the manual does not describe is an RSV register (R483). -/
def State.basAssigned (s : State) (a : Nat) : Bool :=
  if a < 0x100000 then unitBlocks.any fun b => decide (b.1 ≤ a) && decide (a ≤ b.2)
  else
    let o := a - 0x100000
    decide (o / 0x40000 < s.dies) && regBlocks.any fun b => decide (b.1 ≤ o % 0x40000) && decide (o % 0x40000 ≤ b.2)
/-- A 32-bit write at BAR0 offset `a` (R19, R21, R411, R484): a write of an RSV register changes no field and discards held words; one of an
unassigned address does nothing. -/
def State.busWrite (s : State) (a : Nat) (v : W32) : State :=
  if a = 0x4000 && v.toNat.testBit 31 then s.fullReset s.mode.resetN
  else if !s.takesWrites then s
  else if 0x300000 ≤ a then (if a < 0x300400 then s.msixWrite a v else s)
  else match basMulti a with
  | some (b, n) =>
    let mine := s.held.filter fun (q : Nat × Nat) => decide (b ≤ q.1) && decide (q.1 < b + 4 * n)
    if a < b + 4 * (n - 1) then { s with held := fset a v.toNat mine } else s.lastWord a v mine
  | none => if s.basAssigned a then s.lastWord a v [] else s

/-- Whether JTAG reaches the registers of Elsum `c` (R22, R472, R512): an unlocked cell in Maintenance. The management channel has rows of its own. -/
def State.jtagOpen (s : State) (c : Nat) : Bool :=
  let x := s.cell c
  x.up && x.st == 6 && x.on Els.SEC_STAT_UNLOCKED
/-- A write at an offset that is no multiple of 4: the manual leaves open what it leaves in the two words it reaches (R11, R21), so each of them takes
a write of a free value or none. -/
def State.oddWrite (s : State) (a : Nat) : State :=
  let one (s : State) (b : Nat) : State :=
    let v := s.freeVal
    if v.toNat.testBit 63 then s.used else s.used.busWrite b (BitVec.ofNat 32 v.toNat)
  one (one s (a / 4 * 4)) (a / 4 * 4 + 4)
/-- REGISTER_WRITE (R19): one 32-bit write of a register of the unit, or of Elsum `c` through JTAG (R22). -/
def State.registerWrite (s : State) (part : Option Nat) (a : Nat) (v : W32) : State :=
  match part with
  | none => if a % 4 = 0 then s.busWrite a v else s.oddWrite a
  | some c => if s.jtagOpen c && elsAssigned a && a % 4 == 0 then (s.accessesDue c).cellWriteReg c a 0xFFFFFFFF v.toNat 0 else s
def execRegisterWrite (part : Option Nat) (a : Nat) (v : W32) (s : State) : Host.Outcome State Fault Refusal :=
  .next (s.registerWrite part a v)

/-! ### Reads -/

/-- The word at `a` as it stands; an unassigned word reads 0 (R21). -/
def State.busWord (s : State) (a : Nat) : Nat :=
  if 0x300000 ≤ a then
    if a < 0x300400 then
      (if a % 16 = 12 then b2n (!s.host.msixUnmasked.contains ((a - 0x300000) / 16)) else fget 0 s.host.msixTab (a - 0x300000))
    else if a = 0x301000 then s.host.pba % 2 ^ 32
    else if a = 0x301004 then s.host.pba / 2 ^ 32 % 2 ^ 32
    else 0
  else s.regs.word (s.wordFields a) a
/-- What a word of a latch reads before the first capture: its reset value (R21). -/
def State.latchWord (s : State) (a : Nat) : Nat := fget (Regs.word [] (s.wordFields a) a) s.latch a
/-- Whether the word at `a` is DISP_SLACK of a region, which a read resets (R152, R485). -/
def State.isSlack (s : State) (a : Nat) : Bool :=
  let r := (a - 0x100000) / 0x40000
  decide (0x100000 ≤ a) && decide (r < s.dies) && a == rgnBase r + 0x300C
/-- A 32-bit read at BAR0 offset `a`: the lowest word of a register captures its other words, which later reads return (R21, R484); TIME_NS captures
TIME_FRAC with them (R58). -/
def State.busRead (s : State) (a : Nat) : State × Nat :=
  if a = 0x1000 then
    let v := tsWords s.tickValue
    (s.latchWords 0x1000 3 v, v % 2 ^ 32)
  else if a = 0x1004 || a = 0x1008 then (s, fget 0 s.latch a)
  else match basMulti a with
  | some (b, n) =>
    if a = b then
      ({ s with latch := (List.range n).foldl (fun m i => fset (b + 4 * i) (s.busWord (b + 4 * i)) m) s.latch }, s.busWord a)
    else (s, s.latchWord a)
  | none => if s.isSlack a then s.takeSlack ((a - 0x100000) / 0x40000) else (s, s.busWord a)
/-- REGISTER_LOW_WORD_READ (R21, R484): one 32-bit read of a register of the unit, or of Elsum `c` through JTAG (R22, R512); the value read is
`lastRead`. What a read at an offset that is no multiple of 4 returns is not specified (R11): a free value. -/
def State.registerRead (s : State) (part : Option Nat) (a : Nat) : State :=
  let q := match part with
    | none => if a % 4 = 0 then s.busRead a else (s.used, s.freeVal.toNat)
    | some c => if s.jtagOpen c && elsAssigned a && a % 4 == 0 then (s.accessesDue c).cellReadReg c a else (s, 0)
  { q.1 with lastRead := BitVec.ofNat 32 q.2 }
def execRegisterLowWordRead (part : Option Nat) (a : Nat) (s : State) : Host.Outcome State Fault Refusal :=
  .next (s.registerRead part a)

end Sys2Proof.Machine
end

