-- ==== Sys2Proof/Machine/Dispatch.lean ====
section
/-! DEFINITION. One arm per command. -/

namespace Sys2Proof.Machine

def exec (i : Instr) (s : State) : Host.Outcome State Fault Refusal :=
  match i with
  | .registerWrite part a v => Sys2Proof.Machine.execRegisterWrite part a v s
  | .registerLowWordRead part a => Sys2Proof.Machine.execRegisterLowWordRead part a s
  | .timeNsRead => Sys2Proof.Machine.execTimeNsRead s
  | .timeIncrWrite hi => Sys2Proof.Machine.execTimeIncrWrite hi s
  | .timeStepWrite hi => Sys2Proof.Machine.execTimeStepWrite hi s
  | .refclkLoss => Sys2Proof.Machine.execRefclkLoss s
  | .refclkReturn => Sys2Proof.Machine.execRefclkReturn s
  | .epoch => Sys2Proof.Machine.execEpoch s
  | .periodBeaconLaunch => Sys2Proof.Machine.execPeriodBeaconLaunch s
  | .enumerationBeaconLaunch r t => Sys2Proof.Machine.execEnumerationBeaconLaunch r t s
  | .glimmerBeaconLaunch => Sys2Proof.Machine.execGlimmerBeaconLaunch s
  | .blockBeaconLaunch r t => Sys2Proof.Machine.execBlockBeaconLaunch r t s
  | .managementFrameLaunch r t => Sys2Proof.Machine.execManagementFrameLaunch r t s
  | .ppsOutPulse => Sys2Proof.Machine.execPpsOutPulse s
  | .ppsOutPulseEnd => Sys2Proof.Machine.execPpsOutPulseEnd s
  | .ppsInEdge q => Sys2Proof.Machine.execPpsInEdge q s
  | .ppsLost => Sys2Proof.Machine.execPpsLost s
  | .timeEvtInputEdge n q => Sys2Proof.Machine.execTimeEvtInputEdge n q s
  | .tevtOutTimeWrite n hi => Sys2Proof.Machine.execTevtOutTimeWrite n hi s
  | .tevtOutPulse n => Sys2Proof.Machine.execTevtOutPulse n s
  | .periodBeaconAccept c p q v f => Sys2Proof.Machine.execPeriodBeaconAccept c p q v f s
  | .blockBeaconAccept c p q v f => Sys2Proof.Machine.execBlockBeaconAccept c p q v f s
  | .enumerationBeaconAccept c p q v f => Sys2Proof.Machine.execEnumerationBeaconAccept c p q v f s
  | .glimmerBeaconAccept c p q v f => Sys2Proof.Machine.execGlimmerBeaconAccept c p q v f s
  | .managementFrameAccept c p q v f => Sys2Proof.Machine.execManagementFrameAccept c p q v f s
  | .glintLaunch c late => Sys2Proof.Machine.execGlintLaunch c late s
  | .alertMarkerLaunch c m next => Sys2Proof.Machine.execAlertMarkerLaunch c m next s
  | .glintReceive r t q g => Sys2Proof.Machine.execGlintReceive r t q g s
  | .alertDeclare r t m light => Sys2Proof.Machine.execAlertDeclare r t m light s
  | .glintMiss r t j => Sys2Proof.Machine.execGlintMiss r t j s
  | .treeLost r t => Sys2Proof.Machine.execTreeLost r t s
  | .treeTxFault r t => Sys2Proof.Machine.execTreeTxFault r t s
  | .treeCmdReset r t => Sys2Proof.Machine.execTreeCmdReset r t s
  | .treeCmdRecover r t => Sys2Proof.Machine.execTreeCmdRecover r t s
  | .mgmtTimeout r t j => Sys2Proof.Machine.execMgmtTimeout r t j s
  | .mgmtRegisterAccess c p => Sys2Proof.Machine.execMgmtRegisterAccess c p s
  | .mgmtMemoryWrite c p => Sys2Proof.Machine.execMgmtMemoryWrite c p s
  | .mgmtMemoryRead c p => Sys2Proof.Machine.execMgmtMemoryRead c p s
  | .mgmtParameterSet c p => Sys2Proof.Machine.execMgmtParameterSet c p s
  | .mgmtCrcQuery c p => Sys2Proof.Machine.execMgmtCrcQuery c p s
  | .rangingRequest c p => Sys2Proof.Machine.execRangingRequest c p s
  | .rerangeHoldMessage c p => Sys2Proof.Machine.execRerangeHoldMessage c p s
  | .rerangeResultMessage c p => Sys2Proof.Machine.execRerangeResultMessage c p s
  | .discReq c p => Sys2Proof.Machine.execDiscReq c p s
  | .assign c p => Sys2Proof.Machine.execAssign c p s
  | .park c p => Sys2Proof.Machine.execPark c p s
  | .kxOffer c p hash endorsed signed same => Sys2Proof.Machine.execKxOffer c p hash endorsed signed same s
  | .kxPoll c p ready => Sys2Proof.Machine.execKxPoll c p ready s
  | .kxDone c p key opens confirmed => Sys2Proof.Machine.execKxDone c p key opens confirmed s
  | .triggerPost r t entry test => Sys2Proof.Machine.execTriggerPost r t entry test s
  | .take r e => Sys2Proof.Machine.execTake r e s
  | .steal r e => Sys2Proof.Machine.execSteal r e s
  | .crossRegionSteal r e => Sys2Proof.Machine.execCrossRegionSteal r e s
  | .verbComplete r e q => Sys2Proof.Machine.execVerbComplete r e q s
  | .stealLost h => Sys2Proof.Machine.execStealLost h s
  | .class1Deadline r phrase => Sys2Proof.Machine.execClass1Deadline r phrase s
  | .snapshotComplete r => Sys2Proof.Machine.execSnapshotComplete r s
  | .gaugeMeasure r speeds cal => Sys2Proof.Machine.execGaugeMeasure r speeds cal s
  | .dispSlackRead r => Sys2Proof.Machine.execDispSlackRead r s
  | .verbFetch r e => Sys2Proof.Machine.execVerbFetch r e s
  | .verbMac r e => Sys2Proof.Machine.execVerbMac r e s
  | .verbBiq r e => Sys2Proof.Machine.execVerbBiq r e s
  | .verbInt r e => Sys2Proof.Machine.execVerbInt r e s
  | .verbLim r e => Sys2Proof.Machine.execVerbLim r e s
  | .verbVec r e => Sys2Proof.Machine.execVerbVec r e s
  | .verbCmp r e => Sys2Proof.Machine.execVerbCmp r e s
  | .verbChoose r e => Sys2Proof.Machine.execVerbChoose r e s
  | .verbNlevel r e => Sys2Proof.Machine.execVerbNlevel r e s
  | .verbRankq r e => Sys2Proof.Machine.execVerbRankq r e s
  | .verbSelect r e => Sys2Proof.Machine.execVerbSelect r e s
  | .verbSvrd r e => Sys2Proof.Machine.execVerbSvrd r e s
  | .verbGoosePut r e => Sys2Proof.Machine.execVerbGoosePut r e s
  | .verbBlockReq r e => Sys2Proof.Machine.execVerbBlockReq r e s
  | .verbProg r e => Sys2Proof.Machine.execVerbProg r e s
  | .dpNop r e => Sys2Proof.Machine.execDpNop r e s
  | .dpMov r e d a => Sys2Proof.Machine.execDpMov r e d a s
  | .dpLdi r e d imm => Sys2Proof.Machine.execDpLdi r e d imm s
  | .dpLdih r e d imm => Sys2Proof.Machine.execDpLdih r e d imm s
  | .dpLd r e d x disp => Sys2Proof.Machine.execDpLd r e d x disp s
  | .dpSt r e a x disp => Sys2Proof.Machine.execDpSt r e a x disp s
  | .dpAdd r e d a b => Sys2Proof.Machine.execDpAdd r e d a b s
  | .dpSub r e d a b => Sys2Proof.Machine.execDpSub r e d a b s
  | .dpAdds r e d a b => Sys2Proof.Machine.execDpAdds r e d a b s
  | .dpSubs r e d a b => Sys2Proof.Machine.execDpSubs r e d a b s
  | .dpMul r e d a b => Sys2Proof.Machine.execDpMul r e d a b s
  | .dpAbs r e d a => Sys2Proof.Machine.execDpAbs r e d a s
  | .dpNeg r e d a => Sys2Proof.Machine.execDpNeg r e d a s
  | .dpMin r e d a b => Sys2Proof.Machine.execDpMin r e d a b s
  | .dpMax r e d a b => Sys2Proof.Machine.execDpMax r e d a b s
  | .dpAsh r e d a sh => Sys2Proof.Machine.execDpAsh r e d a sh s
  | .dpAnd r e d a b => Sys2Proof.Machine.execDpAnd r e d a b s
  | .dpOr r e d a b => Sys2Proof.Machine.execDpOr r e d a b s
  | .dpXor r e d a b => Sys2Proof.Machine.execDpXor r e d a b s
  | .dpCsel r e d a b cond => Sys2Proof.Machine.execDpCsel r e d a b cond s
  | .dpCmp r e a b => Sys2Proof.Machine.execDpCmp r e a b s
  | .dpClra r e acc => Sys2Proof.Machine.execDpClra r e acc s
  | .dpMacr r e acc a b sh minus => Sys2Proof.Machine.execDpMacr r e acc a b sh minus s
  | .dpMacm r e acc x c sh minus => Sys2Proof.Machine.execDpMacm r e acc x c sh minus s
  | .dpAccw r e acc a sh => Sys2Proof.Machine.execDpAccw r e acc a sh s
  | .dpExt r e d acc sh => Sys2Proof.Machine.execDpExt r e d acc sh s
  | .dpExpa r e d acc => Sys2Proof.Machine.execDpExpa r e d acc s
  | .dpNorma r e acc a => Sys2Proof.Machine.execDpNorma r e acc a s
  | .dpExp r e d a => Sys2Proof.Machine.execDpExp r e d a s
  | .dpNorm r e d a b => Sys2Proof.Machine.execDpNorm r e d a b s
  | .dpBr r e cond target => Sys2Proof.Machine.execDpBr r e cond target s
  | .dpLoop r e count target => Sys2Proof.Machine.execDpLoop r e count target s
  | .dpOut r e n a => Sys2Proof.Machine.execDpOut r e n a s
  | .dpEnd r e => Sys2Proof.Machine.execDpEnd r e s
  | .measFrameReceive r l q d f => Sys2Proof.Machine.execMeasFrameReceive r l q d f s
  | .measLatch r test => Sys2Proof.Machine.execMeasLatch r test s
  | .loopOpen r l => Sys2Proof.Machine.execLoopOpen r l s
  | .loopCloseKeep r l => Sys2Proof.Machine.execLoopCloseKeep r l s
  | .loopCloseClear r l => Sys2Proof.Machine.execLoopCloseClear r l s
  | .loopStateApply r => Sys2Proof.Machine.execLoopStateApply r s
  | .svFrameReceive f => Sys2Proof.Machine.execSvFrameReceive f s
  | .svLost n => Sys2Proof.Machine.execSvLost n s
  | .gooseReceive m => Sys2Proof.Machine.execGooseReceive m s
  | .rtHoldExpiry => Sys2Proof.Machine.execRtHoldExpiry s
  | .gooseTal n => Sys2Proof.Machine.execGooseTal n s
  | .gooseChangeSend n => Sys2Proof.Machine.execGooseChangeSend n s
  | .gooseRetransmit n => Sys2Proof.Machine.execGooseRetransmit n s
  | .commandDeadline c pos neg => Sys2Proof.Machine.execCommandDeadline c pos neg s
  | .cellEpoch c => Sys2Proof.Machine.execCellEpoch c s
  | .gateEdge c g => Sys2Proof.Machine.execGateEdge c g s
  | .deadTimeExpiry c g => Sys2Proof.Machine.execDeadTimeExpiry c g s
  | .carrierPeak c g => Sys2Proof.Machine.execCarrierPeak c g s
  | .carrierValley c => Sys2Proof.Machine.execCarrierValley c s
  | .bypSwConfClose c => Sys2Proof.Machine.execBypSwConfClose c s
  | .bypFirePulseEnd c => Sys2Proof.Machine.execBypFirePulseEnd c s
  | .bypRefire c => Sys2Proof.Machine.execBypRefire c s
  | .gateFbTimeout c p on => Sys2Proof.Machine.execGateFbTimeout c p on s
  | .dbgHalt c => Sys2Proof.Machine.execDbgHalt c s
  | .dbgResume c len => Sys2Proof.Machine.execDbgResume c len s
  | .identReq c p => Sys2Proof.Machine.execIdentReq c p s
  | .cfgWrite c p q ok seq first l => Sys2Proof.Machine.execCfgWrite c p q ok seq first l s
  | .cfgRead c p q ok seq first n => Sys2Proof.Machine.execCfgRead c p q ok seq first n s
  | .keep c p q => Sys2Proof.Machine.execKeep c p q s
  | .matrixShadowApply c p => Sys2Proof.Machine.execMatrixShadowApply c p s
  | .gmlEnableLow c p => Sys2Proof.Machine.execGmlEnableLow c p s
  | .desatTurnOff c p d => Sys2Proof.Machine.execDesatTurnOff c p d s
  | .gmlIdent c p q ok seq x => Sys2Proof.Machine.execGmlIdent c p q ok seq x s
  | .gmlSense c p q ok seq first l => Sys2Proof.Machine.execGmlSense c p q ok seq first l s
  | .gmlEdge c p q ok seq off g amp l age => Sys2Proof.Machine.execGmlEdge c p q ok seq off g amp l age s
  | .gmlCfgEcho c p q ok seq first crc => Sys2Proof.Machine.execGmlCfgEcho c p q ok seq first crc s
  | .gmlFault c p q ok b => Sys2Proof.Machine.execGmlFault c p q ok b s
  | .cfgEchoTimeout c p => Sys2Proof.Machine.execCfgEchoTimeout c p s
  | .gmlKeepDue c p => Sys2Proof.Machine.execGmlKeepDue c p s
  | .gmlDown c p => Sys2Proof.Machine.execGmlDown c p s
  | .identReqRetry c p => Sys2Proof.Machine.execIdentReqRetry c p s
  | .auxPgFall c q => Sys2Proof.Machine.execAuxPgFall c q s
  | .auxLoss c => Sys2Proof.Machine.execAuxLoss c s
  | .holdupReportEnd c => Sys2Proof.Machine.execHoldupReportEnd c s
  | .resLowNFall c => Sys2Proof.Machine.execResLowNFall c s
  | .auxLossClear c q => Sys2Proof.Machine.execAuxLossClear c q s
  | .cvResult c late raw ovl bad => Sys2Proof.Machine.execCvResult c late raw ovl bad s
  | .cvFaultTimeout c limits => Sys2Proof.Machine.execCvFaultTimeout c limits s
  | .auxConversionComplete c code ok => Sys2Proof.Machine.execAuxConversionComplete c code ok s
  | .auxTrigGo c => Sys2Proof.Machine.execAuxTrigGo c s
  | .auxScanTimer c => Sys2Proof.Machine.execAuxScanTimer c s
  | .auxUrgentRequest c e => Sys2Proof.Machine.execAuxUrgentRequest c e s
  | .auxResRead c => Sys2Proof.Machine.execAuxResRead c s
  | .faultRaise level k ext => Sys2Proof.Machine.execFaultRaise level k ext s
  | .quietTimeExpiry => Sys2Proof.Machine.execQuietTimeExpiry s
  | .captureWindowEnd cell => Sys2Proof.Machine.execCaptureWindowEnd cell s
  | .cfltRecUnlatch => Sys2Proof.Machine.execCfltRecUnlatch s
  | .tripOutClear n => Sys2Proof.Machine.execTripOutClear n s
  | .fltFirstClear level k => Sys2Proof.Machine.execFltFirstClear level k s
  | .tripInChange n q low => Sys2Proof.Machine.execTripInChange n q low s
  | .cellFaultRelease c src => Sys2Proof.Machine.execCellFaultRelease c src s
  | .alertAck c => Sys2Proof.Machine.execAlertAck c s
  | .overvoltageTrip c q => Sys2Proof.Machine.execOvervoltageTrip c q s
  | .overvoltageRelease c q => Sys2Proof.Machine.execOvervoltageRelease c q s
  | .blocknetFault r active => Sys2Proof.Machine.execBlocknetFault r active s
  | .leaseReceive q l m heard hq => Sys2Proof.Machine.execLeaseReceive q l m heard hq s
  | .stateReceive q h g => Sys2Proof.Machine.execStateReceive q h g s
  | .mirrorCopyApply => Sys2Proof.Machine.execMirrorCopyApply s
  | .tripReceive q h => Sys2Proof.Machine.execTripReceive q h s
  | .yieldReqReceive q h => Sys2Proof.Machine.execYieldReqReceive q h s
  | .handoverAckReceive q h => Sys2Proof.Machine.execHandoverAckReceive q h s
  | .handoverAbandon => Sys2Proof.Machine.execHandoverAbandon s
  | .peerLost => Sys2Proof.Machine.execPeerLost s
  | .claimTimeout => Sys2Proof.Machine.execClaimTimeout s
  | .mirrCmdHandover h => Sys2Proof.Machine.execMirrCmdHandover h s
  | .mirrCmdReqYield => Sys2Proof.Machine.execMirrCmdReqYield s
  | .mirrCmdClaim => Sys2Proof.Machine.execMirrCmdClaim s
  | .orphanTx c => Sys2Proof.Machine.execOrphanTx c s
  | .mirrorLanesAligned peerB => Sys2Proof.Machine.execMirrorLanesAligned peerB s
  | .mirrorOfferReceive o m => Sys2Proof.Machine.execMirrorOfferReceive o m s
  | .mirrorConfirmReceive right m => Sys2Proof.Machine.execMirrorConfirmReceive right m s
  | .mirrorConfirmTimeout => Sys2Proof.Machine.execMirrorConfirmTimeout s
  | .mirrorRetry => Sys2Proof.Machine.execMirrorRetry s
  | .mirrorLinkDown => Sys2Proof.Machine.execMirrorLinkDown s
  | .modeCmdTarget target => Sys2Proof.Machine.execModeCmdTarget target s
  | .modeCmdFullReset => Sys2Proof.Machine.execModeCmdFullReset s
  | .modeChangeEffect => Sys2Proof.Machine.execModeChangeEffect s
  | .descent => Sys2Proof.Machine.execDescent s
  | .descentRetry => Sys2Proof.Machine.execDescentRetry s
  | .wakeEvent => Sys2Proof.Machine.execWakeEvent s
  | .latTolWrite v => Sys2Proof.Machine.execLatTolWrite v s
  | .imageRestoreComplete ok => Sys2Proof.Machine.execImageRestoreComplete ok s
  | .resumeTimeout => Sys2Proof.Machine.execResumeTimeout s
  | .avsEvaluate => Sys2Proof.Machine.execAvsEvaluate s
  | .avsAck rail => Sys2Proof.Machine.execAvsAck rail s
  | .avsAckTimeout rail => Sys2Proof.Machine.execAvsAckTimeout rail s
  | .gaugeRecalibrate mv => Sys2Proof.Machine.execGaugeRecalibrate mv s
  | .glimmerLaneCheck r => Sys2Proof.Machine.execGlimmerLaneCheck r s
  | .glimmerCellSample c l => Sys2Proof.Machine.execGlimmerCellSample c l s
  | .glimmerOwnerLoss c => Sys2Proof.Machine.execGlimmerOwnerLoss c s
  | .doorbellRead idx res => Sys2Proof.Machine.execDoorbellRead idx res s
  | .ringCfgWrite v => Sys2Proof.Machine.execRingCfgWrite v s
  | .msixModerationExpiry v => Sys2Proof.Machine.execMsixModerationExpiry v s
  | .msixUnmask v => Sys2Proof.Machine.execMsixUnmask v s
  | .traceDeliver r => Sys2Proof.Machine.execTraceDeliver r s
  | .stnFrameReceive p q frame sub mine fcs => Sys2Proof.Machine.execStnFrameReceive p q frame sub mine fcs s
  | .stnFrameTransmit p timed => Sys2Proof.Machine.execStnFrameTransmit p timed s
  | .paramWrite c r ad data => Sys2Proof.Machine.execParamWrite c r ad data s
  | .paramRead c r ad len => Sys2Proof.Machine.execParamRead c r ad len s
  | .nopCommand c => Sys2Proof.Machine.execNopCommand c s
  | .imageLoad c im => Sys2Proof.Machine.execImageLoad c im s
  | .cellReg c cell write addr value => Sys2Proof.Machine.execCellReg c cell write addr value s
  | .cellMem c cell addr len data write => Sys2Proof.Machine.execCellMem c cell addr len data write s
  | .stnTx c p frame launch late ts => Sys2Proof.Machine.execStnTx c p frame launch late ts s
  | .clauseStage c items => Sys2Proof.Machine.execClauseStage c items s
  | .clauseCheck c => Sys2Proof.Machine.execClauseCheck c s
  | .clauseArm c e => Sys2Proof.Machine.execClauseArm c e s
  | .clauseDiscard c => Sys2Proof.Machine.execClauseDiscard c s
  | .clauseAbandon c id => Sys2Proof.Machine.execClauseAbandon c id s
  | .clauseCommit => Sys2Proof.Machine.execClauseCommit s
  | .clauseApply => Sys2Proof.Machine.execClauseApply s
  | .clauseClose => Sys2Proof.Machine.execClauseClose s
  | .cellSetApply c => Sys2Proof.Machine.execCellSetApply c s
  | .cellSetExpiry c => Sys2Proof.Machine.execCellSetExpiry c s
  | .hostWedge cause => Sys2Proof.Machine.execHostWedge cause s
  | .perstNAssert => Sys2Proof.Machine.execPerstNAssert s
  | .sysResetNRise unit boot => Sys2Proof.Machine.execSysResetNRise unit boot s
  | .fullReset => Sys2Proof.Machine.execFullReset s
  | .wardenRomComplete err => Sys2Proof.Machine.execWardenRomComplete err s
  | .bootImageLoad im => Sys2Proof.Machine.execBootImageLoad im s
  | .selftestComplete fails => Sys2Proof.Machine.execSelftestComplete fails s
  | .discoveryReply r t q d => Sys2Proof.Machine.execDiscoveryReply r t q d s
  | .keyExchangeReply r t q k => Sys2Proof.Machine.execKeyExchangeReply r t q k s
  | .treeSwitch r t => Sys2Proof.Machine.execTreeSwitch r t s
  | .enumTimeout r t => Sys2Proof.Machine.execEnumTimeout r t s
  | .cellResetExit c patch => Sys2Proof.Machine.execCellResetExit c patch s
  | .elsumResetN c => Sys2Proof.Machine.execElsumResetN c s
  | .secCtlCommit => Sys2Proof.Machine.execSecCtlCommit s
  | .secCtlSvnRaise => Sys2Proof.Machine.execSecCtlSvnRaise s
  | .secChal part => Sys2Proof.Machine.execSecChal part s
  | .secResp part ok => Sys2Proof.Machine.execSecResp part ok s
  | .extest part sel => Sys2Proof.Machine.execExtest part sel s
  | .jtagCellReg c write a data len => Sys2Proof.Machine.execJtagCellReg c write a data len s
  | .secTamper => Sys2Proof.Machine.execSecTamper s
  | .elsumTamper c => Sys2Proof.Machine.execElsumTamper c s
  | .mramRefresh part => Sys2Proof.Machine.execMramRefresh part s
  | .die0Watchdog => Sys2Proof.Machine.execDie0Watchdog s
  | .gateFeedbackOn c p q => Sys2Proof.Machine.execGateFeedbackOn c p q s
  | .portModuleFault c p fault => Sys2Proof.Machine.execPortModuleFault c p fault s

end Sys2Proof.Machine
end

