-- ==== Sys2Proof/Machine/Tick.lean ====
section
/-! DEFINITION. One tick of the block with no command waiting: one edge of REFCLK, the clocks of the cells, and the MRAM queue. -/

namespace Sys2Proof.Machine

/-- The clocks of the running cells go on by 8 ns of their oscillators, one period of REFCLK (R55, R72, R75). -/
def State.cellsTick (s : State) : State :=
  { s with cells := s.cells.map fun (q : Nat × CellSt) =>
      (q.1, if q.2.runs then { q.2 with time := q.2.time.run 32 } else q.2) }
/-- What happens at a tick whatever is commanded (log entry 36, DESIGN CHOICE). -/
def State.tick (s : State) : State :=
  let s := s.refclkEdge.cellsTick
  { s with mode := { s.mode with mramQueue := s.mode.mramQueue - 1 } }

end Sys2Proof.Machine
end

