-- ==== Sys2Proof/Safety.lean ====
section
/-! DEFINITION. What counts as a safe state of the block, in the terms the claims use. -/

namespace Sys2Proof.Machine

/-- Both memories are in their canonical form. -/
def State.memOk (s : State) : Bool := Memory.wf s.sram && Memory.wf s.cellMem
/-- No complementary pair of a cell has both its positions commanded on (R265). -/
def CellSt.pairsOk (x : CellSt) : Bool := !(x.gate 0 && x.gate 1) && !(x.gate 2 && x.gate 3)
/-- No cell of the network shorts its capacitor. -/
def State.cellsOk (s : State) : Bool := s.cells.all fun (q : Nat × CellSt) => q.2.pairsOk
/-- Every position of a cell is commanded off. -/
def CellSt.allOff (x : CellSt) : Bool := !x.gate 0 && !x.gate 1 && !x.gate 2 && !x.gate 3
/-- A register file in the canonical form: fields strictly rising. -/
def State.regsOk (s : State) : Bool := frising s.regs
/-- A run of steps with no fault and no refusal reaches `t` from `s`. -/
def reaches : Nat → State → State → Prop
  | 0, s, t => s = t
  | k + 1, s, t => ∃ u, step s = .next u ∧ reaches k u t

end Sys2Proof.Machine
end

