-- ==== Sys2Proof/WellFormed.lean ====
section
/-! DEFINITION. Well-formed commands: every index names a place that the largest variant has, a register access is aligned, and no datapath field holds a reserved value (R8, R9, R11, R21, R45, R164, R165, R412). -/

namespace Sys2Proof

/-- A region die (R8). -/
def regionOk (r : Nat) : Bool := decide (r < 8)
/-- A tree of a region (R8). -/
def treeOk (r t : Nat) : Bool := regionOk r && decide (t < 32)
/-- A slot of a tree (R9). -/
def slotOk (r t j : Nat) : Bool := treeOk r t && decide (j < 128)
/-- An engine of a region (R8): 8 clusters of 16. -/
def engineOk (r e : Nat) : Bool := regionOk r && decide (e < 128)
/-- A global cell index (R45). -/
def cellOk (c : Nat) : Bool := decide (c < 32768)
/-- A tree port of a cell: A or B. -/
def portOk (c p : Nat) : Bool := cellOk c && decide (p < 2)
/-- A position of a cell: P1 to P4. -/
def positionOk (c p : Nat) : Bool := cellOk c && decide (p < 4)
/-- A complementary pair of a cell (R265). -/
def pairOk (c g : Nat) : Bool := cellOk c && decide (g < 2)
/-- An Elsum, or the unit. -/
def partOk (x : Option Nat) : Bool := match x with | some c => cellOk c | none => true
/-- A command descriptor's ring (R412). -/
def HostCmd.wf (c : HostCmd) : Bool := decide (c.ring < 64)

/-- Whether a command is well formed. -/
def Instr.wf : Instr → Bool
  | .registerWrite part a _ => partOk part && decide (a % 4 = 0)
  | .registerLowWordRead part a => partOk part && decide (a % 4 = 0)
  | .timeNsRead => true
  | .timeIncrWrite _ => true
  | .timeStepWrite _ => true
  | .refclkLoss => true
  | .refclkReturn => true
  | .epoch => true
  | .periodBeaconLaunch => true
  | .enumerationBeaconLaunch r t => treeOk r t
  | .glimmerBeaconLaunch => true
  | .blockBeaconLaunch r t => treeOk r t
  | .managementFrameLaunch r t => treeOk r t
  | .ppsOutPulse => true
  | .ppsOutPulseEnd => true
  | .ppsInEdge _ => true
  | .ppsLost => true
  | .timeEvtInputEdge n _ => decide (n < 2)
  | .tevtOutTimeWrite n _ => (n == 2 || n == 3)
  | .tevtOutPulse n => (n == 2 || n == 3)
  | .periodBeaconAccept c p _ _ _ => portOk c p
  | .blockBeaconAccept c p _ _ _ => portOk c p
  | .enumerationBeaconAccept c p _ _ _ => portOk c p
  | .glimmerBeaconAccept c p _ _ _ => portOk c p
  | .managementFrameAccept c p _ _ _ => portOk c p
  | .glintLaunch c _ => cellOk c
  | .alertMarkerLaunch c _ _ => cellOk c
  | .glintReceive r t _ _ => treeOk r t
  | .alertDeclare r t _ _ => treeOk r t
  | .glintMiss r t j => slotOk r t j
  | .treeLost r t => treeOk r t
  | .treeTxFault r t => treeOk r t
  | .treeCmdReset r t => treeOk r t
  | .treeCmdRecover r t => treeOk r t
  | .mgmtTimeout r t j => slotOk r t j
  | .mgmtRegisterAccess c p => portOk c p
  | .mgmtMemoryWrite c p => portOk c p
  | .mgmtMemoryRead c p => portOk c p
  | .mgmtParameterSet c p => portOk c p
  | .mgmtCrcQuery c p => portOk c p
  | .rangingRequest c p => portOk c p
  | .rerangeHoldMessage c p => portOk c p
  | .rerangeResultMessage c p => portOk c p
  | .discReq c p => portOk c p
  | .assign c p => portOk c p
  | .park c p => portOk c p
  | .kxOffer c p _ _ _ _ => portOk c p
  | .kxPoll c p _ => portOk c p
  | .kxDone c p _ _ _ => portOk c p
  | .triggerPost r _ _ _ => regionOk r
  | .take r e => engineOk r e
  | .steal r e => engineOk r e
  | .crossRegionSteal r e => engineOk r e
  | .verbComplete r e _ => engineOk r e
  | .stealLost h => decide (h < 8)
  | .class1Deadline r _ => regionOk r
  | .snapshotComplete r => regionOk r
  | .gaugeMeasure r _ _ => regionOk r
  | .dispSlackRead r => regionOk r
  | .verbFetch r e => engineOk r e
  | .verbMac r e => engineOk r e
  | .verbBiq r e => engineOk r e
  | .verbInt r e => engineOk r e
  | .verbLim r e => engineOk r e
  | .verbVec r e => engineOk r e
  | .verbCmp r e => engineOk r e
  | .verbChoose r e => engineOk r e
  | .verbNlevel r e => engineOk r e
  | .verbRankq r e => engineOk r e
  | .verbSelect r e => engineOk r e
  | .verbSvrd r e => engineOk r e
  | .verbGoosePut r e => engineOk r e
  | .verbBlockReq r e => engineOk r e
  | .verbProg r e => engineOk r e
  | .dpNop r e => engineOk r e
  | .dpMov r e _ _ => engineOk r e
  | .dpLdi r e _ _ => engineOk r e
  | .dpLdih r e _ _ => engineOk r e
  | .dpLd r e _ _ _ => engineOk r e
  | .dpSt r e _ _ _ => engineOk r e
  | .dpAdd r e _ _ _ => engineOk r e
  | .dpSub r e _ _ _ => engineOk r e
  | .dpAdds r e _ _ _ => engineOk r e
  | .dpSubs r e _ _ _ => engineOk r e
  | .dpMul r e _ _ _ => engineOk r e
  | .dpAbs r e _ _ => engineOk r e
  | .dpNeg r e _ _ => engineOk r e
  | .dpMin r e _ _ _ => engineOk r e
  | .dpMax r e _ _ _ => engineOk r e
  | .dpAsh r e _ _ sh => engineOk r e && decide (sh ≠ 32)
  | .dpAnd r e _ _ _ => engineOk r e
  | .dpOr r e _ _ _ => engineOk r e
  | .dpXor r e _ _ _ => engineOk r e
  | .dpCsel r e _ _ _ _ => engineOk r e
  | .dpCmp r e _ _ => engineOk r e
  | .dpClra r e _ => engineOk r e
  | .dpMacr r e _ _ _ _ _ => engineOk r e
  | .dpMacm r e _ _ _ _ _ => engineOk r e
  | .dpAccw r e _ _ _ => engineOk r e
  | .dpExt r e _ _ sh => engineOk r e && decide (sh.toNat ≤ 40)
  | .dpExpa r e _ _ => engineOk r e
  | .dpNorma r e _ _ => engineOk r e
  | .dpExp r e _ _ => engineOk r e
  | .dpNorm r e _ _ _ => engineOk r e
  | .dpBr r e _ _ => engineOk r e
  | .dpLoop r e _ _ => engineOk r e
  | .dpOut r e _ _ => engineOk r e
  | .dpEnd r e => engineOk r e
  | .measFrameReceive r l _ _ f => regionOk r && decide (l < 8) && decide (f.codes.length = 4)
  | .measLatch r _ => regionOk r
  | .loopOpen r l => regionOk r && decide (l < 64)
  | .loopCloseKeep r l => regionOk r && decide (l < 64)
  | .loopCloseClear r l => regionOk r && decide (l < 64)
  | .loopStateApply r => regionOk r
  | .svFrameReceive _ => true
  | .svLost n => decide (n < 32)
  | .gooseReceive _ => true
  | .rtHoldExpiry => true
  | .gooseTal n => decide (n < 16)
  | .gooseChangeSend n => decide (n < 8)
  | .gooseRetransmit n => decide (n < 8)
  | .commandDeadline c _ _ => cellOk c
  | .cellEpoch c => cellOk c
  | .gateEdge c g => pairOk c g
  | .deadTimeExpiry c g => pairOk c g
  | .carrierPeak c g => cellOk c && decide (g < 2)
  | .carrierValley c => cellOk c
  | .bypSwConfClose c => cellOk c
  | .bypFirePulseEnd c => cellOk c
  | .bypRefire c => cellOk c
  | .gateFbTimeout c p _ => positionOk c p
  | .dbgHalt c => cellOk c
  | .dbgResume c _ => cellOk c
  | .identReq c p => positionOk c p
  | .cfgWrite c p _ _ _ _ _ => positionOk c p
  | .cfgRead c p _ _ _ _ _ => positionOk c p
  | .keep c p _ => positionOk c p
  | .matrixShadowApply c p => positionOk c p
  | .gmlEnableLow c p => positionOk c p
  | .desatTurnOff c p d => positionOk c p && decide (d < 128)
  | .gmlIdent c p _ _ _ _ => positionOk c p
  | .gmlSense c p _ _ _ _ _ => positionOk c p
  | .gmlEdge c p _ _ _ _ _ _ _ _ => positionOk c p
  | .gmlCfgEcho c p _ _ _ _ _ => positionOk c p
  | .gmlFault c p _ _ _ => positionOk c p
  | .cfgEchoTimeout c p => positionOk c p
  | .gmlKeepDue c p => positionOk c p
  | .gmlDown c p => positionOk c p
  | .identReqRetry c p => positionOk c p
  | .auxPgFall c _ => cellOk c
  | .auxLoss c => cellOk c
  | .holdupReportEnd c => cellOk c
  | .resLowNFall c => cellOk c
  | .auxLossClear c _ => cellOk c
  | .cvResult c _ _ _ _ => cellOk c
  | .cvFaultTimeout c _ => cellOk c
  | .auxConversionComplete c _ _ => cellOk c
  | .auxTrigGo c => cellOk c
  | .auxScanTimer c => cellOk c
  | .auxUrgentRequest c e => cellOk c && decide (e < 5)
  | .auxResRead c => cellOk c
  | .faultRaise _ _ _ => true
  | .quietTimeExpiry => true
  | .captureWindowEnd cell => partOk cell
  | .cfltRecUnlatch => true
  | .tripOutClear n => decide (n < 4)
  | .fltFirstClear _ _ => true
  | .tripInChange n _ _ => decide (n < 4)
  | .cellFaultRelease c _ => cellOk c
  | .alertAck c => cellOk c
  | .overvoltageTrip c _ => cellOk c
  | .overvoltageRelease c _ => cellOk c
  | .blocknetFault r _ => regionOk r
  | .leaseReceive _ _ _ _ _ => true
  | .stateReceive _ _ _ => true
  | .mirrorCopyApply => true
  | .tripReceive _ _ => true
  | .yieldReqReceive _ _ => true
  | .handoverAckReceive _ _ => true
  | .handoverAbandon => true
  | .peerLost => true
  | .claimTimeout => true
  | .mirrCmdHandover _ => true
  | .mirrCmdReqYield => true
  | .mirrCmdClaim => true
  | .orphanTx c => cellOk c
  | .mirrorLanesAligned _ => true
  | .mirrorOfferReceive _ _ => true
  | .mirrorConfirmReceive _ _ => true
  | .mirrorConfirmTimeout => true
  | .mirrorRetry => true
  | .mirrorLinkDown => true
  | .modeCmdTarget target => decide (target < 16)
  | .modeCmdFullReset => true
  | .modeChangeEffect => true
  | .descent => true
  | .descentRetry => true
  | .wakeEvent => true
  | .latTolWrite _ => true
  | .imageRestoreComplete _ => true
  | .resumeTimeout => true
  | .avsEvaluate => true
  | .avsAck rail => decide (rail < 2)
  | .avsAckTimeout rail => decide (rail < 2)
  | .gaugeRecalibrate _ => true
  | .glimmerLaneCheck r => regionOk r
  | .glimmerCellSample c _ => cellOk c
  | .glimmerOwnerLoss c => cellOk c
  | .doorbellRead _ res => decide (res < 3)
  | .ringCfgWrite _ => true
  | .msixModerationExpiry v => decide (v < 64)
  | .msixUnmask v => decide (v < 64)
  | .traceDeliver r => regionOk r
  | .stnFrameReceive p _ _ _ _ _ => decide (p < 2)
  | .stnFrameTransmit p _ => decide (p < 2)
  | .paramWrite c r _ _ => c.wf && regionOk r
  | .paramRead c r _ _ => c.wf && regionOk r
  | .nopCommand c => c.cmd.wf && decide (c.op < 256) && (c.op == 1 || !([2, 3, 4, 5, 6, 7, 0x10, 0x11, 0x12, 0x13, 0x14].contains c.op))
  | .imageLoad c _ => c.wf
  | .cellReg c cell _ _ _ => c.wf && cellOk cell
  | .cellMem c cell _ _ _ _ => c.wf && cellOk cell
  | .stnTx c p _ _ _ _ => c.wf && decide (p < 2)
  | .clauseStage c _ => c.wf
  | .clauseCheck c => c.wf
  | .clauseArm c _ => c.wf
  | .clauseDiscard c => c.wf
  | .clauseAbandon c id => c.wf && decide (id < 4096)
  | .clauseCommit => true
  | .clauseApply => true
  | .clauseClose => true
  | .cellSetApply c => cellOk c
  | .cellSetExpiry c => cellOk c
  | .hostWedge cause => decide (cause < 3)
  | .perstNAssert => true
  | .sysResetNRise unit boot => decide (unit < 2) && decide (boot < 4)
  | .fullReset => true
  | .wardenRomComplete err => decide (err < 4)
  | .bootImageLoad _ => true
  | .selftestComplete _ => true
  | .discoveryReply r t _ _ => treeOk r t
  | .keyExchangeReply r t _ _ => treeOk r t
  | .treeSwitch r t => treeOk r t
  | .enumTimeout r t => treeOk r t
  | .cellResetExit c patch => cellOk c && decide (patch < 3)
  | .elsumResetN c => cellOk c
  | .secCtlCommit => true
  | .secCtlSvnRaise => true
  | .secChal part => partOk part
  | .secResp part _ => partOk part
  | .extest part _ => partOk part
  | .jtagCellReg c _ _ _ _ => cellOk c
  | .secTamper => true
  | .elsumTamper c => cellOk c
  | .mramRefresh part => partOk part
  | .die0Watchdog => true
  | .gateFeedbackOn c p _ => positionOk c p
  | .portModuleFault c p _ => portOk c p

end Sys2Proof
end

