-- ==== Sys2Proof/Certificates/Slice0/Obligations.lean ====
section
/-! DEFINITION. The statements for the provers, from the numbered rules of the manual. -/

open Sys2Proof Sys2Proof.Machine

/-! ### Words the statements use -/

namespace Sys2Proof.Claims

/-- `exec c s` answers a next state of which `P` holds. -/
def Does (c : Instr) (s : State) (P : State → Prop) : Prop := ∃ t, exec c s = .next t ∧ P t
/-- No byte of either memory differs. -/
def SameMem (s t : State) : Prop := ∀ a, memGet t.sram a = memGet s.sram a ∧ memGet t.cellMem a = memGet s.cellMem a
/-- Every register field of the unit but those named reads as before. -/
def SameRegs (fs : List Fld) (s t : State) : Prop := ∀ f : Fld, (∀ g ∈ fs, f.lsb ≠ g.lsb) → t.rd f = s.rd f
/-- Every register field of Elsum `c` but those named reads as before, and every other Elsum is as it was. -/
def SameCells (c : Nat) (fs : List Fld) (s t : State) : Prop :=
  (∀ f : Fld, (∀ g ∈ fs, f.lsb ≠ g.lsb) → t.crd c f = s.crd c f) ∧ ∀ d, d ≠ c → t.cell d = s.cell d
/-- The unit but for its collectors and free values, and the memories, are as they were: what a command of an Elsum leaves alone. -/
def UnitKept (s t : State) : Prop :=
  t.regs = s.regs ∧ t.trees = s.trees ∧ t.arms = s.arms ∧ t.rank = s.rank ∧ t.mode = s.mode ∧ t.host = s.host ∧ t.clause = s.clause
    ∧ t.mirror = s.mirror ∧ t.time = s.time ∧ t.disp = s.disp ∧ t.sram = s.sram ∧ t.pending = s.pending
/-- No step of the counter applies on its way: in M5 to M11 a step waits for EPOCH, and elsewhere none is armed or committed (R63). -/
def Plain (s : State) : Prop := s.epochs = true ∨ (s.time.armed = none ∧ s.time.committed = none)
/-- The word a register of two words takes: the held low word, or the one it has, and the high word written (R21, R484). -/
def word2 (s : State) (a : Nat) (f : Fld) (hi : W32) : Nat := fget (s.rd f % 2 ^ 32) s.held a % 2 ^ 32 + hi.toNat * 2 ^ 32

end Sys2Proof.Claims

open Sys2Proof.Claims

/-! ### The step -/

/-- A step takes the command at the front of the queue and runs it with the rest. -/
def Obligations.StepRunsFront : Prop :=
  ∀ (s : State) (c : Instr) (rest : List Instr), s.pending = c :: rest → step s = exec c { s with pending := rest }

/-- On an empty queue a step is one edge of REFCLK (R55, R56; that a step stands for an edge is log entry 36): in M1 to M11, with REFCLK there and no step
armed or committed, the counter advances by TIME_INCR; a running cell's clock by 8 ns of its oscillator, at its loop's last frequency correction (R75);
no register, memory or queue changes. -/
def Obligations.StepTicks : Prop :=
  ∀ s : State, s.pending = [] → s.time.refclk = true → s.modeNo ≠ 0 → s.time.armed = none → s.time.committed = none → s.mirror.broke = false →
    ∃ t, step s = .next t ∧ t.time.ctr = s.time.ctr + BitVec.ofNat 96 (s.rd Reg.TIME_INCR_INCR % 2 ^ 40)
      ∧ t.regs = s.regs ∧ t.sram = s.sram ∧ t.cellMem = s.cellMem ∧ t.pending = [] ∧ t.trees = s.trees
      ∧ ∀ c, ((s.cell c).runs = true → fhas s.cells c = true → (t.cell c).time = (s.cell c).time.run 32)
        ∧ (t.cell c).regs = (s.cell c).regs

/-- What reset leaves, where the manual says it (R57, R380, R435, R488 to R494): M0, period 0, the counter at 0, the default period, lead and rate, the
Mirror link down with its source active, no ring enabled, nothing staged or armed, no tree enabled, no command waiting; both memories in their
canonical form. That CHIP_ID shows 8 dies is the B8 of log entry 2. -/
def Obligations.ResetState : Prop :=
  let s := State.reset
  s.modeNo = 0 ∧ s.pn = 0 ∧ s.time.ctr = 0 ∧ s.period = 10000 ∧ s.rd Reg.BEACON_LEAD_LEAD = 2000 ∧ s.rd Reg.TIME_INCR_INCR = 0x0800000000
    ∧ s.linkUp = false ∧ s.active .chip Src.MIRROR_DOWN = true ∧ (∀ n, s.on (ringF n Reg.RING_CFG_EN) = false)
    ∧ s.clause = {} ∧ s.allTrees = [] ∧ s.pending = [] ∧ s.rd Reg.CHIP_ID_DIES = 8 ∧ s.memOk = true

/-! ### Time (R55 to R66, R90 to R92) -/

/-- The register accesses of the time block: a read of TIME_NS captures all 96 bits as the timed domain reads them (R56, R58); TIME_INCR takes a rate within 500 ppm and refuses another (R60);
TIME_STEP arms a step (R62); TEVT_OUT_TIME arms a pulse, or sets TEVT_LATE (R92); PPS_OUT_CFG with EN = 0 drives the ball low (R90). -/
def Sys2Proof.Claims.TimeRegisters : Prop :=
  (∀ s : State, exec .timeNsRead s = .next { s with
      lastRead := BitVec.ofNat 32 (s.tickValue.toNat / 2 ^ 32)
      latch := fset 0x1008 (s.tickValue.toNat % 2 ^ 32) (fset 0x1004 (s.tickValue.toNat / 2 ^ 64) s.latch) })
  ∧ (∀ (s : State) (hi : W32), s.takesWrites = true →
      let v := word2 s 0x1010 Reg.TIME_INCR_INCR hi % 2 ^ 40
      exec (.timeIncrWrite hi) s = .next
        (if 0x07FEF9DB23 ≤ v ∧ v ≤ 0x08010624DD then { s with held := [] }.wr Reg.TIME_INCR_INCR v else { s with held := [] }.wr Reg.TIME_STAT_INCR_REFUSED 1))
  ∧ (∀ (s : State) (hi : W32), s.takesWrites = true → Does (.timeStepWrite hi) s fun t =>
      t.time.armed = some (BitVec.ofNat 64 (word2 s 0x1018 Reg.TIME_STEP_STEP hi)) ∧ t.time.ctr = s.time.ctr ∧ t.on Reg.TIME_STAT_STEP_ARMED = true
        ∧ SameRegs [Reg.TIME_STEP_STEP, Reg.TIME_STAT_STEP_ARMED] s t ∧ SameMem s t ∧ t.cells = s.cells)
  ∧ (∀ (s : State) (n : Nat) (hi : W32), n = 2 ∨ n = 3 → s.takesWrites = true →
      let v := word2 s (0x1080 + 8 * (n - 2)) (tevtOutFld n) hi
      Does (.tevtOutTimeWrite n hi) s fun t =>
        t.rd (tevtOutFld n) = v ∧ (if v < s.ns then t.on Reg.TIME_STAT_TEVT_LATE = true ∧ t.time.tevtArm = s.time.tevtArm
            else fget 0 t.time.tevtArm n = v ∧ t.rd Reg.TIME_STAT_TEVT_LATE = s.rd Reg.TIME_STAT_TEVT_LATE)
          ∧ SameRegs [tevtOutFld n, Reg.TIME_STAT_TEVT_LATE] s t ∧ SameMem s t ∧ t.cells = s.cells)
  ∧ (∀ (s : State) (lo hi : W32), s.takesWrites = true → fhas s.held 0x1040 = true → fget 0 s.held 0x1040 = lo.toNat →
      Does (.registerWrite none 0x1044 hi) s fun t => t.on Reg.PPS_OUT_CFG_EN = lo.toNat.testBit 31 ∧ t.rd Reg.PPS_OUT_CFG_OFFSET = lo.toNat % 2 ^ 13
        ∧ t.rd Reg.PPS_OUT_CFG_WIDTH = hi.toNat % 2 ^ 19 ∧ t.time.ppsOut = (lo.toNat.testBit 31 && s.time.ppsOut)
        ∧ SameRegs [Reg.PPS_OUT_CFG_EN, Reg.PPS_OUT_CFG_OFFSET, Reg.PPS_OUT_CFG_WIDTH] s t ∧ SameMem s t ∧ t.cells = s.cells)

/-- Edges and pulses of the time block: loss and return of REFCLK (R59), PPS_OUT (R90), PPS_IN (R91), TIME_EVT (R92). -/
def Sys2Proof.Claims.TimeEdges : Prop :=
  (∀ s : State, Does .refclkLoss s fun t => t.time.refclk = false ∧ t.time.ctr = s.time.ctr ∧ t.active .chip Src.REFCLK_LOSS = true
      ∧ t.on Reg.TIME_STAT_DISCONT = true ∧ SameRegs [Reg.TIME_STAT_DISCONT] s t ∧ SameMem s t ∧ t.cells = s.cells)
  ∧ (∀ s : State, Does .refclkReturn s fun t => t.time.refclk = true ∧ t.time.ctr = s.time.ctr ∧ t.active .chip Src.REFCLK_LOSS = false
      ∧ t.regs = s.regs ∧ SameMem s t ∧ t.cells = s.cells)
  ∧ (∀ s : State, s.running = true → s.on Reg.PPS_OUT_CFG_EN = true → 4000000000 ≤ quarters s.time.ctr → quarters s.time.ctr < 2 ^ 64 → Plain s →
      Does .ppsOutPulse s fun t => t.time.ppsOut = true ∧ t.regs = s.regs ∧ quarters s.time.ctr ≤ quarters t.time.ctr
        ∧ (∃ k : Nat, (quarters t.time.ctr : Int) = (k * 4000000000 : Nat) + sext 13 (s.rd Reg.PPS_OUT_CFG_OFFSET)) ∧ SameMem s t ∧ t.cells = s.cells)
  ∧ (∀ s : State, s.time.ppsOut = true → Plain s → Does .ppsOutPulseEnd s fun t => t.time.ppsOut = false ∧ t.regs = s.regs ∧ SameMem s t ∧ t.cells = s.cells
      ∧ (s.running = true → s.ns < s.time.ppsRise + 1000 * s.rd Reg.PPS_OUT_CFG_WIDTH → s.time.ppsRise + 1000 * s.rd Reg.PPS_OUT_CFG_WIDTH < 2 ^ 64 →
        t.ns = s.time.ppsRise + 1000 * s.rd Reg.PPS_OUT_CFG_WIDTH))
  ∧ (∀ (s : State) (q : Nat), let m := s.runBy q
      Does (.ppsInEdge q) s fun t => t.rd Reg.PPS_IN_TS_TS = tsWords (m.stamp 0) ∧ t.time.ctr = m.time.ctr ∧ t.active .chip Src.PPS_LOST = false
        ∧ (s.running = true → Plain s → quarters s.time.ctr + q < 2 ^ 66 → quarters t.time.ctr = quarters s.time.ctr + q)
        ∧ SameRegs [Reg.PPS_IN_TS_TS, Reg.CFLT_STAT_EV_LOST] m t ∧ SameMem s t ∧ t.cells = s.cells)
  ∧ (∀ (s : State) (n : Nat), s.time.ppsInLast = some n → s.on Reg.PPS_IN_CFG_EN = true → s.running = true → Plain s → n + 1100000000 < 2 ^ 64 →
      Does .ppsLost s fun t => n + 1100000000 ≤ t.ns ∧ t.on Reg.TIME_STAT_PPS_LOST = true ∧ t.active .chip Src.PPS_LOST = true
        ∧ SameRegs [Reg.TIME_STAT_PPS_LOST] s t ∧ SameMem s t ∧ t.cells = s.cells)
  ∧ (∀ (s : State) (n q : Nat), n < 2 → let m := s.runBy q
      Does (.timeEvtInputEdge n q) s fun t => t.time.ctr = m.time.ctr ∧ fget 0 t.time.tevtLast n = quarters m.time.ctr
        ∧ (if fhas m.time.tevtLast n = true ∧ quarters m.time.ctr < fget 0 m.time.tevtLast n + 4000 then
            t.rd Reg.TIME_STAT_TEVT_LOST = satInc 8 (m.rd Reg.TIME_STAT_TEVT_LOST) ∧ t.rd (tevtFld n) = m.rd (tevtFld n)
          else t.rd (tevtFld n) = tsWords (m.stamp 0) ∧ t.rd Reg.TIME_STAT_TEVT_LOST = m.rd Reg.TIME_STAT_TEVT_LOST)
        ∧ SameRegs [tevtFld n, Reg.TIME_STAT_TEVT_LOST, Reg.CFLT_STAT_EV_LOST] m t ∧ SameMem s t ∧ t.cells = s.cells)
  ∧ (∀ (s : State) (n v : Nat), s.time.tevtArm.find? (fun p => p.1 == n) = some (n, v) → s.running = true → Plain s → v < 2 ^ 64 →
      Does (.tevtOutPulse n) s fun t => fget 0 t.time.tevtHigh n = v + 8 * s.rd Reg.TEVT_OUT_CFG_WIDTH ∧ fhas t.time.tevtArm n = false ∧ v ≤ t.ns
        ∧ (s.ns < v → t.ns = v) ∧ t.regs = s.regs ∧ SameMem s t ∧ t.cells = s.cells)

/-- The time block: its registers, and its edges and pulses. -/
def Obligations.TimeBlock : Prop := Claims.TimeRegisters ∧ Claims.TimeEdges

/-! ### Every command -/

namespace Sys2Proof.Claims
/-- What a command of the unit leaves alone: its register fields but those named, both memories, and the Elsum cells. -/
def UnitOnly (fs : List Fld) (s t : State) : Prop := SameRegs fs s t ∧ SameMem s t ∧ t.cells = s.cells
/-- The trees but one are as they were. -/
def OtherTrees (r u : Nat) (s t : State) : Prop := ∀ r' u', treeKey r' u' ≠ treeKey r u → t.tree r' u' = s.tree r' u'
end Sys2Proof.Claims

/-- Every command completes in every state: none faults and none is refused. -/
def Obligations.CommandsComplete : Prop := ∀ (c : Instr) (s : State), ∃ t, exec c s = .next t

/-- A command's effect is on everything but the queue. -/
def Obligations.QueueUntouched : Prop := ∀ (c : Instr) (s t : State), exec c s = .next t → t.pending = s.pending

/-- Both memories keep their canonical form: addresses strictly rising, no entry equal to what an unlisted address reads as. -/
def Obligations.StepKeepsMemory : Prop := ∀ s t : State, s.memOk = true → step s = .next t → t.memOk = true

/-- A byte of memory reads what was written last at its address, and a write leaves every other address alone (R17: little-endian bytes). -/
def Obligations.MemoryReadsBack : Prop :=
  (∀ (s : State) (r a : Nat) (w : W32), (s.setWord r a w).rgnWord r a = w)
  ∧ (∀ (s : State) (r a r' a' n : Nat) (l : List Byte), rgnKey r' a' + n ≤ rgnKey r a ∨ rgnKey r a + l.length ≤ rgnKey r' a' →
      (s.rgnWrite r a l).rgnRead r' a' n = s.rgnRead r' a' n)
  ∧ (∀ (s : State) (c a : Nat) (l : List Byte), (s.cellWrite c a l).cellRead c a l.length = l)
  ∧ (∀ (s : State) (c a c' a' n : Nat) (l : List Byte), cellKey c' a' + n ≤ cellKey c a ∨ cellKey c a + l.length ≤ cellKey c' a' →
      (s.cellWrite c a l).cellRead c' a' n = s.cellRead c' a' n)

/-! ### Epochs and Beacons (R16, R27, R36, R63, R67, R100 to R103, R110, R445) -/

/-- EPOCH (R16, R63, R67): PN advances by one, or takes the partner's (R71), the counter stands at the grid point, plus a step committed for it; on every tree
that sends Beacons the records of the last one come into force. No Elsum changes. -/
def Obligations.EpochEffect : Prop :=
  (∀ s : State, s.epochs = true → s.running = true → s.ns < s.nextEpoch → s.nextEpoch < 2 ^ 64 → s.time.committed = none → s.pnNext < 2 ^ 64 →
    Does .epoch s fun t => t.pn = s.pnNext ∧ t.ns = s.nextEpoch ∧ t.time.epochAt = s.nextEpoch ∧ t.modeNo = s.modeNo
      ∧ (∀ r u j, (r, u) ∈ s.allTrees → j < s.slotsN r u → (t.slot r u j).recNow = (s.slot r u j).recNext ∧ (t.slot r u j).heard = false)
      ∧ t.cells = s.cells ∧ t.cellMem = s.cellMem ∧ t.arms = s.arms)
  ∧ (∀ (s : State) (v : W64) (n : Nat), s.epochs = true → s.running = true → s.ns < s.nextEpoch → s.time.committed = some (v, n) → n ≤ s.nextEpoch →
      0 ≤ (s.nextEpoch : Int) + v.toInt → (s.nextEpoch : Int) + v.toInt < 2 ^ 64 → s.nextEpoch < 2 ^ 64 → s.pnNext < 2 ^ 64 →
    Does .epoch s fun t => t.pn = s.pnNext ∧ (t.ns : Int) = (s.nextEpoch : Int) + v.toInt ∧ t.time.committed = none ∧ t.cells = s.cells)

/-- The period Beacon (R36, R101, R103, R110): launched on every tree that runs the plan, once a period, BEACON_LEAD before the epoch it names. Stated where no
transition, claim, handover or entry is in progress, no step is armed and no block Beacon waits. -/
def Sys2Proof.Claims.PeriodBeacon : Prop :=
  ∀ s : State, s.epochs = true → s.running = true → s.time.launched ≠ some s.pnNext → s.ns < s.launchAt → s.launchAt < 2 ^ 64 →
    s.mode.running = none → s.mirror.handover = none → s.mirror.handoverIn = none → s.time.armed = none →
    (∀ q ∈ s.allTrees, (s.tree q.1 q.2).blockDue = false) →
    Does .periodBeaconLaunch s fun t => t.ns = s.launchAt ∧ t.time.launched = some s.pnNext ∧ t.regs = s.regs
      ∧ (∀ r u, (r, u) ∈ s.allTrees → s.sendsPeriod r u = true → ∃ f : DownFrame, (t.tree r u).lastTx = some f ∧ f.hdr.kind = 1
          ∧ f.hdr.pn = BitVec.ofNat 64 s.pnNext ∧ f.hdr.mode = BitVec.ofNat 4 s.modeNo ∧ f.recs.length = s.slotsN r u
          ∧ f.mac = downMac (s.tree r u).useKey f.hdr ∧ (t.tree r u).txCount = (s.tree r u).txCount + 1
          ∧ ∀ j, j < s.slotsN r u → f.recs[j]? = some (t.slot r u j).recNext)
      ∧ SameMem s t ∧ t.cells = s.cells ∧ t.rank = s.rank

/-- A block Beacon ends a period Beacon that is on the lane, leaves as soon as the lane allows, before a period Beacon that still waits for the lane, and carries
the next SEQ of the period (R27, R100, R102). -/
def Sys2Proof.Claims.BlockBeacon : Prop :=
  ∀ (s : State) (r u : Nat), (s.tree r u).blockDue = true → s.epochs = true → (s.tree r u).stopped = false → 2 ≤ s.treeState r u → s.treeState r u ≤ 5 →
    (s.tree r u).seq < 255 →
    Does (.blockBeaconLaunch r u) s fun t => ∃ f : DownFrame, (t.tree r u).blockTx = some f ∧ f.hdr.kind = 2 ∧ f.hdr.pn = BitVec.ofNat 64 s.pn
      ∧ f.hdr.seq = BitVec.ofNat 8 ((s.tree r u).seq + 1) ∧ (t.tree r u).seq = (s.tree r u).seq + 1 ∧ f.recs = [] ∧ f.seg = none
      ∧ f.hdr.armBlocked = s.treeBlocked r u ∧ f.mac = downMac (s.tree r u).useKey f.hdr ∧ (t.tree r u).blockDue = false
      ∧ ((s.tree r u).beaconOn = true → quarters (s.tree r u).lastTxAt ≤ quarters s.time.ctr → quarters s.time.ctr < (s.tree r u).laneFree →
          (t.tree r u).beaconOn = false ∧ (t.tree r u).lastTx = some f
            ∧ quarters (t.tree r u).blockTxAt = abortEnd (quarters (s.tree r u).lastTxAt) (quarters s.time.ctr) % 2 ^ 66)
      ∧ ((s.tree r u).beaconOn = true → quarters s.time.ctr < quarters (s.tree r u).lastTxAt →
          (t.tree r u).beaconOn = true ∧ quarters (t.tree r u).blockTxAt = quarters (s.tree r u).lastTxAt)
      ∧ UnitOnly [] s t ∧ OtherTrees r u s t

/-- A management frame (R126, R127) goes out between Beacons while TREE_MGMT.EXTRA allows; it takes the transaction's next segment and the next SEQ. -/
def Sys2Proof.Claims.ManagementFrame : Prop :=
  ∀ (s : State) (r u : Nat) (tx : Txn), s.epochs = true → s.sendsPeriod r u = true → (s.tree r u).blockDue = false → (s.tree r u).seq < 255 →
    (s.tree r u).extraUsed < s.rd (tf r u Tree.TREE_MGMT_EXTRA) → quarters (s.laneTime r u) + 267 ≤ 4 * s.launchAt →
    ((s.tree r u).pick fun y => s.allowTxn r u y && !y.front) = some tx →
    Does (.managementFrameLaunch r u) s fun t => ∃ f : DownFrame, (t.tree r u).lastTx = some f ∧ f.hdr.kind = 5 ∧ f.recs = []
      ∧ f.seg = tx.segs[tx.next]? ∧ f.hdr.seq = BitVec.ofNat 8 ((s.tree r u).seq + 1) ∧ (t.tree r u).extraUsed = (s.tree r u).extraUsed + 1
      ∧ (t.tree r u).lastTxAt = s.laneTime r u ∧ UnitOnly [] s t ∧ OtherTrees r u s t

/-- The Beacons of a tree that runs no plan: an enumeration Beacon in a period without a request (R100, R445), and the Glimmer Beacon of M4 at a whole
millisecond (R69, R469). -/
def Sys2Proof.Claims.OtherBeacons : Prop :=
  (∀ (s : State) (r u : Nat), s.epochs = true → s.running = true → s.treeState r u = 2 → s.rd (ef r u Rgn.ENUM_TREE0_PHASE) ≠ 3 →
      (s.tree r u).stopped = false → (s.tree r u).beaconPn ≠ s.pn + 1 → s.pn % s.stride ≠ 0 →
    Does (.enumerationBeaconLaunch r u) s fun t => ∃ f : DownFrame, (t.tree r u).lastTx = some f ∧ f.hdr.kind = 3 ∧ f.hdr.pn = BitVec.ofNat 64 s.pn
      ∧ f.hdr.seq = 0 ∧ f.seg = none ∧ f.recs = [] ∧ f.mac = downMac (s.tree r u).useKey f.hdr ∧ (t.tree r u).beaconPn = s.pn + 1
      ∧ UnitOnly [] s t ∧ OtherTrees r u s t)
  ∧ (∀ s : State, s.modeNo = 4 → s.running = true → s.ns < s.glimmerAt → s.glimmerAt < 2 ^ 64 → Plain s →
    Does .glimmerBeaconLaunch s fun t => t.ns = s.glimmerAt ∧ t.ns % 1000000 = 0 ∧ t.time.lastGlimmer = s.glimmerAt
      ∧ (∀ r u, (r, u) ∈ s.allTrees → s.treeState r u = 1 → ∃ f : DownFrame, (t.tree r u).lastTx = some f ∧ f.hdr.kind = 4
          ∧ f.hdr.mode = (if 3 ≤ s.mode.exitStep then 5 else 4) ∧ f.hdr.timeNs = BitVec.ofNat 64 s.glimmerAt ∧ f.mac.ivPn = f.hdr.timeNs)
      ∧ UnitOnly [] s t)

/-- Every kind of frame that goes down a tree (R27, R36, R69, R100 to R103, R110, R126, R445): the period Beacon, the block Beacon, a management frame, the enumeration and the Glimmer Beacon. -/
def Obligations.Beacons : Prop := Claims.PeriodBeacon ∧ Claims.BlockBeacon ∧ Claims.ManagementFrame ∧ Claims.OtherBeacons

/-! ### Trees and their reports (R103, R114 to R131, R350, R401, R443 to R457) -/

namespace Sys2Proof.Claims
/-- An event of a source waits at a collector for its next tick. -/
def Raised (t : State) (c : Coll) (src : Nat) : Prop := (t.coll c).events.any (fun o => o.src == src) = true
/-- The register fields that the end of a management transaction can change: those of an armed Clause it ends, and the lost-event count. -/
def clauseFields : List Fld := [Reg.CLAUSE_STAT_ARMED, Reg.CLAUSE_STAT_CHECKED, Reg.CFLT_STAT_EV_LOST]
/-- No armed Clause changes the split of a tree's round trip (R123): its end tells no cell new delays. -/
def NoSplit (s : State) : Prop := ∀ r u, s.splitAt r u = none
end Sys2Proof.Claims

/-- A Glint on a tree that runs the plan (R103, R118, R131): in its window, with a good tag, in a slot of the plan that reports in this period, it is accepted;
with a bad tag it raises GLINT_TAG, outside the plan GLINT_MISPLACED, outside the window nothing. -/
def Obligations.GlintReception : Prop :=
  ∀ (s : State) (r u q : Nat) (g : Glint), s.epochs = true → 3 ≤ s.treeState r u → s.treeState r u ≤ 5 → g.kind = 1 →
    let m := s.runBy q
    let j := g.slot.toNat
    (m.inWindow r u = true → glintTag (m.tree r u).useKey m.pn 1 (cellIndex r u j) g.mac = true → j < m.slotsN r u → m.mapSerial r u j ≠ 0 →
        m.reports r u j m.pn = true → Does (.glintReceive r u q g) s fun t =>
          (t.slot r u j).heard = true ∧ (t.slot r u j).last = some g ∧ (t.slot r u j).lastAt = m.time.ctr ∧ (t.slot r u j).ownerSeen = some g.status.owner
            ∧ t.time = m.time
            ∧ UnitOnly ([tf r u Tree.TREE_CFG_STATE, rf r Rgn.RANK_STAT_INVALID, rf r Rgn.RANK_STAT_OLD, rf r Rgn.RANK_STAT_CEST_REJ,
                rf r Rgn.RANK_STAT_CAL_DONE, Reg.MIRR_AUTH_EPOCH, Reg.MODE_STAT_RESULT] ++ clauseFields) s t)
    ∧ (6 ≤ s.modeNo → m.inWindow r u = true → glintTag (m.tree r u).useKey m.pn 1 (cellIndex r u j) g.mac = false → j < m.slotsN r u → Does (.glintReceive r u q g) s fun t =>
          Raised t (.tree r u) Src.GLINT_TAG ∧ (t.slot r u j).tagFails = (s.slot r u j).tagFails + 1 ∧ (t.slot r u j).heard = (s.slot r u j).heard
            ∧ t.rank = s.rank ∧ OtherTrees r u s t ∧ UnitOnly [] s t)
    ∧ (6 ≤ s.modeNo → m.inWindow r u = true → glintTag (m.tree r u).useKey m.pn 1 (cellIndex r u j) g.mac = true → m.slotsN r u ≤ j →
        Does (.glintReceive r u q g) s fun t => Raised t (.tree r u) Src.GLINT_MISPLACED ∧ t.trees = s.trees ∧ t.rank = s.rank ∧ UnitOnly [] s t)
    ∧ (6 ≤ s.modeNo → m.inWindow r u = false → Does (.glintReceive r u q g) s fun t => t = m)

/-- What a tree port finds missing (R79, R110, R115, R120, R131, R407): an alert window with 8 ns of light, stamped with its start, a slot silent for MISS_N periods, a tree silent for LOST_N. -/
def Sys2Proof.Claims.TreeAlarms : Prop :=
  (∀ (s : State) (r u m light : Nat), s.alertsOpen r u = true → 32 ≤ light → (s.modeNo = 4 → m ≤ 7) → (s.modeNo ≠ 4 → 1250 * m + 60 ≤ s.period) → Plain s →
    Does (.alertDeclare r u m light) s fun t => Raised t (.tree r u) Src.ALERT
      ∧ (t.tree r u).lastAlert = BitVec.ofNat 96 ((if s.modeNo = 4 then 4 * (s.time.lastGlimmer + 20000 + 1250 * m)
          else (((4 * (s.time.epochAt + 1250 * m) : Nat) : Int) + (s.tree r u).provOfs / 25).toNat) * 2 ^ 30)
      ∧ (s.modeNo = 4 → t.mode.wakePend.testBit 1 = true) ∧ OtherTrees r u s t ∧ UnitOnly [] s t)
  ∧ (∀ (s : State) (r u j : Nat), s.rd (tf r u Tree.TREE_RR_MISS_N) ≤ (s.slot r u j).miss → s.treeState r u ≠ 5 →
    Does (.glintMiss r u j) s fun t => t.activeFor (.tree r u) { src := Src.GLINT_MISS, cell := some (cellIndex r u j) } = true
      ∧ t.trees = s.trees ∧ UnitOnly [] s t)
  ∧ (∀ (s : State) (r u : Nat), s.treeState r u = 3 ∨ s.treeState r u = 4 → s.rd (tf r u Tree.TREE_RR_LOST_N) ≤ (s.tree r u).lostN →
    Does (.treeLost r u) s fun t => t.treeState r u = 5 ∧ t.activeFor (.tree r u) { src := Src.TREE_LOST } = true
      ∧ (t.tree r u).slots = (s.tree r u).slots ∧ (t.tree r u).provOfs = 0 ∧ OtherTrees r u s t ∧ UnitOnly [tf r u Tree.TREE_CFG_STATE] s t)

/-- The tree-port states (R128, R130, R131, R455): a transmitter fault leads to FAILED and ends every transaction, RESET to IDLE, RECOVER of a LOST tree to a
new enumeration with a new key. -/
def Sys2Proof.Claims.TreeStates : Prop :=
  (∀ (s : State) (r u : Nat), s.treeState r u ≠ 0 → NoSplit s → Does (.treeTxFault r u) s fun t => t.treeState r u = 6 ∧ (t.tree r u).laneOn = false
      ∧ (t.tree r u).txns = [] ∧ t.activeFor (.tree r u) { src := Src.TREE_TX_FAIL } = true ∧ t.activeFor (.tree r u) { src := Src.TREE_LOST } = false
      ∧ OtherTrees r u s t ∧ UnitOnly (tf r u Tree.TREE_CFG_STATE :: clauseFields) s t)
  ∧ (∀ (s : State) (r u : Nat), s.takesWrites = true → s.treeState r u = 6 → NoSplit s → Does (.treeCmdReset r u) s fun t => t.treeState r u = 1
      ∧ (t.tree r u).laneOn = (s.modeNo != 3) ∧ t.activeFor (.tree r u) { src := Src.TREE_TX_FAIL } = false
      ∧ OtherTrees r u s t ∧ UnitOnly (tf r u Tree.TREE_CFG_STATE :: clauseFields) s t)
  ∧ (∀ (s : State) (r u : Nat), s.takesWrites = true → s.treeState r u ≠ 6 → Does (.treeCmdReset r u) s fun t => t = { s with held := [] })
  ∧ (∀ (s : State) (r u : Nat), s.takesWrites = true → s.treeState r u = 5 → s.treeBlocked r u = true ∨ s.modeNo = 5 ∨ s.modeNo = 6 →
      Does (.treeCmdRecover r u) s fun t => t.treeState r u = 2 ∧ (t.tree r u).key = Config.freeKey s.free ∧ (t.tree r u).keyed = false
        ∧ (t.tree r u).flush = true ∧ (∀ j, (t.slot r u j).phase = 0 ∧ (t.slot r u j).ranged = false)
        ∧ t.activeFor (.tree r u) { src := Src.TREE_LOST } = false ∧ t.rd (ef r u Rgn.ENUM_TREE0_PHASE) = 1 ∧ OtherTrees r u s t
        ∧ UnitOnly [tf r u Tree.TREE_CFG_STATE, ef r u Rgn.ENUM_TREE0_PHASE, ef r u Rgn.ENUM_TREE0_DONE, ef r u Rgn.ENUM_TREE0_STALL] s t)

/-- Two timeouts of a tree: a management transaction unanswered for TMO periods is sent again, up to RETRY times, then ends with MGMT_FAIL (R94, R128); a resume not
answered within RESUME_TMO sends the tree to enumeration and leaves the unit in M5 (R401). -/
def Sys2Proof.Claims.TreeTimeouts : Prop :=
  (∀ (s : State) (r u j n : Nat) (tx : Txn), (s.tree r u).txns.find? (fun y => y.slot == j && !y.bcast && y.sentPn.isSome) = some tx →
      tx.sentPn = some n → n + s.rd (tf r u Tree.TREE_MGMT_TMO) ≤ s.pn →
      (s.treeState r u ≠ 2 ∨ tx.enumKind = true) → s.epochs = true → s.running = true → s.launchAt + 40 < 2 ^ 64 → NoSplit s →
    Does (.mgmtTimeout r u j) s fun t =>
      (if s.rd (tf r u Tree.TREE_MGMT_RETRY) ≤ tx.tries then (∀ y ∈ (t.tree r u).txns, y.num ≠ tx.num) ∧ Raised t (.tree r u) Src.MGMT_FAIL
        else ∃ y ∈ (t.tree r u).txns, y.num = tx.num ∧ y.next = 0 ∧ y.sentPn = none ∧ y.tries = tx.tries + 1 ∧ y.segs = tx.segs)
      ∧ (s.pn = n + s.rd (tf r u Tree.TREE_MGMT_TMO) → s.launchAt + 40 ≤ t.ns)
      ∧ OtherTrees r u s t ∧ UnitOnly clauseFields s t)
  ∧ (∀ (s : State) (n : Nat), s.mode.resumeFrom = some n → s.running = true → Plain s →
      let e := n + s.rd Reg.PWR_CFG_RESUME_TMO * 1000000
      s.ns < e → e < 2 ^ 64 → Does .resumeTimeout s fun t => t.ns = e ∧ t.mode.resumeFrom = none ∧ t.modeNo = s.modeNo
        ∧ (∀ r u, (r, u) ∈ s.allTrees → s.treeState r u = 2 → s.treeReady r u = false →
            (t.tree r u).keyed = false ∧ t.rd (ef r u Rgn.ENUM_TREE0_PHASE) = 1 ∧ ∀ j, (t.slot r u j).phase = 0)
        ∧ (∀ r u, (r, u) ∈ s.allTrees → s.treeReady r u = true → t.tree r u = s.tree r u)
        ∧ SameMem s t ∧ t.cells = s.cells)

/-- The tree ports of the unit: alarms and block requests from below, the states of a tree, and its timeouts. -/
def Obligations.TreePorts : Prop := Claims.TreeAlarms ∧ Claims.TreeStates ∧ Claims.TreeTimeouts

/-- Enumeration (R446 to R454): a reply whose SERIAL the map gives a slot makes that slot discovered; an unknown SERIAL is parked and logged; a key-exchange
chunk goes on to the next, and the confirmation of chunk 8 completes the slot. -/
def Sys2Proof.Claims.EnumerationReplies : Prop :=
  (∀ (s : State) (r u q : Nat) (d : DiscReply) (g : Seg), let m := s.runBy q
      m.listening r u = some g → g.kind = 7 → g.payload.head? = some 0 → leAt g.payload 2 2 = d.round.toNat → d.mac.ok = true →
      d.mac.key = (m.tree r u).useKey → d.mac.ivKind = 7 → d.mac.ivPn = BitVec.ofNat 64 m.pn →
      ((m.planSlots r u).find? fun j => (m.slot r u j).phase == 5 && (m.slot r u j).serial == d.serial) = none →
      (∀ j, m.mapSlot r u d.serial.toNat = some j → d.serial ≠ 0 → j < m.slotsN r u → (d.otherValid = true → d.otherIdx.toNat = cellIndex r u j) →
        Does (.discoveryReply r u q d) s fun t => (t.slot r u j).phase = 1 ∧ (t.slot r u j).serial = d.serial ∧ (t.slot r u j).tries = 0
          ∧ (t.slot r u j).revRom = d.rev.toNat ∧ s.mirror.maxLast.toNat ≤ t.mirror.maxLast.toNat ∧ d.lastEpoch.toNat ≤ t.mirror.maxLast.toNat
          ∧ OtherTrees r u s t ∧ UnitOnly [] s t)
      ∧ (m.mapSlot r u d.serial.toNat = none → Does (.discoveryReply r u q d) s fun t =>
          (t.tree r u).parks = (s.tree r u).parks ++ [(d.serial.toNat, 0x7F, if s.otherTree r u d.serial.toNat then 2 else 1)]
          ∧ t.rd (rf r Rgn.ENUM_STAT_LOG_HEAD) = (s.rd (rf r Rgn.ENUM_STAT_LOG_HEAD) + 1) % 1024
          ∧ OtherTrees r u s t ∧ SameRegs [rf r Rgn.ENUM_STAT_LOG_HEAD] s t ∧ t.cells = s.cells ∧ t.cellMem = s.cellMem))
  ∧ (∀ (s : State) (r u q : Nat) (k : KxReply) (g : Seg), let m := s.runBy q
      let j := g.slot.toNat
      m.listening r u = some g → g.kind = 8 → g.txn = k.txn → glintTag (m.tree r u).useKey m.pn 3 (cellIndex r u j) k.mac = true →
      (m.slot r u j).phase = 4 → k.chunk.toNat = (m.slot r u j).kxChunk →
      ((m.slot r u j).kxChunk < 8 → (m.slot r u j).kxChunk = 3 → k.result = 0) → ((m.slot r u j).kxChunk = 7 → k.sigOk = true) →
      ((m.slot r u j).kxChunk = 8 → k.confirmOk = true) → (m.slot r u j).kxChunk ≤ 8 →
      Does (.keyExchangeReply r u q k) s fun t =>
        (if (m.slot r u j).kxChunk = 8 then (t.slot r u j).phase = 5 ∧ (t.slot r u j).tries = 0 ∧ fhas t.rank (cellIndex r u j) = true
            ∧ (match m.mramCEst (cellIndex r u j) (m.slot r u j).serial.toNat with
                | some v => (t.rankOf (cellIndex r u j)).cEst = v ∧ (t.rankOf (cellIndex r u j)).base = (s.rankOf (cellIndex r u j)).base
                | none => (t.rankOf (cellIndex r u j)).base = none)
          else (t.slot r u j).phase = 4 ∧ (t.slot r u j).kxChunk = (m.slot r u j).kxChunk + 1 ∧ t.rank = s.rank)
        ∧ OtherTrees r u s t ∧ SameRegs [ef r u Rgn.ENUM_TREE0_DONE] s t ∧ t.cells = s.cells ∧ t.cellMem = s.cellMem)

/-- The end of enumeration on a tree: with every slot complete and R112 met it goes over to period Beacons under its own key, ACTIVE in M6 and above (R130,
R453); ENUM_CFG.TMO after it began it is marked as stalled (R454). -/
def Sys2Proof.Claims.EnumerationEnd : Prop :=
  (∀ (s : State) (r u : Nat), r < 8 → u < 32 → s.treeState r u = 2 → s.rd (ef r u Rgn.ENUM_TREE0_PHASE) ≠ 3 → s.epochs = true → s.treeFits r u = true →
      (∀ j ∈ s.planSlots r u, (s.slot r u j).phase = 5) →
    Does (.treeSwitch r u) s fun t => t.rd (ef r u Rgn.ENUM_TREE0_PHASE) = 3 ∧ (t.tree r u).keyed = true ∧ (t.tree r u).firstBeacon = true
      ∧ t.treeState r u = (if 6 ≤ s.modeNo then 3 else 2) ∧ OtherTrees r u s t
      ∧ UnitOnly [ef r u Rgn.ENUM_TREE0_PHASE, tf r u Tree.TREE_CFG_STATE, Reg.MIRR_AUTH_EPOCH] s t)
  ∧ (∀ (s : State) (r u : Nat), s.treeState r u = 2 → s.rd (ef r u Rgn.ENUM_TREE0_PHASE) ≠ 3 → s.on (ef r u Rgn.ENUM_TREE0_STALL) = false → s.running = true → Plain s →
      let n := (s.tree r u).enumFrom + s.rd Reg.ENUM_CFG_TMO * 1000000
      s.ns < n → n < 2 ^ 64 → Does (.enumTimeout r u) s fun t => t.ns = n ∧ t.on (ef r u Rgn.ENUM_TREE0_STALL) = true ∧ t.trees = s.trees
        ∧ SameRegs [ef r u Rgn.ENUM_TREE0_STALL, rf r Rgn.ENUM_STAT_LOG_HEAD] s t ∧ t.cells = s.cells ∧ t.cellMem = s.cellMem)

/-- Enumeration, ranging and key exchange at the unit: the replies of the cells and the end of a phase. -/
def Obligations.Enumeration : Prop := Claims.EnumerationReplies ∧ Claims.EnumerationEnd

/-! ### The Mirror link and authority (R70, R71, R373 to R382, R470) -/

namespace Sys2Proof.Claims
/-- Every part of the unit but its Mirror link and the time is as it was. -/
def MirrorOnly (s t : State) : Prop := t.regs = s.regs ∧ t.trees = s.trees ∧ t.colls = s.colls ∧ t.mode = s.mode ∧ SameMem s t ∧ t.cells = s.cells
/-- The register fields a request for a transition at an epoch or a launch can change, with those of authority. -/
def requestFields : List Fld := Reg.MODE_STAT_RESULT :: Reg.MIRR_AUTH_EPOCH :: clauseFields
end Sys2Proof.Claims

/-- An accepted LEASE frame (R70, R377, R380): the link up and the tag good under K_M, it is kept, the launches without one count from zero and PEER_LOST ends;
where it echoes one of this unit's frames the offset and the one-way delay stand in their registers, half of the round trip, without the time the partner held the
frame, being the delay (log entry 24,
DESIGN CHOICE); a frame that is not accepted moves only the time. A unit in M7 or M9 that sees its own epoch from a partner in M7 or M9 reports AUTH_CONFLICT, and
unit B yields. -/
def Sys2Proof.Claims.LeaseReception : Prop :=
  (∀ (s : State) (q : Nat) (l : Lease) (x : Mac) (heard : W64) (hq : BitVec 2), let m := s.runBy q
    m.mirrAccepts 1 0 l.txTs x = true →
    Does (.leaseReceive q l x heard hq) s fun t => t.mirror.lease = some l ∧ t.mirror.leaseAt = m.time.ctr ∧ t.mirror.lossCnt = 0
      ∧ t.mirror.peerEpoch = l.authEpoch ∧ t.activeFor .chip { src := Src.PEER_LOST } = false
      ∧ (if l.echoTs = 0 then t.rd Reg.TIME_PEER_OFS_OFS = m.rd Reg.TIME_PEER_OFS_OFS ∧ t.rd Reg.MIRR_LAT_LAT = m.rd Reg.MIRR_LAT_LAT
        else t.rd Reg.TIME_PEER_OFS_OFS = unsext 32 (m.peerOfs l (m.oneWay l (leaseHeld l heard hq))) ∧ t.on Reg.TIME_STAT_PEER_VALID = true
          ∧ t.rd Reg.MIRR_LAT_LAT = m.oneWay l (leaseHeld l heard hq) % 2 ^ Reg.MIRR_LAT_LAT.width)
      ∧ (l.h = 0 → t.mirror.handoverIn = none) ∧ (s.modeNo = 8 → l.h ≠ 0 → t.mirror.handoverIn = some l.h.toNat ∧ fget 0 t.mirror.txKinds 5 = l.h.toNat)
      ∧ (s.modeNo = 7 ∨ s.modeNo = 9 → l.mode = 7 ∨ l.mode = 9 → l.authEpoch.toNat = s.rd Reg.MIRR_AUTH_EPOCH →
          Raised t .chip Src.AUTH_CONFLICT ∧ (s.unitB = true → t.mirror.yieldPend = true))
      ∧ UnitOnly ([Reg.TIME_PEER_OFS_OFS, Reg.TIME_STAT_PEER_VALID, Reg.MIRR_LAT_LAT] ++ requestFields) m t)
  ∧ (∀ (s : State) (q : Nat) (l : Lease) (x : Mac) (heard : W64) (hq : BitVec 2), (s.runBy q).mirrAccepts 1 0 l.txTs x = false →
    Does (.leaseReceive q l x heard hq) s fun t => t = s.runBy q)

/-- The copy set (R374, R375): a verified STATE frame joins the copy of its period, in place of one with its region and number; at its time a complete copy
clears the run of misses, and an incomplete one that was due is counted. -/
def Obligations.MirrorCopy : Prop :=
  (∀ (s : State) (q : Nat) (h : MirrHdr) (g : StateSeg), let m := s.runBy q
    m.mirrAccepts 2 (segByte g) h.txTs h.mac = true →
    Does (.stateReceive q h g) s fun t => t.mirror.copyPn = h.pn.toNat ∧ g ∈ t.mirror.copySegs ∧ t.mirror.peerEpoch = h.authEpoch
      ∧ (∀ x ∈ s.mirror.copySegs, s.mirror.copyPn = h.pn.toNat → x.region ≠ g.region ∨ x.seg ≠ g.seg → x ∈ t.mirror.copySegs) ∧ MirrorOnly m t)
  ∧ (∀ s : State, s.mirror.copyDue = some (s.pn - 1) → s.pn ≠ 0 → s.mirror.copyPn = s.pn - 1 → (∀ r, r < s.dies → (s.mirror.regionSegs r).isSome) → Plain s →
    Does .mirrorCopyApply s fun t => t.mirror.copyDue = none ∧ t.mirror.missRun = 0 ∧ t.mirror.copyTick = some (t.ns / 2)
      ∧ (s.running = true → s.time.epochAt + s.rd Reg.MIRR_CFG_APPLY < 2 ^ 64 → s.time.epochAt + s.rd Reg.MIRR_CFG_APPLY ≤ t.ns)
      ∧ t.regs = s.regs ∧ t.cells = s.cells ∧ t.cellMem = s.cellMem)
  ∧ (∀ (s : State) (l : Lease), s.mirror.copyDue = some (s.pn - 1) → s.pn ≠ 0 → s.mirror.copyPn ≠ s.pn - 1 → 0 < s.dies → s.mirror.lease = some l →
      l.pn.toNat = s.pn → l.mode = 7 ∨ l.mode = 9 → Plain s →
    Does .mirrorCopyApply s fun t => t.mirror.copyDue = none ∧ t.mirror.missRun = s.mirror.missRun + 1 ∧ t.mirror.missPn = some s.pn
      ∧ t.rd Reg.MIRR_STAT_COPY_MISS = satInc Reg.MIRR_STAT_COPY_MISS.width (s.rd Reg.MIRR_STAT_COPY_MISS) % 2 ^ Reg.MIRR_STAT_COPY_MISS.width
      ∧ UnitOnly [Reg.MIRR_STAT_COPY_MISS] s t)

/-- A claim (R363, R378, R382): a healthy unit in M8 with no transition in progress takes an authority epoch above its own and its partner's and asks for the
partner's mode, effective at a Beacon launch, unless a request that ranks before it was granted in that tick (R388). Its triggers: a TRIP frame and the loss of the partner, while AUTO is 1; a write of MIRR_CMD.CLAIM always. -/
def Sys2Proof.Claims.MirrorClaims : Prop :=
  ∀ (s : State), s.modeNo = 8 → s.mirror.healthy = true → s.mode.running = none → s.mode.pending = none →
      (max (s.rd Reg.MIRR_AUTH_EPOCH) s.mirror.peerEpoch.toNat + 1 < 2 ^ 32) →
    let Claimed (peer : W32) (t : State) : Prop :=
      t.rd Reg.MIRR_AUTH_EPOCH = max (s.rd Reg.MIRR_AUTH_EPOCH) peer.toNat + 1 ∧ t.mirror.claimFrom = some s.pn ∧ t.modeNo = 8
        ∧ (∃ x, t.mode.running = some x ∧ x.effect = .launch ∧ x.req.target = s.claimMode) ∧ UnitOnly requestFields s t
    (∀ (q : Nat) (h : MirrHdr), s.mirrAccepts 3 0 h.txTs h.mac = true → (s.runBy q).grantedNow .warden true = false → max (s.rd Reg.MIRR_AUTH_EPOCH) h.authEpoch.toNat + 1 < 2 ^ 32 →
        s.on Reg.MIRR_CFG_AUTO = true → Does (.tripReceive q h) s (Claimed h.authEpoch))
    ∧ (s.rd Reg.MIRR_CFG_LOSS_N ≤ s.mirror.lossCnt → s.on Reg.MIRR_CFG_AUTO = true → s.running = true → s.leaseDue < 2 ^ 64 →
        (s.runTo s.leaseDue).grantedNow .warden true = false →
        Does .peerLost s fun t => t.activeFor .chip { src := Src.PEER_LOST } = true ∧ t.mode.wakePend.testBit 6 = true ∧ Claimed s.mirror.peerEpoch t)
    ∧ (s.takesWrites = true → s.grantedNow .warden true = false → Does .mirrCmdClaim s (Claimed s.mirror.peerEpoch))

/-- Handovers and the end of a claim (R378, R379, R382): a handover is agreed by a write or a YIELD_REQ, confirmed by its acknowledgement, and dropped without
one; the standby's REQ_YIELD names PN + 4; a rejected write sets CMD_ERR; a claim not seen in CLAIM_TMO periods is counted and goes back to M8. -/
def Sys2Proof.Claims.Handovers : Prop :=
  (∀ (s : State) (h : BitVec 56), s.takesWrites = true → Does (.mirrCmdHandover h) s fun t =>
      (if h ≠ 0 ∧ s.handoverOk h.toNat = true then t.mirror.handover = some (h.toNat, false) ∧ t.regs = s.regs
        else t.mirror = s.mirror ∧ t.on Reg.MIRR_STAT_CMD_ERR = true) ∧ UnitOnly [Reg.MIRR_STAT_CMD_ERR] s t)
  ∧ (∀ s : State, s.takesWrites = true → Does .mirrCmdReqYield s fun t =>
      (if s.modeNo = 8 ∧ s.linkUp = true then fget 0 t.mirror.txKinds 6 = s.pn + 4 ∧ t.regs = s.regs
        else t.mirror = s.mirror ∧ t.on Reg.MIRR_STAT_CMD_ERR = true) ∧ UnitOnly [Reg.MIRR_STAT_CMD_ERR] s t)
  ∧ (∀ (s : State) (q : Nat) (h : MirrHdr), s.mirrAccepts 6 0 h.txTs h.mac = true → s.mirror.healthy = true → s.handoverOk h.pn.toNat = true →
      Does (.yieldReqReceive q h) s fun t => t.mirror.handover = some (h.pn.toNat, false) ∧ MirrorOnly s t)
  ∧ (∀ (s : State) (q : Nat) (h : MirrHdr) (b : Bool), let m := s.runBy q
      m.mirrAccepts 5 0 h.txTs h.mac = true → m.mirror.handover = some (h.pn.toNat, b) →
      Does (.handoverAckReceive q h) s fun t => t.mirror.handover = some (h.pn.toNat, true) ∧ MirrorOnly m t)
  ∧ (∀ (s : State) (h : Nat), s.mirror.handover = some (h, false) → h ≤ s.pn + 2 → Does .handoverAbandon s fun t =>
      t.mirror.handover = none ∧ t.time = s.time ∧ MirrorOnly s t)
  ∧ (∀ (s : State) (n : Nat), s.mirror.claimFrom = some n → s.modeNo = 7 ∨ s.modeNo = 9 → n + s.rd Reg.MIRR_CFG_CLAIM_TMO ≤ s.pn →
      s.mode.running = none → s.mode.pending = none → s.grantedNow .warden true = false → Does .claimTimeout s fun t =>
      t.mirror.claimFrom = none ∧ t.rd Reg.MIRR_STAT_CLAIM_REFUSED = satInc Reg.MIRR_STAT_CLAIM_REFUSED.width (s.rd Reg.MIRR_STAT_CLAIM_REFUSED)
          % 2 ^ Reg.MIRR_STAT_CLAIM_REFUSED.width
        ∧ (∃ x, t.mode.running = some x ∧ x.effect = .epoch ∧ x.req.target = 8)
        ∧ UnitOnly (Reg.MIRR_STAT_CLAIM_REFUSED :: requestFields) s t)
  ∧ (∀ s : State, s.takesWrites = true → s.modeNo ≠ 8 ∨ s.mirror.healthy = false → Does .mirrCmdClaim s fun t =>
      t.mirror = s.mirror ∧ t.mode = s.mode ∧ t.on Reg.MIRR_STAT_CMD_ERR = true ∧ UnitOnly [Reg.MIRR_STAT_CMD_ERR] s t)

/-- Who owns the station: claims and handovers between the two units. -/
def Obligations.MirrorRoles : Prop := Claims.MirrorClaims ∧ Claims.Handovers

/-- The Mirror link and its key (R373, R380, R442, R470): aligned lanes start the key exchange, and two units of one number hold the link down; a good OFFER is
answered, a right CONFIRM puts K_M in place and sets LINK_UP; a failed attempt is made again 100 ms later; a lane that loses alignment drops K_M and the link. -/
def Sys2Proof.Claims.MirrorLink : Prop :=
  (∀ s : State, Does (.mirrorLanesAligned s.unitB) s fun t => t.on Reg.BOOT_STAT_UNIT_CLASH = true ∧ t.linkUp = false
      ∧ t.activeFor .chip { src := Src.MIRROR_DOWN } = true ∧ UnitOnly [Reg.BOOT_STAT_UNIT_CLASH, Reg.MIRR_STAT_LINK_UP] s t)
  ∧ (∀ s : State, s.on Reg.SEC_STAT_ENDORSED = true → s.sec.idk = true → s.sec.zeroised = false → s.linkUp = false → Does (.mirrorLanesAligned (!s.unitB)) s fun t =>
      t.mirror.aligned = true ∧ t.mirror.offerSent = true ∧ t.mirror.confirmSent = false ∧ t.time = s.time ∧ MirrorOnly s t)
  ∧ (∀ (s : State) (o : MirrOffer) (m : Mac), s.kxAccepts 0 m = true → o.ownerHash = s.ownerHash → o.endorsed = true → o.signed = true →
      Does (.mirrorOfferReceive o m) s fun t => t.mirror.myAgreed = o.agreed ∧ t.mirror.confirmSent = true ∧ t.mirror.confirmAt = s.ns
        ∧ t.time = s.time ∧ MirrorOnly s t)
  ∧ (∀ (s : State) (m : Mac), s.kxAccepts 1 m = true → s.mirror.confirmSent = true → s.modeNo ≠ 8 → Does (.mirrorConfirmReceive true m) s fun t =>
      t.linkUp = true ∧ t.mirror.key = s.mirror.myAgreed ∧ t.mirror.keyed = true ∧ t.mirror.lastTx = 0
        ∧ t.activeFor .chip { src := Src.MIRROR_DOWN } = false ∧ UnitOnly [Reg.MIRR_STAT_LINK_UP] s t)
  ∧ (∀ s : State, s.mirror.confirmSent = true → s.linkUp = false → s.running = true → s.ns < s.mirror.confirmAt + 10000000 →
      s.mirror.confirmAt + 10000000 < 2 ^ 64 → Plain s → Does .mirrorConfirmTimeout s fun t => t.ns = s.mirror.confirmAt + 10000000 ∧ t.mirror.offerSent = false
        ∧ t.mirror.retryAt = some (t.ns + 100000000) ∧ t.activeFor .chip { src := Src.MIRROR_DOWN } = true ∧ UnitOnly [] s t)
  ∧ (∀ (s : State) (n : Nat), s.mirror.retryAt = some n → s.running = true → s.ns < n → n < 2 ^ 64 → s.mirror.aligned = true →
      s.mirror.peerUnit = some (!s.unitB) → s.on Reg.SEC_STAT_ENDORSED = true → s.sec.idk = true → s.sec.zeroised = false → s.linkUp = false → Plain s →
      Does .mirrorRetry s fun t => t.ns = n ∧ t.mirror.offerSent = true ∧ t.mirror.retryAt = none ∧ MirrorOnly s t)
  ∧ (∀ s : State, Does .mirrorLinkDown s fun t => t.linkUp = false ∧ t.mirror.keyed = false ∧ t.mirror.key = 0 ∧ t.mirror.aligned = false
      ∧ t.on Reg.TIME_STAT_PEER_VALID = false ∧ t.activeFor .chip { src := Src.MIRROR_DOWN } = true
      ∧ UnitOnly [Reg.MIRR_STAT_LINK_UP, Reg.TIME_STAT_PEER_VALID] s t)

/-- The Mirror link: leases received, and the link's own life. -/
def Obligations.MirrorFrames : Prop := Claims.LeaseReception ∧ Claims.MirrorLink

/-! ### Modes and power states (R386 to R405) -/

namespace Sys2Proof.Claims
/-- The host transitions of R387 that wait for an epoch and have no condition of their own. -/
def plainHost : List (Nat × Nat) := [(6, 7), (6, 9), (6, 11), (10, 11), (7, 9), (9, 7), (7, 6), (8, 6), (9, 6), (11, 6)]
end Sys2Proof.Claims

/-- Mode requests (R386, R387): with nothing in progress and in ACTIVE, a target the table has no row for ends at once as NOT_PERMITTED; one of the plain host rows
is granted and waits for its epoch, unless a request that ranks before it was granted in that tick (R388); a transition whose PN has come takes effect, and the mode, the result and the pending slot say so. -/
def Obligations.ModeRequests : Prop :=
  (∀ (s : State) (target : Nat), s.takesWrites = true → s.mode.running = none → s.mode.pending = none → s.rd Reg.MODE_STAT_PSTATE = 0 →
      s.grantedNow .host true = false → transition s.modeNo (target % 16) .host = none →
    Does (.modeCmdTarget target) s fun t => t.modeNo = s.modeNo ∧ t.rd Reg.MODE_STAT_RESULT = Res.NOT_PERMITTED ∧ t.mode.running = none
      ∧ t.mode.pending = none ∧ t.on Reg.WAKE_STAT_HELD = false
      ∧ UnitOnly [Reg.MODE_STAT_RESULT, Reg.WAKE_STAT_HELD, Reg.CFLT_STAT_EV_LOST] s t)
  ∧ (∀ (s : State) (target : Nat), s.takesWrites = true → s.mode.running = none → s.mode.pending = none → s.rd Reg.MODE_STAT_PSTATE = 0 →
      (s.modeNo, target) ∈ plainHost → s.grantedNow .host true = false → s.mode.gaugeWait = false → fhas s.mode.avsReq 0 = false →
    Does (.modeCmdTarget target) s fun t => t.modeNo = s.modeNo ∧ t.mode.running = some ⟨⟨.host, target, false⟩, .epoch, s.ns, none⟩
      ∧ t.trees = s.trees ∧ UnitOnly [Reg.WAKE_STAT_HELD] s t)
  ∧ (∀ (s : State) (x : Running) (n : Nat), s.mode.running = some x → x.effect = .epoch → x.pn = some n → n ≤ s.pn → s.mode.pending = none →
      5 ≤ s.modeNo → 6 ≤ x.req.target → x.req.target ≤ 11 → x.req.target ≠ 10 →
    Does .modeChangeEffect s fun t => t.modeNo = x.req.target ∧ t.mode.running = none ∧ t.mode.entry = none ∧ t.rd Reg.MODE_STAT_RESULT = Res.DONE
      ∧ t.on Reg.MODE_STAT_PWR_BUSY = false ∧ t.pn = s.pn ∧ t.time = s.time ∧ SameMem s t ∧ t.cells = s.cells)

/-- Descent and wake (R392 to R398): after IDLE_DLY the unit descends to the lowest power state that its latency tolerance permits: IDLE at once, a deeper one by an
entry that first ends every activation; a wake event ends IDLE at once and leaves M4 by an exit; LAT_TOL clears HELD and wakes a unit that it no longer permits. -/
def Sys2Proof.Claims.PowerStates : Prop :=
  (∀ s : State, s.mayDescend = true → s.mode.retryAt = none → s.running = true → s.permits 3 = false → s.permits 2 = false → s.permits 1 = true →
      s.rd Reg.MODE_STAT_PSTATE = 0 →
      let n := s.mode.idleFrom + s.rd Reg.PWR_CFG_IDLE_DLY * 1000000
      s.ns < n → n < 2 ^ 64 → Does .descent s fun t => t.ns = n ∧ t.rd Reg.MODE_STAT_PSTATE = 1 ∧ t.mode.gated = true ∧ t.modeNo = s.modeNo
        ∧ t.trees = s.trees ∧ UnitOnly [Reg.MODE_STAT_PSTATE] s t)
  ∧ (∀ s : State, s.mayDescend = true → s.mode.retryAt = none → s.modeNo = 6 → s.permits 3 = true → s.clause.staged = none → s.clause.armed = none →
      s.mirror.handover = none → s.mirror.handoverIn = none → s.grantedNow .warden true = false → s.mode.idleFrom + s.rd Reg.PWR_CFG_IDLE_DLY * 1000000 ≤ s.ns →
      Does .descent s fun t => t.on Reg.MODE_STAT_PWR_BUSY = true ∧ t.modeNo = 6
        ∧ (∃ x, t.mode.running = some x ∧ x.effect = .entry ∧ x.req.target = 3) ∧ (∀ q ∈ t.disp, q.2.acts = [] ∧ q.2.quiesced = true)
        ∧ UnitOnly [Reg.MODE_STAT_PWR_BUSY] s t)
  ∧ (∀ (s : State) (n : Nat), s.mode.retryAt = some n → s.running = true → s.ns < n → n < 2 ^ 64 → s.mayDescend = true → s.permits 3 = false →
      s.permits 2 = false → s.permits 1 = true → s.rd Reg.MODE_STAT_PSTATE = 0 →
      Does .descentRetry s fun t => t.ns = n ∧ t.mode.retryAt = none ∧ t.rd Reg.MODE_STAT_PSTATE = 1 ∧ UnitOnly [Reg.MODE_STAT_PSTATE] s t)
  ∧ (∀ (s : State) (n : Nat), s.mode.entry = none → s.rd Reg.MODE_STAT_PSTATE = 1 → s.wakeEvent = some n →
      Does .wakeEvent s fun t => t.rd Reg.MODE_STAT_PSTATE = 0 ∧ t.rd Reg.WAKE_STAT_CAUSE = n ∧ (n ≠ 0 → t.on Reg.WAKE_STAT_HELD = true)
        ∧ t.mode.gaugeWait = true ∧ t.mode.wakePend = 0 ∧ t.modeNo = s.modeNo
        ∧ UnitOnly [Reg.MODE_STAT_PSTATE, Reg.WAKE_STAT_CAUSE, Reg.WAKE_STAT_HELD] s t)
  ∧ (∀ (s : State) (n : Nat), s.mode.entry = none → s.rd Reg.MODE_STAT_PSTATE = 2 → s.modeNo = 4 → s.wakeEvent = some n → s.mode.running = none →
      s.mode.pending = none → s.grantedNow .warden true = false → s.on Reg.SEC_STAT_ENDORSED = true →
      Does .wakeEvent s fun t => (∃ x, t.mode.running = some x ∧ x.effect = .exit ∧ x.req.target = 5) ∧ t.mode.exitStep = 1 ∧ t.modeNo = 4
        ∧ UnitOnly [Reg.WAKE_STAT_CAUSE, Reg.WAKE_STAT_HELD] s t)
  ∧ (∀ (s : State) (v : W32), s.takesWrites = true → s.mode.entry = none → s.rd Reg.MODE_STAT_PSTATE ≤ 1 → Does (.latTolWrite v) s fun t =>
      t.rd Reg.LAT_TOL_TOL = v.toNat % 2 ^ Reg.LAT_TOL_TOL.width ∧ t.on Reg.WAKE_STAT_HELD = false
        ∧ t.rd Reg.MODE_STAT_PSTATE = (if v.toNat * 1000 < s.exitLatency (s.rd Reg.MODE_STAT_PSTATE) then 0 else s.rd Reg.MODE_STAT_PSTATE)
        ∧ UnitOnly [Reg.LAT_TOL_TOL, Reg.WAKE_STAT_HELD, Reg.MODE_STAT_PSTATE, Reg.WAKE_STAT_CAUSE] s t)
  ∧ (∀ (s : State) (x : Running), s.mode.running = some x → x.effect = .exit → s.modeNo = 3 → s.mode.exitStep = 3 →
      (Does (.imageRestoreComplete true) s fun t => t.mode.exitStep = 5 ∧ t.mode.running = some x ∧ UnitOnly [] s t)
      ∧ (s.mode.pending = none → Does (.imageRestoreComplete false) s fun t => t.modeNo = 3 ∧ t.mode.running = none ∧ t.mode.exitDead = true
          ∧ t.on Reg.PWR_STAT_ERR = true ∧ t.rd Reg.BOOT_STAT_ERR = 5 ∧ t.rd Reg.MODE_STAT_RESULT = Res.CONDITION
          ∧ UnitOnly [Reg.PWR_STAT_ERR, Reg.BOOT_STAT_ERR, Reg.MODE_STAT_RESULT, Reg.CFLT_STAT_EV_LOST] s t))

/-- AVSBus (R403 to R405): an evaluation asks for a new core target within its floor and its maximum; an acknowledgement puts the rail at its value; a request
unanswered is sent again, and after RETRY attempts raises AVS_NACK; a recalibration gives each cluster its calibration Verb. -/
def Sys2Proof.Claims.SupplyControl : Prop :=
  (∀ s : State, s.modeNo ≠ 0 → s.rd Reg.MODE_STAT_PSTATE < 2 → s.mode.entry = none → fhas s.mode.avsReq 0 = false → s.running = true → Plain s →
      s.mode.evalAt + s.rd Reg.AVS_CFG_INT * 1000 < 2 ^ 64 → Does .avsEvaluate s fun t =>
      (match s.avsTarget with
        | some v => fhas t.mode.avsReq 0 = true ∧ fget 0 t.mode.avsReq 0 = min (max v s.avsFloor) (s.rd Reg.AVS_LIM_MAX)
        | none => t.mode.avsReq = s.mode.avsReq)
      ∧ t.mode.coreSlowSince = false ∧ t.mode.evalAt = t.ns ∧ s.mode.evalAt + s.rd Reg.AVS_CFG_INT * 1000 ≤ t.ns ∧ UnitOnly [] s t)
  ∧ (∀ (s : State) (rail v : Nat), rail < 2 → s.mode.avsReq.find? (fun p => p.1 == rail) = some (rail, v) → fhas s.mode.avsWait rail = false →
      s.mode.running = none → s.mode.pending = none → Does (.avsAck rail) s fun t =>
      t.rd (railFld rail) = v % 2 ^ (railFld rail).width ∧ t.on Reg.AVS_STAT_NACK = false ∧ fhas t.mode.avsReq rail = false
        ∧ UnitOnly [railFld rail, Reg.AVS_STAT_NACK] s t)
  ∧ (∀ (s : State) (rail : Nat), fhas s.mode.avsReq rail = true → fhas s.mode.avsWait rail = false → s.running = true → s.mode.running = none →
      s.mode.pending = none → Plain s →
      let n := fget 0 s.mode.avsSent rail + s.rd Reg.AVS_CFG_ACK_TMO * 1000
      s.ns < n → n < 2 ^ 64 → Does (.avsAckTimeout rail) s fun t => t.ns = n
        ∧ (if s.rd Reg.AVS_CFG_RETRY ≤ fget 0 s.mode.avsTry rail + 1 then
            Raised t .chip Src.AVS_NACK ∧ t.on Reg.AVS_STAT_NACK = true ∧ fhas t.mode.avsReq rail = false
          else fget 0 t.mode.avsTry rail = fget 0 s.mode.avsTry rail + 1 ∧ fget 0 t.mode.avsSent rail = n ∧ t.mode.avsReq = s.mode.avsReq)
        ∧ UnitOnly [Reg.AVS_STAT_NACK] s t)
  ∧ (∀ (s : State) (mv : Nat), s.modeNo ≠ 0 → s.rd Reg.MODE_STAT_PSTATE < 2 → s.running = true → Plain s →
      (s.mode.calFrom + s.rd Reg.AVS_CAL_INT * 1000000000 < 2 ^ 64 ∨ s.mode.calDueAt.isSome = true) →
      (∀ n ∈ s.mode.calDueAt, n < 2 ^ 64) → Does (.gaugeRecalibrate mv) s fun t =>
      (∀ r, r < s.dies → (t.dsp r).calPend = List.range 8) ∧ t.mode.calMv = mv ∧ t.mode.calDueAt = none ∧ t.mode.calFrom = t.ns ∧ UnitOnly [] s t)

/-- Power states and the supply. -/
def Obligations.Power : Prop := Claims.PowerStates ∧ Claims.SupplyControl

/-! ### Faults (R26, R255, R307, R308, R336 to R358) -/

namespace Sys2Proof.Claims
/-- What a command of Elsum `c` leaves alone: the unit and every other Elsum. -/
def CellOnly (c : Nat) (s t : State) : Prop := UnitKept s t ∧ ∀ d, d ≠ c → t.cell d = s.cell d
/-- No byte of cell memory differs. -/
def SameCellMem (s t : State) : Prop := ∀ a, memGet t.cellMem a = memGet s.cellMem a
/-- No byte of the memory of another cell than `c` differs. -/
def OtherCellMem (c : Nat) (s t : State) : Prop := ∀ a, a < cellKey c 0 ∨ cellKey (c + 1) 0 ≤ a → memGet t.cellMem a = memGet s.cellMem a
/-- Every position of an Elsum is off and every GMLn_EN low. -/
def AllOff (c : Nat) (t : State) : Prop := ∀ p, p < 4 → (t.cell c).gate p = false ∧ (t.cell c).enHigh p = false
end Sys2Proof.Claims

/-- One collection tick of a Basath collector (R336, R343, R347): the ACT register shows the sources that are active with a severity above 0; outside first-latch
capture a raise at severity 1 or more sets its sticky bit; in M6 to M10 a raise at severity 5 scoped to a tree blocks its arm and makes a block Beacon due; in M6
to M9, with no transition in progress, a raise at severity 7 clears HEALTHY and brings M10. -/
def Obligations.FaultTick : Prop :=
  ∀ (s : State) (level i : Nat) (ext : List (Nat × Bool)), 1 ≤ level → level ≤ 3 → (level = 1 → i / 32 < s.dies) → (level = 2 → i < s.dies) →
    let k := collOf level i
    let m := s.external k ext
    let x := m.coll k
    Does (.faultRaise level i ext) s fun t =>
      t.rd (k.actFld 0) = actWord (x.activeIdx.filter fun p => m.sevOf k p.1 != 0) 0 % 2 ^ (k.actFld 0).width
      ∧ (∀ o ∈ x.raises, 1 ≤ m.effSev k o → s.firstLatch = false → (∀ q ∈ x.raises, ∀ p ∈ m.scopeArms k q, p.2 < 4) → (t.rd (k.stickyFld o.src)).testBit (o.src % 32) = true)
      ∧ (∀ r u a, ∀ o ∈ x.raises, k = .tree r u → o.cell = none → o.arm = none → o.conv = none → m.effSev k o = 5 → 6 ≤ s.modeNo → s.modeNo ≤ 10 →
          s.armOf r u = some a → a < 4 → m.alertAgain k o = false → t.armBlocked r a = true ∧ (t.tree r u).blockDue = true)
      ∧ (∀ o ∈ x.raises, m.effSev k o = 7 → m.alertAgain k o = false → 6 ≤ s.modeNo → s.modeNo ≤ 9 → s.mode.running = none → t.modeNo = 10 ∧ t.mirror.healthy = false)
      ∧ t.time = s.time ∧ t.cells = s.cells ∧ t.cellMem = s.cellMem

/-- Recovery, latches and the trip pins (R344, R347, R352, R356 to R358). -/
def Obligations.FaultControls : Prop :=
  (∀ (s : State) (n : Nat), s.modeNo = 10 → s.mode.quietFrom = some n → s.mode.running = none → s.mode.pending = none → s.time.refclk = true →
      s.activeAt (s.rd Reg.CFLT_REC_THR) = false →
      let e := n + s.rd Reg.CFLT_REC_QUIET_TIME * 1000000
      s.ns < e → e < 2 ^ 64 → (s.runTo e).grantedNow .warden true = false → Does .quietTimeExpiry s fun t => t.ns = e ∧ t.mode.quietDone = true ∧ t.modeNo = 10
        ∧ (∃ x, t.mode.running = some x ∧ x.effect = .epoch ∧ x.req = ⟨.warden, 6, true⟩) ∧ UnitOnly [] s t)
  ∧ (∀ (s : State) (n : Nat), s.mode.recUntil = some n → s.running = true → s.ns < n → n < 2 ^ 64 → s.modeNo ≠ 2 → s.modeNo ≠ 5 → s.modeNo ≠ 11 → Plain s →
      Does (.captureWindowEnd none) s fun t => t.ns = n ∧ t.mode.recUntil = none
        ∧ (∀ o ∈ (s.coll .chip).conds, 1 ≤ s.effSev .chip o → (t.rd (Coll.stickyFld .chip o.src)).testBit (o.src % 32) = true)
        ∧ t.trees = s.trees ∧ SameMem s t ∧ t.cells = s.cells)
  ∧ (∀ (s : State) (c : Nat), (s.cell c).flt.rwin ≠ 0 → (s.cell c).flt.rwin ≤ (s.cell c).time.pn → (s.cell c).st ≠ 1 → (s.cell c).st ≠ 6 →
      Does (.captureWindowEnd (some c)) s fun t => (t.cell c).flt.rwin = 0
        ∧ (∀ o ∈ (s.coll (.cell c)).conds, (s.cell c).sev o.src ≠ 0 → (t.crd c Els.FLT_STICKY0).testBit o.src = true)
        ∧ SameCells c [Els.FLT_STICKY0] s t ∧ UnitKept s t ∧ SameCellMem s t)
  ∧ (∀ s : State, s.takesWrites = true → s.on Reg.CFLT_REC_STAT_LATCHED = true → Does .cfltRecUnlatch s fun t =>
      t.on Reg.CFLT_REC_STAT_LATCHED = false ∧ (s.modeNo = 10 → t.mode.quietFrom = some s.ns ∧ t.mode.quietDone = false)
        ∧ UnitOnly [Reg.CFLT_REC_STAT_LATCHED] s t)
  ∧ (∀ (s : State) (n : Nat), s.takesWrites = true → n < 4 → Does (.tripOutClear n) s fun t =>
      t.rd Reg.CFLT_TRIPOUT_ASSERTED = (if s.activeAt (s.rd (tripSevFld n)) = true then s.rd Reg.CFLT_TRIPOUT_ASSERTED
          else clrBit (s.rd Reg.CFLT_TRIPOUT_ASSERTED) n % 2 ^ Reg.CFLT_TRIPOUT_ASSERTED.width)
        ∧ UnitOnly [Reg.CFLT_TRIPOUT_ASSERTED] s t)
  ∧ (∀ (s : State) (r : Nat), r < 8 → s.takesWrites = true → Does (.fltFirstClear 2 r) s fun t =>
      t.on (rf r Rgn.FLT_FIRST_VALID) = false ∧ t.rd (rf r Rgn.FLT_FIRST_SOURCE) = 0 ∧ t.rd (rf r Rgn.FLT_FIRST_TS_NS) = 0
        ∧ UnitOnly [rf r Rgn.FLT_FIRST_VALID, rf r Rgn.FLT_FIRST_SOURCE, rf r Rgn.FLT_FIRST_LEVEL, rf r Rgn.FLT_FIRST_SEVERITY, rf r Rgn.FLT_FIRST_TREE,
            rf r Rgn.FLT_FIRST_SLOT, rf r Rgn.FLT_FIRST_IDX_VALID, rf r Rgn.FLT_FIRST_SLOT_VALID, rf r Rgn.FLT_FIRST_TS_NS] s t)
  ∧ (∀ s : State, s.takesWrites = true → Does (.fltFirstClear 3 0) s fun t => t.on Reg.CFLT_FIRST_VALID = false ∧ t.rd Reg.CFLT_FIRST_SOURCE = 0
      ∧ UnitOnly [Reg.CFLT_FIRST_SOURCE, Reg.CFLT_FIRST_LEVEL, Reg.CFLT_FIRST_SEVERITY, Reg.CFLT_FIRST_VALID, Reg.CFLT_FIRST_TS_NS] s t)
  ∧ (∀ (s : State) (c : Nat), Does (.fltFirstClear 0 c) s fun t => (t.cell c).on Els.FLT_FIRST_VALID = false ∧ t.crd c Els.FLT_FIRST_SOURCE = 0
      ∧ SameCells c [Els.FLT_FIRST_SOURCE, Els.FLT_FIRST_SEVERITY, Els.FLT_FIRST_VALID, Els.FLT_FIRST_TS_NS] s t ∧ UnitKept s t ∧ SameCellMem s t)
  ∧ (∀ (s : State) (n q : Nat) (low : Bool), n < 4 → let m := s.runBy q
      Does (.tripInChange n q low) s fun t =>
      t.activeFor .chip { src := Src.TRIP_IN0 + n } = low ∧ (low = true → t.mode.wakePend.testBit 3 = true) ∧ t.time = m.time ∧ UnitOnly [] m t)
  ∧ (∀ (s : State) (r : Nat) (active : Bool), r < s.dies → Does (.blocknetFault r active) s fun t =>
      t.activeFor (.region r) { src := Src.BLOCKNET_FAULT } = active ∧ t.trees = s.trees ∧ t.time = s.time ∧ UnitOnly [] s t)

/-- One collection tick of an Elsum (R26, R336, R343, R347, R348): ACT shows the active sources; a raise at severity 1 or more sets its sticky bit outside
first-latch capture; a raise at severity 5 or more turns every position off with every GMLn_EN low, one at severity 4 runs the bypass sequence; the unit is not
touched. Its releases: a demand ends after REL inactive periods, an acknowledgement clears CLASS0. -/
def Obligations.CellFaults : Prop :=
  (∀ (s : State) (c : Nat) (ext : List (Nat × Bool)), (s.cell c).runs = true →
      let m := s.external (.cell c) ext
      let x := m.coll (.cell c)
      Does (.faultRaise 0 c ext) s fun t =>
        t.crd c Els.FLT_ACT0 = actWord (x.activeIdx.filter fun p => (s.cell c).sev p.1 != 0) 0 % 2 ^ Els.FLT_ACT0.width
        ∧ (∀ o ∈ x.raises, (s.cell c).sev o.src ≠ 0 → (s.cell c).firstLatch = false → (t.crd c Els.FLT_STICKY0).testBit o.src = true)
        ∧ (∀ o ∈ x.raises, 4 ≤ (s.cell c).sev o.src → AllOff c t)
        ∧ (∀ o ∈ x.raises, (s.cell c).sev o.src = 4 → (t.cell c).prot.byp = true ∧ (t.cell c).sw.dead = true)
        ∧ CellOnly c s t ∧ OtherCellMem c s t)
  ∧ (∀ (s : State) (c src : Nat), fhas (s.cell c).prot.demands src = true → s.crd c Els.FLT_CFG_REL ≤ fget 0 (s.cell c).prot.demands src →
      Does (.cellFaultRelease c src) s fun t => fhas (t.cell c).prot.demands src = false ∧ (∀ p, p < 4 → (t.cell c).enHigh p = (t.cell c).enMay p)
        ∧ (t.cell c).regs = (s.cell c).regs ∧ (t.cell c).sw = (s.cell c).sw ∧ CellOnly c s t ∧ OtherCellMem c s t)
  ∧ (∀ (s : State) (c : Nat), Does (.alertAck c) s fun t => (t.cell c).flt.class0 = false ∧ (t.cell c).regs = (s.cell c).regs
      ∧ (t.cell c).sw = (s.cell c).sw ∧ CellOnly c s t ∧ SameCellMem s t)

/-- Local protection and the bypass (R255, R307, R351, R525): an overvoltage turns every position off in every cell state and fires the bypass; its release restores
GMLn_EN where nothing else demands it low; a confirmed switch shows BYPASSED; the pulse ends; a firing that is not confirmed is made again up to REFIRE times. -/
def Obligations.CellProtection : Prop :=
  (∀ (s : State) (c q : Nat), (s.cell c).prot.loss < 3 → (s.cell c).up = true → Does (.overvoltageTrip c q) s fun t =>
      AllOff c t ∧ (t.cell c).on Els.PROT_STAT_OVERVOLTAGE = true ∧ t.active (.cell c) Src.OVERVOLTAGE = true ∧ (t.cell c).prot.byp = true
        ∧ (t.cell c).sw.dead = true ∧ ((s.cell c).prot.byp = false → (s.cell c).sec.extest = false → (t.cell c).prot.swCmd = true ∨ (s.cell c).prot.pulseOn = true)
        ∧ CellOnly c s t ∧ OtherCellMem c s t)
  ∧ (∀ (s : State) (c q : Nat), (s.cell c).prot.loss < 3 → (s.cell c).up = false → (s.cell c).prot.pulseOn = false → (s.cell c).sec.extest = false →
      Does (.overvoltageTrip c q) s fun t => AllOff c t ∧ (t.cell c).prot.pulseOn = true ∧ (t.cell c).prot.swCmd = true
        ∧ (t.cell c).prot.byp = (s.cell c).prot.byp ∧ CellOnly c s t ∧ OtherCellMem c s t)
  ∧ (∀ (s : State) (c q : Nat), Does (.overvoltageRelease c q) s fun t => (t.cell c).on Els.PROT_STAT_OVERVOLTAGE = false
      ∧ t.activeFor (.cell c) { src := Src.OVERVOLTAGE } = false ∧ (∀ p, p < 4 → (t.cell c).enHigh p = (t.cell c).enMay p)
      ∧ (∀ p, p < 4 → (t.cell c).gate p = (s.cell c).gate p) ∧ SameCells c [Els.PROT_STAT_OVERVOLTAGE] s t ∧ UnitKept s t ∧ OtherCellMem c s t)
  ∧ (∀ (s : State) (c : Nat), (s.cell c).prot.byp = true → Does (.bypSwConfClose c) s fun t => (t.cell c).on Els.PROT_STAT_BYP_SW_CONF = true
      ∧ (t.cell c).on Els.GEN_STAT_BYPASSED = true ∧ SameCells c [Els.PROT_STAT_BYP_SW_CONF, Els.GEN_STAT_BYPASSED] s t ∧ UnitKept s t ∧ SameCellMem s t)
  ∧ (∀ (s : State) (c : Nat), Does (.bypFirePulseEnd c) s fun t => (t.cell c).prot.pulseOn = false ∧ (t.cell c).prot.swCmd = (s.cell c).prot.swCmd
      ∧ SameCells c [] s t ∧ UnitKept s t ∧ SameCellMem s t)
  ∧ (∀ (s : State) (c : Nat), (s.cell c).prot.byp = true → (s.cell c).on Els.PROT_STAT_BYP_SW_CONF = false → (s.cell c).runs = true → (s.cell c).prot.fires ≠ 0 →
      let due := (s.cell c).prot.firedAt + 4000000 * s.crd c Els.BYP_CFG_CONF_TMO
      (s.cell c).time.clock < due → (s.cell c).prot.pulseOn = false → (s.cell c).sec.extest = false →
      ((s.cell c).prot.fires ≤ s.crd c Els.BYP_CFG_REFIRE → Does (.bypRefire c) s fun t => (t.cell c).prot.fires = (s.cell c).prot.fires + 1
        ∧ (t.cell c).prot.pulseOn = true ∧ (t.cell c).prot.firedAt = due ∧ SameCells c [] s t ∧ UnitKept s t ∧ SameCellMem s t)
      ∧ ((s.cell c).prot.fires = s.crd c Els.BYP_CFG_REFIRE + 1 → Does (.bypRefire c) s fun t => Raised t (.cell c) Src.BYP_FAIL
        ∧ (t.cell c).prot.fires = (s.cell c).prot.fires + 1 ∧ (t.cell c).prot.pulseOn = false ∧ SameCells c [] s t ∧ UnitKept s t ∧ SameCellMem s t))

/-- Loss of the auxiliary supply, step by step (R308): AUX_PG low; after 1 µs the off-state, AUX_LOSS and the stress records; after HOLDUP.REPORT the end of
reports; RES_LOW_N ends everything; AUX_PG back for 10 ms before that restores the cell. -/
def Obligations.SupplyLoss : Prop :=
  (∀ (s : State) (c q : Nat), Does (.auxPgFall c q) s fun t => (t.cell c).on Els.PROT_STAT_AUX_PG = false ∧ (t.cell c).prot.pgFellAt = (t.cell c).time.clock
      ∧ ((s.cell c).runs = true → (t.cell c).time = (s.cell c).time.run q)
      ∧ SameCells c [Els.PROT_STAT_AUX_PG] s t ∧ UnitKept s t ∧ SameCellMem s t)
  ∧ (∀ (s : State) (c : Nat), (s.cell c).up = true → (s.cell c).on Els.PROT_STAT_AUX_PG = false → (s.cell c).prot.loss = 0 → Does (.auxLoss c) s fun t =>
      AllOff c t ∧ (t.cell c).prot.loss = 1 ∧ (t.cell c).prot.auxOff = true ∧ t.active (.cell c) Src.AUX_LOSS = true
      ∧ (4 ≤ (s.cell c).sev Src.AUX_LOSS → (t.cell c).prot.byp = true ∧ (t.cell c).sw.dead = true) ∧ CellOnly c s t)
  ∧ (∀ (s : State) (c : Nat), (s.cell c).prot.loss = 1 → Does (.holdupReportEnd c) s fun t => (t.cell c).prot.loss = 2 ∧ (t.cell c).reports = false
      ∧ ((s.cell c).runs = true → (s.cell c).prot.pgFellAt + 4000000 * s.crd c Els.HOLDUP_REPORT ≤ (t.cell c).time.clock)
      ∧ SameCells c [] s t ∧ UnitKept s t ∧ SameCellMem s t)
  ∧ (∀ (s : State) (c : Nat), Does (.resLowNFall c) s fun t => AllOff c t ∧ (t.cell c).prot.loss = 3 ∧ (t.cell c).runs = false
      ∧ SameCells c [] s t ∧ UnitKept s t ∧ OtherCellMem c s t)
  ∧ (∀ (s : State) (c q : Nat), (s.cell c).up = true → (s.cell c).prot.loss < 3 → Does (.auxLossClear c q) s fun t =>
      (t.cell c).on Els.PROT_STAT_AUX_PG = true ∧ (t.cell c).prot.loss = 0 ∧ (t.cell c).prot.auxOff = false
        ∧ t.activeFor (.cell c) { src := Src.AUX_LOSS } = false ∧ (∀ p, p < 4 → (t.cell c).enHigh p = (t.cell c).enMay p)
        ∧ SameCells c [Els.PROT_STAT_AUX_PG] s t ∧ UnitKept s t ∧ OtherCellMem c s t)

/-! ### Reset, boot and security (R384, R386, R387, R432 to R441, R444, R461 to R474, R479, R525, R526) -/

namespace Sys2Proof.Claims
/-- What a full reset leaves (R384, R439): M0 with nothing in progress, the registers at their reset values but those that MRAM or the straps hold, region SRAM
cleared and region MRAM kept; the Elsum cells and the queue are not touched. -/
def FullyReset (s t : State) : Prop :=
  t.modeNo = 0 ∧ t.trees = [] ∧ t.clause = {} ∧ t.host = {} ∧ t.disp = [] ∧ t.rank = [] ∧ t.imageSet = false ∧ t.mirror = {} ∧ t.time.ctr = 0
    ∧ (∀ f : Fld, (∀ g ∈ keptRegs, f.lsb ≠ g.lsb) → f.lsb ≠ Reg.CHIP_ID_DEVICE.lsb → t.rd f = State.reset.rd f)
    ∧ t.rd Reg.CHIP_ID_DEVICE = deviceId s.dies % 2 ^ Reg.CHIP_ID_DEVICE.width ∧ (∀ f ∈ keptRegs, t.rd f = s.rd f % 2 ^ f.width)
    ∧ (∀ a, memGet t.sram a = if mramBase ≤ a % 0x1000000 then memGet s.sram a else 0)
    ∧ t.cells = s.cells ∧ t.cellMem = s.cellMem ∧ t.pending = s.pending ∧ t.active .chip Src.MIRROR_DOWN = true
end Sys2Proof.Claims

/-- The three ways into M0 (R386, R387, R526): SYS_RESET_N low, a write of FULL_RESET, and the watchdog of die 0; each is a full reset, and only the first leaves the
reset input low. -/
def Sys2Proof.Claims.FullResets : Prop :=
  (∀ s : State, Does .fullReset s fun t => FullyReset s t ∧ t.mode.resetN = false)
  ∧ (∀ s : State, Does .modeCmdFullReset s fun t => FullyReset s t ∧ t.mode.resetN = s.mode.resetN)
  ∧ (∀ s : State, Does .die0Watchdog s fun t => FullyReset s t ∧ t.mode.resetN = s.mode.resetN)

/-- Reset exit to M2 (R432, R435 to R438, R441): the straps, the warden ROM, the stored image and the self-test; PERST_N wedges the host function after it. -/
def Sys2Proof.Claims.ResetExit : Prop :=
  (∀ (s : State) (unit boot : Nat), s.mode.resetN = false → Does (.sysResetNRise unit boot) s fun t => t.rd Reg.BOOT_STAT_UNIT = unit % 2
      ∧ t.rd Reg.BOOT_STAT_BOOT = boot % 4 ∧ t.rd Reg.BOOT_STAT_ERR = (if 2 ≤ boot % 4 then 4 else s.rd Reg.BOOT_STAT_ERR) ∧ t.mode.resetN = true
      ∧ t.time = s.time ∧ UnitOnly [Reg.BOOT_STAT_UNIT, Reg.BOOT_STAT_BOOT, Reg.BOOT_STAT_ERR] s t)
  ∧ (∀ s : State, s.modeNo ≠ 0 → Does .perstNAssert s fun t => t.host.pcieUp = false ∧ t.wedged = true ∧ (s.wedged = false → t.clause.staged = none)
      ∧ t.modeNo = s.modeNo ∧ UnitOnly ([Reg.HOST_STAT_WEDGED, Reg.CLAUSE_STAT_STAGED] ++ clauseFields) s t)
  ∧ (∀ s : State, s.modeNo = 0 → Does .perstNAssert s fun t => t = { s with host := { s.host with pcieUp := false } })
  ∧ (∀ s : State, s.modeNo = 0 → s.mode.resetN = true → s.rd Reg.BOOT_STAT_ERR = 0 ∨ s.rd Reg.BOOT_STAT_ERR = 4 → s.mode.running = none →
      s.mode.pending = none → s.grantedNow .warden true = false → Does (.wardenRomComplete 0) s fun t => t.modeNo = 1 ∧ t.rd Reg.MODE_STAT_RESULT = Res.DONE
        ∧ t.rd Reg.BOOT_STAT_ERR = s.rd Reg.BOOT_STAT_ERR ∧ SameMem s t ∧ t.cells = s.cells)
  ∧ (∀ (s : State) (err : Nat), s.modeNo = 0 → s.mode.resetN = true → s.rd Reg.BOOT_STAT_ERR = 0 → 1 ≤ err → err ≤ 3 →
      Does (.wardenRomComplete err) s fun t => t.modeNo = 0 ∧ t.rd Reg.BOOT_STAT_ERR = err ∧ UnitOnly [Reg.BOOT_STAT_ERR] s t)
  ∧ (∀ (s : State) (i : Image), s.modeNo = 1 → s.rd Reg.BOOT_STAT_BOOT = 1 → s.imageSet = false → s.trusts i = true → s.imageShape i = true → s.polesOk i = true →
      s.mode.running = none → s.mode.pending = none → s.grantedNow .warden true = false → Does (.bootImageLoad (some i)) s fun t => t.image = i ∧ t.imageSet = true ∧ t.modeNo = 2
        ∧ (t.on Reg.SEC_STAT_ENDORSED = true ↔ ∃ e ∈ i.endorse, e.1.toNat = s.rd Reg.SEC_SERIAL_SERIAL ∧ e.2 = true) ∧ SameMem s t ∧ t.cells = s.cells)
  ∧ (∀ (s : State) (i : Option Image), s.modeNo = 1 → s.rd Reg.BOOT_STAT_BOOT = 1 → s.imageSet = false → (∀ x, i = some x → s.trusts x = false ∨ s.imageShape x = false ∨ s.polesOk x = false) →
      Does (.bootImageLoad i) s fun t => t.modeNo = 1 ∧ t.rd Reg.BOOT_STAT_ERR = 5 ∧ t.imageSet = false ∧ UnitOnly [Reg.BOOT_STAT_ERR] s t)
  ∧ (∀ (s : State) (fails : List (Nat × Nat)), s.modeNo = 2 → Does (.selftestComplete fails) s fun t =>
      (t.on Reg.SELFTEST_STAT_PASS = true ↔ ∀ q ∈ fails, q.1 < s.dies → Nat.land q.2 mandatoryTests = 0)
        ∧ UnitOnly [Reg.SELFTEST_STAT_PASS, Reg.SELFTEST_STAT_FAIL, Reg.SELFTEST_STAT_REGION, Reg.SEC_STAT_PATCH_ERR] s t)

/-- The full reset and the exit from M0. -/
def Obligations.Resets : Prop := Claims.FullResets ∧ Claims.ResetExit

/-- Owner key, security version, unlock and tamper (R461 to R463, R472, R474). -/
def Obligations.Security : Prop :=
  (∀ s : State, s.takesWrites = true → Does .secCtlCommit s fun t => t.on Reg.SEC_STAT_OWNER_SET = true ∧ UnitOnly [Reg.SEC_STAT_OWNER_SET] s t)
  ∧ (∀ s : State, s.takesWrites = true → s.imageSet = true → Does .secCtlSvnRaise s fun t =>
      t.rd Reg.SEC_SVN_MIN_SVN = max (s.rd Reg.SEC_SVN_MIN_SVN) s.image.svn.toNat % 2 ^ Reg.SEC_SVN_MIN_SVN.width ∧ UnitOnly [Reg.SEC_SVN_MIN_SVN] s t)
  ∧ (∀ (s : State) (part : Option Nat), (s.secOf part).fails < 3 → Does (.secChal part) s fun t =>
      (∃ ch, (t.secOf part).challenge = some ch ∧ ch.toNat % 2 ^ 64 = s.serialOf part % 2 ^ 64) ∧ (t.secOf part).fails = (s.secOf part).fails
        ∧ t.regs = s.regs ∧ t.trees = s.trees ∧ SameMem s t ∧ ∀ d, some d ≠ part → t.cell d = s.cell d)
  ∧ (∀ s : State, s.sec.challenge.isSome = true → Does (.secResp none true) s fun t => t.on Reg.SEC_STAT_UNLOCKED = true ∧ t.sec.idk = false
      ∧ t.sec.anchor = none ∧ t.sec.challenge = none ∧ t.mirror.keyed = false ∧ (∀ r u, (t.tree r u).keyed = false ∧ (t.tree r u).key = 0)
      ∧ UnitOnly [Reg.SEC_STAT_UNLOCKED, Reg.MIRR_STAT_LINK_UP, Reg.TIME_STAT_PEER_VALID] s t)
  ∧ (∀ (s : State) (c : Nat), (s.cell c).sec.challenge.isSome = true → Does (.secResp (some c) true) s fun t => (t.cell c).on Els.SEC_STAT_UNLOCKED = true
      ∧ (t.cell c).on Els.SEC_STAT_ANCHOR_SET = false ∧ (t.cell c).sec.idk = false ∧ (t.cell c).sec.anchor = none ∧ (∀ p, (t.port c p).keyed = false)
      ∧ SameCells c [Els.SEC_STAT_UNLOCKED, Els.SEC_STAT_ANCHOR_SET, Els.SEC_STAT_KEYED_A, Els.SEC_STAT_KEYED_B] s t ∧ UnitKept s t ∧ SameCellMem s t)
  ∧ (∀ (s : State) (part : Option Nat), Does (.secResp part false) s fun t => (t.secOf part).challenge = none
      ∧ (t.secOf part).fails = (s.secOf part).fails + 1 ∧ (t.secOf part).idk = (s.secOf part).idk ∧ t.regs = s.regs ∧ SameMem s t)
  ∧ (∀ s : State, s.modeNo ≠ 0 → Does .secTamper s fun t => Raised t .chip Src.SEC_TAMPER ∧ t.mirror.keyed = false ∧ (∀ r u, (t.tree r u).keyed = false)
      ∧ t.linkUp = false ∧ t.sec.zeroised = true ∧ UnitOnly [Reg.MIRR_STAT_LINK_UP, Reg.TIME_STAT_PEER_VALID] s t)

namespace Sys2Proof.Claims
/-- What a cell reset leaves (R444, R525): every output off, the registers at their reset values but the pins and what MRAM holds, the cell's volatile memory
cleared and its MRAM kept. -/
def CellInReset (c : Nat) (s t : State) : Prop :=
  AllOff c t ∧ (t.cell c).up = false ∧ (t.cell c).prot.swCmd = false ∧ (t.cell c).owner = 2 ∧ (∀ p, (t.port c p) = {})
    ∧ (∀ f : Fld, (∀ g ∈ keptCellRegs, f.lsb ≠ g.lsb) → t.crd c f = f.rst) ∧ (∀ f ∈ keptCellRegs, t.crd c f = s.crd c f % 2 ^ f.width)
    ∧ (∀ a, a < 0x200000 → memGet t.cellMem (cellKey c a) = if a < cMram then 0 else memGet s.cellMem (cellKey c a))
    ∧ (t.cell c).sec.anchor = (s.cell c).sec.anchor ∧ t.coll (.cell c) = {} ∧ CellOnly c s t ∧ OtherCellMem c s t
end Sys2Proof.Claims

/-- The reset of an Elsum (R351, R444, R465, R471, R474, R479, R525): RESET_N low and a supply glitch put it in reset; its exit restores the calibration that MRAM
holds; EXTEST holds its outputs off; a refresh changes no byte of its MRAM. -/
def Obligations.CellResets : Prop :=
  (∀ (s : State) (c : Nat), Does (.elsumResetN c) s fun t => CellInReset c s t ∧ (t.cell c).prot.resetN = false)
  ∧ (∀ (s : State) (c : Nat), (s.cell c).up = true → (s.cell c).prot.resLowN = true → Does (.elsumTamper c) s fun t =>
      CellInReset c s t ∧ (t.cell c).prot.resetN = true)
  ∧ (∀ (s : State) (c patch : Nat), (s.cell c).up = false → (s.cell c).on Els.PROT_STAT_BYP_SW_CONF = false →
      (s.cell c).on Els.PROT_STAT_OVERVOLTAGE = false → Does (.cellResetExit c patch) s fun t => (t.cell c).up = true
        ∧ (t.cell c).on Els.PROT_STAT_AUX_PG = true ∧ ((t.cell c).on Els.SEC_STAT_PATCH_ERR = true ↔ patch = 2)
        ∧ (s.cval c (cMram + 0x1004) 4 ≠ 0 → t.crd c Els.CV_CAL_GAIN_GAIN = s.cval c (cMram + 0x1004) 4 % 2 ^ Els.CV_CAL_GAIN_GAIN.width
            ∧ t.crd c Els.CV_CAL_OFS_OFS = s.cval c (cMram + 0x1000) 4 % 2 ^ Els.CV_CAL_OFS_OFS.width)
        ∧ SameCells c [Els.PROT_STAT_AUX_PG, Els.SEC_STAT_PATCH_ERR, Els.CV_CAL_GAIN_GAIN, Els.CV_CAL_OFS_OFS] s t ∧ UnitKept s t ∧ SameCellMem s t)
  ∧ (∀ (s : State) (c patch : Nat), (s.cell c).up = false → (s.cell c).on Els.PROT_STAT_BYP_SW_CONF = true →
      (s.cell c).on Els.PROT_STAT_OVERVOLTAGE = false → Does (.cellResetExit c patch) s fun t => (t.cell c).up = true ∧ (t.cell c).prot.byp = true
        ∧ (t.cell c).sw.dead = true ∧ (t.cell c).on Els.GEN_STAT_BYPASSED = true ∧ CellOnly c s t ∧ SameCellMem s t)
  ∧ (∀ (s : State) (c : Nat), (s.cell c).prot.resetN = false ∨ (s.cell c).on Els.SEC_STAT_UNLOCKED = true → Does (.extest (some c) true) s fun t =>
      AllOff c t ∧ (t.cell c).sec.extest = true ∧ (t.cell c).prot.pulseOn = false ∧ (t.cell c).prot.swCmd = false
        ∧ SameCells c [] s t ∧ UnitKept s t ∧ OtherCellMem c s t)
  ∧ (∀ (s : State) (sel : Bool), s.mode.resetN = false ∨ s.on Reg.SEC_STAT_UNLOCKED = true → Does (.extest none sel) s fun t => t.sec.extest = sel
      ∧ t.regs = s.regs ∧ t.cells = s.cells ∧ SameMem s t)
  ∧ (∀ (s : State) (c : Nat), Does (.mramRefresh (some c)) s fun t => (t.cell c).runNs = 0 ∧ SameCells c [] s t ∧ UnitKept s t ∧ SameCellMem s t)

/-! ### The host interface (R84 to R87, R412 to R421, R432) -/

namespace Sys2Proof.Claims
/-- Bytes `o` to `o + n - 1` of a descriptor. -/
def descField (d : BitVec 256) (o n : Nat) : Nat := d.toNat / 2 ^ (8 * o) % 2 ^ (8 * n)
/-- A ring has one descriptor more: its type, and what else holds of it (R413). -/
def Posted (n typ : Nat) (s t : State) (P : BitVec 256 → Prop) : Prop :=
  (t.ring n).prod = ((s.ring n).prod + 1) % 65536
    ∧ ∃ d, fget 0 (t.ring n).slots ((s.ring n).prod % 2 ^ s.rd (ringF n Reg.RING_CFG_LOG2)) = d ∧ descField d 1 1 = typ ∧ P d
/-- The transaction a command of the host queues (R125, R126). -/
def newTxn (x : TreeSt) (kind slot : Nat) (payload : List Byte) (o : Origin) : Txn :=
  { num := x.nextTxn, slot := slot, segs := segsOf kind slot x.nextTxn false payload, origin := o }
/-- A command has completed (R418): the descriptor in the completion ring of its ring holds its operation, tag, status and result. -/
def Completed (c : HostCmd) (op status result : Nat) (s t : State) : Prop :=
  Posted (s.rd (ringF c.ring Reg.RING_CFG_CPL)) op s t fun d =>
    descField d 2 4 = c.tag % 2 ^ 32 ∧ descField d 6 2 = status ∧ descField d 16 8 = result % 2 ^ 64 ∧ descField d 28 4 = s.pn % 2 ^ 32
end Sys2Proof.Claims

/-- Rings and doorbells (R398, R412, R414, R432): a page read that falls due takes the indices of the enabled rings and fetches at most CMD_MAX new commands; one
still outstanding when the next falls due is counted then; one that fails counts towards the wedge. RING_CFG enables a ring with both indices 0; an enabled ring
keeps its configuration. -/
def Sys2Proof.Claims.HostRings : Prop :=
  (∀ (s : State) (pre post : List (Nat × Nat)) (n i d : Nat), s.doorbellAt = some d → (s.epochs = true → s.host.pollAt < d) → s.wedged = false → n < 64 →
      s.on (ringF n Reg.RING_CFG_EN) = true → (∀ q ∈ pre ++ post, q.1 ≠ n) → (∀ x ∈ s.host.cplWait, x.ring ≠ n) → Plain s →
      Does (.doorbellRead (pre ++ (n, i) :: post) 0) s fun t =>
        (if s.rd (ringF n Reg.RING_CFG_KIND) = 1 then (t.ring n).prod = i % 65536
            ∧ (t.ring n).waiting = (s.ring n).waiting + min (s.rd Reg.HOST_CFG_CMD_MAX) ((i % 65536 + 65536 - (s.ring n).fetched) % 65536)
          else (t.ring n).cons = i % 65536 ∧ (t.ring n).prod = (s.ring n).prod)
        ∧ t.host.fails = 0 ∧ t.host.pollAt = t.ns ∧ t.host.readOpen = false ∧ (s.running = true → d < 2 ^ 64 → d ≤ t.ns)
        ∧ (s.host.readOpen = false → t.regs = s.regs) ∧ UnitOnly [Reg.HOST_STAT_DB_SKIP] s t)
  ∧ (∀ (s : State) (idx : List (Nat × Nat)) (d : Nat), s.doorbellAt = some d → (s.epochs = true → s.host.pollAt < d) → s.wedged = false → Plain s →
      Does (.doorbellRead idx 1) s fun t => t.host.readOpen = true ∧ t.host.pollAt = t.ns
        ∧ t.rd Reg.HOST_STAT_DB_SKIP = (if s.host.readOpen = true then
            satInc Reg.HOST_STAT_DB_SKIP.width (s.rd Reg.HOST_STAT_DB_SKIP) % 2 ^ Reg.HOST_STAT_DB_SKIP.width else s.rd Reg.HOST_STAT_DB_SKIP)
        ∧ t.host.rings = s.host.rings ∧ UnitOnly [Reg.HOST_STAT_DB_SKIP] s t)
  ∧ (∀ (s : State) (idx : List (Nat × Nat)) (d : Nat), s.doorbellAt = some d → (s.epochs = true → s.host.pollAt < d) → s.wedged = false → Plain s →
      Does (.doorbellRead idx 2) s fun t => Raised t .chip Src.HOST_DMA_ERR ∧ t.host.fails = s.host.fails + 1
        ∧ (t.wedged = true ↔ s.rd Reg.HOST_CFG_FAIL_N ≤ s.host.fails + 1)
        ∧ UnitOnly ([Reg.HOST_STAT_WEDGED, Reg.CLAUSE_STAT_STAGED, Reg.HOST_STAT_DB_SKIP] ++ clauseFields) s t)
  ∧ (∀ (s : State) (v : W32), s.takesWrites = true → let n := s.rd Reg.RING_SEL_N
      (s.on (ringF n Reg.RING_CFG_EN) = true → Does (.ringCfgWrite v) s fun t => t = { s with held := [] })
      ∧ (s.on (ringF n Reg.RING_CFG_EN) = false → v.toNat.testBit 31 = true →
          (let k := bits v.toNat (Reg.RING_CFG_KIND.lsb % 32) Reg.RING_CFG_KIND.width; k = 4 ∨ k = 5 → s.ringOfKind k = none) →
          Does (.ringCfgWrite v) s fun t => t.on (ringF n Reg.RING_CFG_EN) = true ∧ t.ring n = {}
            ∧ t.rd (ringF n Reg.RING_CFG_LOG2) = bits v.toNat (Reg.RING_CFG_LOG2.lsb % 32) Reg.RING_CFG_LOG2.width
            ∧ t.rd (ringF n Reg.RING_CFG_CPL) = bits v.toNat (Reg.RING_CFG_CPL.lsb % 32) Reg.RING_CFG_CPL.width
            ∧ UnitOnly [ringF n Reg.RING_CFG_EN, ringF n Reg.RING_CFG_KIND, ringF n Reg.RING_CFG_LOG2, ringF n Reg.RING_CFG_VEC, ringF n Reg.RING_CFG_MOD,
                ringF n Reg.RING_CFG_CPL, ringF n Reg.RING_CFG_PORT] s t))
  ∧ (∀ (s : State) (cause : Nat), s.modeNo ≠ 0 → cause ≠ 1 → s.wedged = false → Does (.hostWedge cause) s fun t => t.wedged = true
      ∧ t.clause.staged = none ∧ (∀ a, s.clause.armed = some a → a.committed = false → t.clause.armed = none)
      ∧ t.host.rings = s.host.rings ∧ UnitOnly ([Reg.HOST_STAT_WEDGED, Reg.CLAUSE_STAT_STAGED] ++ clauseFields) s t)

/-- Interrupts and trace (R415, R421): a moderation timer that ends issues its message or sets the PBA bit of a masked vector; unmasking a vector issues a message
that its bit holds; the oldest trace record of a region goes to the trace ring. -/
def Sys2Proof.Claims.HostMessages : Prop :=
  (∀ (s : State) (v n : Nat), s.host.modTimer.find? (fun p => p.1 == v) = some (v, n) → s.running = true → s.ns < n → n < 2 ^ 64 → s.wedged = false →
      Plain s → Does (.msixModerationExpiry v) s fun t => t.ns = n ∧ fhas t.host.modTimer v = false
        ∧ (if s.host.msixUnmasked.contains v = true then fget 0 t.host.msixSent v = fget 0 s.host.msixSent v + 1 ∧ t.host.pba = s.host.pba
            else t.host.pba = setBit s.host.pba v ∧ t.host.msixSent = s.host.msixSent)
        ∧ UnitOnly [] s t)
  ∧ (∀ (s : State) (v : Nat), v < 64 → s.takesWrites = true → Does (.msixUnmask v) s fun t => t.host.msixUnmasked.contains v = true
      ∧ (if s.host.pba.testBit v = true ∧ s.wedged = false then fget 0 t.host.msixSent v = fget 0 s.host.msixSent v + 1 ∧ t.host.pba.testBit v = false
          else t.host.msixSent = s.host.msixSent ∧ t.host.pba = s.host.pba)
      ∧ UnitOnly [] s t)
  ∧ (∀ (s : State) (r n : Nat) (x : BitVec 128) (rest : List (BitVec 128)), s.ringOfKind 5 = some n → (s.dsp r).trace = x :: rest → s.ringFull n = false →
      s.wedged = false → Does (.traceDeliver r) s fun t => (t.dsp r).trace = rest
        ∧ Posted n 0x30 s t (fun d => descField d 2 1 = r % 256 ∧ descField d 16 16 = x.toNat) ∧ UnitOnly [] s t)

/-- The host: its rings, and its messages. -/
def Obligations.HostPath : Prop := Claims.HostRings ∧ Claims.HostMessages

namespace Sys2Proof.Claims
/-- Where a command of a ring starts: its ring is an enabled command ring (R412) with a command fetched and waiting (R414), the completion ring bound to it has a
free descriptor (R415), with FENCE every earlier command of the ring has completed (R417), and the host function is not wedged (R432). -/
def Starts (c : HostCmd) (s : State) : Prop :=
  s.on (ringF c.ring Reg.RING_CFG_EN) = true ∧ s.rd (ringF c.ring Reg.RING_CFG_KIND) = 1 ∧ 0 < (s.ring c.ring).waiting
    ∧ ((s.ring (s.rd (ringF c.ring Reg.RING_CFG_CPL))).prod + 65536 - (s.ring (s.rd (ringF c.ring Reg.RING_CFG_CPL))).cons) % 65536
        ≠ 2 ^ s.rd (ringF (s.rd (ringF c.ring Reg.RING_CFG_CPL)) Reg.RING_CFG_LOG2)
    ∧ (c.fence = true → (s.ring c.ring).openCmds = 0) ∧ s.on Reg.HOST_STAT_WEDGED = false
end Sys2Proof.Claims

/-- Commands of a ring that complete at once (R193, R211, R416 to R418): NOP, the parameter block written or refused, and the block read. -/
def Obligations.HostBlocks : Prop :=
  (∀ (s : State) (c : HostCmd) (op : Nat), Starts c s → op < 256 → op = 1 ∨ op ∉ opcodes → Does (.nopCommand ⟨c, op⟩) s fun t =>
      Completed c op (if op = 1 then Cpl.OK else Cpl.BAD_COMMAND) 0 s t
      ∧ (t.ring c.ring).waiting = (s.ring c.ring).waiting - 1 ∧ (t.ring c.ring).openCmds = (s.ring c.ring).openCmds ∧ t.clause = s.clause ∧ UnitOnly [] s t)
  ∧ (∀ (s : State) (c : HostCmd) (r ad : Nat) (l : List Byte), Starts c s → r < s.dies → ad % 4 = 0 → l.length % 4 = 0 →
      4 ≤ l.length → l.length ≤ 65536 → ad + l.length ≤ 0x800000 →
      ((∀ q ∈ paramWords ad l, s.wordRefused r q = false) → Does (.paramWrite c r ad (some l)) s fun t => Completed c 0x02 Cpl.OK 0 s t
        ∧ (∀ q ∈ paramWords ad l, s.loopWord r q.1 = none → s.refWord r q.1 = false ∨ s.epochs = false → t.rgnWord r q.1 = q.2)
        ∧ (∀ q ∈ paramWords ad l, s.loopWord r q.1 = none → s.refWord r q.1 = true → s.epochs = true → t.rgnWord r q.1 = s.rgnWord r q.1
            ∧ fget 0 (t.rgn r).refWrites q.1 = q.2)
        ∧ (∀ q ∈ paramWords ad l, ∀ k o, s.loopWord r q.1 = some (k, o) → t.rgnWord r q.1 = if o = 8 ∨ o = 12 then s.rgnWord r q.1 else q.2)
        ∧ (∀ a, a < rgnKey r ad ∨ rgnKey r ad + l.length ≤ a → memGet t.sram a = memGet s.sram a)
        ∧ SameRegs [] s t ∧ t.cells = s.cells ∧ t.cellMem = s.cellMem)
      ∧ ((∃ q ∈ paramWords ad l, s.wordRefused r q = true) → Does (.paramWrite c r ad (some l)) s fun t =>
          Completed c 0x02 Cpl.REFUSED 0 s t ∧ UnitOnly [] s t)
      ∧ Does (.paramWrite c r ad none) s fun t => Completed c 0x02 Cpl.DMA_ERROR 0 s t ∧ UnitOnly [] s t)
  ∧ (∀ (s : State) (c : HostCmd) (r ad len : Nat), Starts c s → r < s.dies → ad % 4 = 0 →
      (ad + len ≤ 0xA00000 → Does (.paramRead c r ad len) s fun t => Completed c 0x03 Cpl.OK len s t
        ∧ (4 ≤ len → ad < 0x800000 → t.lastRead = s.rgnWord r ad) ∧ UnitOnly [] s t)
      ∧ (0xA00000 < ad + len → Does (.paramRead c r ad len) s fun t => Completed c 0x03 Cpl.BAD_COMMAND 0 s t ∧ t.lastRead = s.lastRead ∧ UnitOnly [] s t))

/-- Commands that reach a cell (R125, R128, R416, R508, R509) queue one management transaction on its tree; they complete as BAD_COMMAND where the plan has no such
slot, and as MGMT_FAIL on a tree that is DISABLED, IDLE or FAILED. -/
def Obligations.HostCellCommands : Prop :=
  ∀ (s : State) (c : HostCmd) (cell : Nat), Starts c s →
    let r := idxRegion cell
    let u := idxTree cell
    let there := r < s.dies ∧ cell < 32768 ∧ idxSlot cell < s.slotsN r u
    let dead := s.treeState r u = 0 ∨ s.treeState r u = 1 ∨ s.treeState r u = 6
    let Queued (kind len op : Nat) (payload : List Byte) (t : State) : Prop :=
      (t.tree r u).txns = (s.tree r u).txns ++ [newTxn (s.tree r u) kind (idxSlot cell) payload (.host c.ring c.tag op c.notify len)]
        ∧ (t.ring c.ring).openCmds = (s.ring c.ring).openCmds + 1 ∧ OtherTrees r u s t ∧ UnitOnly [] s t
    let Ends (op status : Nat) (t : State) : Prop := Completed c op status 0 s t ∧ t.trees = s.trees ∧ UnitOnly [] s t
    (∀ (write : Bool) (addr : Nat) (v : W32), addr % 4 = 0 → addr < 65536 →
      (there → ¬ dead → Does (.cellReg c cell write addr v) s
          (Queued 1 4 0x05 (RegOp.bytes ⟨write, addr, if write then 0xFFFFFFFF else 0, if write then v else 0⟩)))
      ∧ (¬ there → Does (.cellReg c cell write addr v) s (Ends 0x05 Cpl.BAD_COMMAND))
      ∧ (there → dead → Does (.cellReg c cell write addr v) s (Ends 0x05 Cpl.MGMT_FAIL)))
    ∧ (∀ (addr len : Nat) (l : List Byte), 0 < len → len ≤ 1024 → l.length = len →
      (there → ¬ dead → Does (.cellMem c cell addr len (some l) true) s (Queued 2 len 0x06 (leBytes 4 addr ++ leBytes 2 len ++ leBytes 2 0 ++ l))
        ∧ Does (.cellMem c cell addr len none false) s (Queued 3 len 0x06 (leBytes 4 addr ++ leBytes 2 len ++ leBytes 2 0)))
      ∧ (there → dead → Does (.cellMem c cell addr len (some l) true) s (Ends 0x06 Cpl.MGMT_FAIL))
      ∧ (¬ there → Does (.cellMem c cell addr len (some l) true) s (Ends 0x06 Cpl.BAD_COMMAND))
      ∧ Does (.cellMem c cell addr len none true) s (Ends 0x06 Cpl.DMA_ERROR))

/-- IMAGE_LOAD (R185, R198, R416, R438, R462, R463): an image that is not trusted or breaks a check changes nothing, and one whose poles alone fail is refused with
POLE_OUTSIDE; a good one comes into force in M1, and is the candidate in another mode. The image number it answers is a free value (log entry 3). -/
def Obligations.ImageLoading : Prop :=
  (∀ (s : State) (c : HostCmd) (i : Image), Starts c s → s.trusts i = true → s.imageShape i = true → s.polesOk i = true →
    (s.modeNo = 1 → Does (.imageLoad c (some i)) s fun t => t.image = i ∧ t.imageSet = true ∧ t.imageNo = s.freeVal.toNat % 2 ^ 32
      ∧ Completed c 0x04 Cpl.OK (s.freeVal.toNat % 2 ^ 32) s t ∧ UnitOnly [Reg.SEC_STAT_ENDORSED] s t)
    ∧ (s.modeNo ≠ 1 → Does (.imageLoad c (some i)) s fun t => t.candidate = some (s.freeVal.toNat % 2 ^ 32, i) ∧ t.image = s.image
      ∧ Completed c 0x04 Cpl.OK (s.freeVal.toNat % 2 ^ 32) s t ∧ UnitOnly [] s t))
  ∧ (∀ (s : State) (c : HostCmd) (i : Image), Starts c s → s.trusts i = false ∨ s.imageShape i = false →
      Does (.imageLoad c (some i)) s fun t => t.image = s.image ∧ t.candidate = s.candidate ∧ Completed c 0x04 Cpl.IMAGE_ERROR 0 s t ∧ UnitOnly [] s t)
  ∧ (∀ (s : State) (c : HostCmd) (i : Image), Starts c s → s.trusts i = true → s.imageShape i = true → s.polesOk i = false →
      Does (.imageLoad c (some i)) s fun t => t.image = s.image ∧ t.candidate = s.candidate ∧ Completed c 0x04 Cpl.IMAGE_ERROR 0 s t
        ∧ Posted (s.rd (ringF c.ring Reg.RING_CFG_CPL)) 0x04 s t (fun d => descField d 24 4 = Rsn.POLE_OUTSIDE) ∧ UnitOnly [] s t)
  ∧ (∀ (s : State) (c : HostCmd), Starts c s → Does (.imageLoad c none) s fun t => t.candidate = s.candidate
      ∧ Completed c 0x04 Cpl.DMA_ERROR 0 s t ∧ UnitOnly [] s t)

/-- Frames of a station port (R77, R78, R81, R82, R86, R87, R419): a frame sent is queued, a ninth timed one or one more than 1 s ahead refused; a timed frame leaves so
that byte 0 is at the corrected plane at its launch time, an untimed one when the medium is free, and its command completes; with one-step a Sync leaves with its
egress time in it; a frame received goes to the receive ring with its timestamp, or is counted. How long a frame takes the medium is log entry 87. -/
def Obligations.StationPorts : Prop :=
  (∀ (s : State) (c : HostCmd) (p : Nat) (l : List Byte) (late : Bool) (ts : TxStamp), Starts c s → p < 2 → 64 ≤ l.length → l.length ≤ 1522 →
    let Queued (launch : Option Nat) (t : State) : Prop := t.txQueue p = s.txQueue p ++ [⟨c, l, launch, late, ts.oneStep, ts.ret⟩] ∧ UnitOnly [] s t
    let Ends (status : Nat) (t : State) : Prop := t.txQueue p = s.txQueue p ∧ Completed c 0x07 status 0 s t ∧ UnitOnly [] s t
    Does (.stnTx c p (some l) none late ts) s (Queued none)
    ∧ (∀ d, frameClass l = 0 ∨ frameClass l = 2 →
        ((s.launches p).length < 8 → d ≤ s.ns + 1000000000 → Does (.stnTx c p (some l) (some d) late ts) s (Queued (some d)))
        ∧ (8 ≤ (s.launches p).length → Does (.stnTx c p (some l) (some d) late ts) s (Ends Cpl.TX_QUEUE_FULL))
        ∧ ((s.launches p).length < 8 → s.ns + 1000000000 < d → Does (.stnTx c p (some l) (some d) late ts) s (Ends Cpl.TX_TOO_FAR)))
    ∧ (∀ d, frameClass l ≠ 0 → frameClass l ≠ 2 → Does (.stnTx c p (some l) (some d) late ts) s (Ends Cpl.BAD_COMMAND))
    ∧ ∀ launch, Does (.stnTx c p none launch late ts) s (Ends Cpl.DMA_ERROR))
  ∧ (∀ (s : State) (p d : Nat) (x : TxFrame), nextTimed (s.txQueue p) = some x → x.launch = some d →
      let m := s.runToQ (s.ballAt p d)
      let cpl := s.rd (ringF x.cmd.ring Reg.RING_CFG_CPL)
      s.wedged = false → s.ringFull cpl = false → quarters s.time.ctr ≤ s.ballAt p d → fget 0 s.stn.busy p ≤ s.ballAt p d →
      Does (.stnFrameTransmit p true) s fun t => t.time = m.time
        ∧ (s.running = true → Plain s → s.ballAt p d < 2 ^ 66 → quarters t.time.ctr = s.ballAt p d)
        ∧ t.txQueue p = (s.txQueue p).erase x ∧ fget 0 t.stn.busy p = quarters m.time.ctr + mediumQ x.frame.length
        ∧ (x.oneStep = false → fget [] t.stn.out p = x.frame)
        ∧ (x.oneStep = true → frameClass x.frame = 0 → ptpType x.frame = 0 → fget [] t.stn.out p
            = refcs (putAt x.frame (etherData x.frame + 34) (ptpTime (quarters (m.stampAdj (txAdj p))))))
        ∧ Posted cpl 0x07 s t (fun e => descField e 6 2 = Cpl.OK
            ∧ descField e 16 8 = if x.retTs = true then timeNs (m.stampAdj (txAdj p)) % 2 ^ 64 else 0) ∧ UnitOnly [] m t)
  ∧ (∀ (s : State) (p : Nat) (x : TxFrame), (s.txQueue p).find? (fun y => y.launch.isNone) = some x →
      let m := s.runToQ (fget 0 s.stn.busy p)
      let cpl := s.rd (ringF x.cmd.ring Reg.RING_CFG_CPL)
      s.wedged = false → s.ringFull cpl = false → m.holdsBack p (quarters m.time.ctr) x.frame.length = false →
      Does (.stnFrameTransmit p false) s fun t => t.time = m.time ∧ t.txQueue p = (s.txQueue p).erase x
        ∧ Posted cpl 0x07 s t (fun e => descField e 6 2 = Cpl.OK) ∧ UnitOnly [] m t)
  ∧ (∀ (s : State) (p q n : Nat) (frame : List Byte) (sub mine : Bool), let m := s.runBy q
      p < 2 → m.wedged = false → ((m.ringsOfKind 6).find? fun k => m.rd (ringF k Reg.RING_CFG_PORT) == p) = some n →
      frameClass frame = 0 ∨ (sub = true ∧ frameClass frame ≠ 3) ∨ (mine = true ∧ m.on Reg.RX_CFG_OTHER = true) →
      Does (.stnFrameReceive p q frame sub mine true) s fun t =>
        (if m.ringFull n = true then t.rd (ringF n Reg.RING_STAT_LOST)
              = satInc Reg.RING_STAT_LOST.width (m.rd (ringF n Reg.RING_STAT_LOST)) % 2 ^ Reg.RING_STAT_LOST.width ∧ (t.ring n).prod = (s.ring n).prod
          else Posted n 0x20 m t fun d => descField d 2 1 = p ∧ descField d 3 1 = frameClass frame ∧ descField d 4 2 = frame.length % 65536
            ∧ descField d 8 8 = timeNs (m.stampAdj (rxAdj p)) % 2 ^ 64)
        ∧ (frameClass frame = 0 → ptpType frame = 2 → (pdelayKey frame, quarters (m.stampAdj (rxAdj p))) ∈ fget [] t.stn.pdelay p)
        ∧ UnitOnly [ringF n Reg.RING_STAT_LOST] m t)
  ∧ (∀ (s : State) (p q : Nat) (frame : List Byte) (mine : Bool), p < 2 → frameClass frame ≠ 0 → mine = false ∨ (s.runBy q).on Reg.RX_CFG_OTHER = false →
      Does (.stnFrameReceive p q frame false mine true) s fun t => t = s.runBy q)
  ∧ (∀ (s : State) (p q : Nat) (frame : List Byte) (sub mine : Bool), p < 2 → Does (.stnFrameReceive p q frame sub mine false) s fun t => t = s.runBy q)

/-! ### The command deadline and the epoch of an Elsum (R254 to R257, R364 to R369, R429) -/

/-- The command deadline, 200 ns before the epoch (R256, R364, R365, R369): a healthy Beacon's record becomes the pending command and the lease counter restarts;
with no Beacon the cell holds, until the hold would pass HOLD_LIMIT; LEASE_PERIODS without one release the owner; a cell without an owner takes a claim, of two
the one of the higher AUTH_EPOCH. No gate changes and the command in force stays. -/
def Obligations.CommandDeadlines : Prop :=
  ∀ (s : State) (c : Nat) (pos neg : Bool),
    let x := s.cell c
    let k := x.time.pn + 1
    let At (t : State) : Prop := (t.cell c).time.decided = some k ∧ (t.cell c).time.clock = max x.time.clock (s.cellNext c - 800) ∧ (t.cell c).prot.dir = dirOf pos neg
      ∧ (∀ p, (t.cell c).gate p = x.gate p) ∧ (t.cell c).sw.cmd = x.sw.cmd ∧ CellOnly c s t
    let Silent : Prop := ∀ p, p < 2 → (x.port p).inTime k = none
    x.hasEpochs = true → x.time.decided ≠ some k → x.staged = none →
    (∀ b, x.healthyFor k = some b → x.claimFor k 0 = none → x.claimFor k 1 = none → b.void = false → Does (.commandDeadline c pos neg) s fun t => At t
      ∧ (t.cell c).sw.next = some (x.asRun b.cmd) ∧ (t.cell c).sw.calNext = b.cmd.cal ∧ (t.cell c).auth.miss = 0
      ∧ SameCells c [Els.PWM_STAT_DROP, Els.PWM_STAT_STRETCH] s t ∧ SameCellMem s t)
    ∧ (Silent → x.owner < 2 → x.auth.miss + 1 < x.rd Els.AUTH_CFG_LEASE_PERIODS → x.auth.expired = false →
      (x.auth.holdN + 1 ≤ x.rd Els.AUTH_CFG_HOLD_LIMIT → Does (.commandDeadline c pos neg) s fun t => At t ∧ (t.cell c).sw.next = none
        ∧ (t.cell c).auth.expireDue = x.auth.expireDue ∧ (t.cell c).auth.miss = x.auth.miss + 1
        ∧ SameCells c [Els.PWM_STAT_DROP, Els.PWM_STAT_STRETCH] s t ∧ SameCellMem s t)
      ∧ (x.rd Els.AUTH_CFG_HOLD_LIMIT < x.auth.holdN + 1 → Does (.commandDeadline c pos neg) s fun t => At t ∧ (t.cell c).sw.next = none
        ∧ (t.cell c).auth.expireDue = true ∧ Raised t (.cell c) Src.HOLD_EXPIRED ∧ SameCells c [Els.MRAM_LOG_HEAD] s t ∧ OtherCellMem c s t))
    ∧ (Silent → x.owner < 2 → x.rd Els.AUTH_CFG_LEASE_PERIODS ≤ x.auth.miss + 1 → Does (.commandDeadline c pos neg) s fun t => At t
      ∧ (t.cell c).owner = 2 ∧ t.crd c Els.AUTH_STAT_EPOCH = x.rd Els.AUTH_STAT_EPOCH % 2 ^ 32 ∧ (t.cell c).sw.next = none
      ∧ SameCells c [Els.AUTH_STAT_OWNER, Els.AUTH_STAT_EPOCH, Els.PWM_STAT_DROP, Els.PWM_STAT_STRETCH, Els.MRAM_LOG_HEAD] s t ∧ OtherCellMem c s t)
    ∧ (∀ p b, 2 ≤ x.owner → p < 2 → pickClaim (x.claimFor k 0) (x.claimFor k 1) = some (p, b) → Does (.commandDeadline c pos neg) s fun t => At t
      ∧ (t.cell c).owner = p ∧ t.crd c Els.AUTH_STAT_EPOCH = b.hdr.authEpoch.toNat ∧ (b.void = false → ∃ r, (t.cell c).sw.next = some r ∧ r.cal = b.cmd.cal)
      ∧ SameCells c [Els.AUTH_STAT_OWNER, Els.AUTH_STAT_EPOCH, Els.AUTH_STAT_CLAIM_REFUSED, Els.PWM_STAT_DROP, Els.PWM_STAT_STRETCH, Els.MRAM_LOG_HEAD] s t
      ∧ OtherCellMem c s t)

namespace Sys2Proof.Claims
/-- The register fields an epoch of an Elsum can change where no set applies. -/
def epochFields : List Fld := [Els.GEN_STAT_HOLDING, Els.GEN_STAT_FALLBACK, Els.GEN_STAT_CAL_ACTIVE, Els.CV_EPOCH_CODE, Els.CV_EPOCH_VALID, Els.CV_EPOCH_TAG,
  Els.CV_EPOCH_SEQ, Els.CV_RES_TAG, Els.CV_RES_VALID, Els.AUX_STAT_TRIG_LOST, Els.PWM_STAT_RESYNC, Els.MRAM_LOG_HEAD]
end Sys2Proof.Claims

/-- The epoch of an Elsum (R256, R316, R369), its decisions made: PN advances, the pending command comes into force and ends a hold, ISOLATE without an offset runs
the bypass sequence (R255); without a command a hold counts, or an expired one turns every position off. A staged set applies at the epoch its outcome names, and
is discarded 16 epochs after its own without one (R429). -/
def Obligations.CellEpochs : Prop :=
  (∀ (s : State) (c : Nat),
    let x := s.cell c
    let At (t : State) : Prop := (t.cell c).time.pn = x.time.pn + 1 ∧ (t.cell c).time.epochAt = s.cellNext c ∧ (t.cell c).time.clock = s.cellNext c
      ∧ (t.cell c).st = x.st ∧ (t.cell c).sw.next = none ∧ CellOnly c s t ∧ OtherCellMem c s t
    x.hasEpochs = true → x.time.decided = some (x.time.pn + 1) → x.staged = none → x.time.revertPn = none → x.time.announced = none → x.time.stepDue = none →
    x.time.thawPn = none → (∀ p, p < 2 → (x.port p).newDelay = none) → x.sw.stateNext = none → x.rank1 = false → x.time.clock ≤ s.cellNext c →
    (∀ r, x.sw.next = some r → r.cmd ≠ 7 → Does (.cellEpoch c) s fun t => At t ∧ (t.cell c).sw.cmd = r ∧ (t.cell c).auth.holdN = 0 ∧ (t.cell c).auth.expired = false
      ∧ (t.cell c).on Els.GEN_STAT_HOLDING = false ∧ (t.cell c).sw.blocked = false ∧ (∀ p, (t.cell c).gate p = x.gate p) ∧ SameCells c epochFields s t)
    ∧ (∀ r, x.sw.next = some r → r.cmd = 7 → r.edge = 0 → Does (.cellEpoch c) s fun t => At t ∧ (∀ p, p < 4 → (t.cell c).gate p = false)
      ∧ (t.cell c).prot.byp = true ∧ (t.cell c).sw.dead = true ∧ SameCells c (Els.GEN_STAT_BYPASSED :: epochFields) s t)
    ∧ (x.sw.next = none → x.auth.expired = false → x.auth.expireDue = false → x.sw.isoAt = none → Does (.cellEpoch c) s fun t => At t ∧ (t.cell c).sw.cmd = x.sw.cmd
      ∧ (t.cell c).auth.holdN = x.auth.holdN + 1 ∧ (t.cell c).on Els.GEN_STAT_HOLDING = true ∧ (x.auth.holdN = 0 → Raised t (.cell c) Src.HOLD_START)
      ∧ (∀ p, (t.cell c).gate p = x.gate p) ∧ SameCells c epochFields s t)
    ∧ (x.sw.next = none → x.auth.expired = false → x.auth.expireDue = true → Does (.cellEpoch c) s fun t => At t ∧ (t.cell c).sw.cmd.cmd = 0
      ∧ (t.cell c).auth.expired = true ∧ (∀ p, p < 4 → (t.cell c).gate p = false) ∧ SameCells c epochFields s t))
  ∧ (∀ (s : State) (c : Nat) (k : CellSet), (s.cell c).staged = some k → (s.cell c).hasEpochs = true → k.applyPn = some (s.cell c).time.pn → k.entries = [] →
      Does (.cellSetApply c) s fun t => (t.cell c).staged = none ∧ (t.cell c).time = (s.cell c).time ∧ (t.cell c).sw = (s.cell c).sw
        ∧ SameCells c [Els.MRAM_LOG_HEAD] s t ∧ UnitKept s t ∧ OtherCellMem c s t)
  ∧ (∀ (s : State) (c : Nat) (k : CellSet) (e : SetEntry), (s.cell c).staged = some k → (s.cell c).hasEpochs = true → k.applyPn = some (s.cell c).time.pn →
      k.entries = [e] → e.die = false → Does (.cellSetApply c) s fun t => (t.cell c).staged = none
        ∧ (∀ f ∈ elsFields e.addr.toNat, (f.acc = .rw ∨ f.acc = .rwc) → t.crd c f = (((s.cell c).regs.stage (elsFields e.addr.toNat) e.addr.toNat e.mask.toNat e.value.toNat).rd f))
        ∧ (t.cell c).time = (s.cell c).time ∧ CellOnly c s t ∧ OtherCellMem c s t)
  ∧ (∀ (s : State) (c : Nat) (k : CellSet), (s.cell c).staged = some k → Does (.cellSetExpiry c) s fun t =>
      (t.cell c).staged = (if k.applyPn = none ∧ 16 ≤ sext 32 ((s.cell c).time.pn + 2 ^ 32 - k.epoch) then none else some k)
        ∧ SameCells c [] s t ∧ UnitKept s t ∧ SameCellMem s t ∧ (t.cell c).sw = (s.cell c).sw)

/-! ### Switching at an Elsum (R252 to R268, R274 to R276) -/

/-- Requested edges and dead time (R254, R265, R267): at its edge a pair's outgoing positions go off and the incoming one waits its dead time, at whose end it
goes on; an interval that leaves an incoming position no conduction is counted; ISOLATE runs the bypass sequence at its edge time (R255). -/
def Obligations.GateEdges : Prop :=
  (∀ (s : State) (c g : Nat) (e : Edge) (rest : List Edge),
    let x := s.cell c
    g < 2 → (x.pair g).plan = e :: rest → x.runs = true → x.rank1 = false → x.sw.isoAt = none → x.time.clock ≤ e.t → Does (.gateEdge c g) s fun t =>
      (t.cell c).time.clock = e.t ∧ (∀ p, (t.cell c).gate p = if (offPositions g e.st).contains p then false else x.gate p)
        ∧ ((t.cell c).pair g).st = e.st ∧ ((t.cell c).pair g).plan = rest ∧ ((t.cell c).pair g).wait = (posOf g e.st).map (fun p => (p, e.t + x.deadTime g))
        ∧ (∀ g', g' ≠ g → (t.cell c).pair g' = x.pair g')
        ∧ (if (x.pair g).wait.isSome = true then t.crd c Els.PWM_STAT_DT_DROP = satInc 16 (x.rd Els.PWM_STAT_DT_DROP) % 2 ^ 16
            else t.crd c Els.PWM_STAT_DT_DROP = x.rd Els.PWM_STAT_DT_DROP)
        ∧ SameCells c [Els.PWM_STAT_DT_DROP] s t ∧ UnitKept s t ∧ SameCellMem s t)
  ∧ (∀ (s : State) (c g n : Nat),
    let x := s.cell c
    g < 2 → x.sw.isoAt = some n → (∀ e ∈ (x.pair g).plan, n ≤ e.t) → x.runs = true → x.rank1 = false → x.time.clock ≤ n → Does (.gateEdge c g) s fun t =>
      (t.cell c).time.clock = n ∧ (∀ p, p < 4 → (t.cell c).gate p = false) ∧ (t.cell c).prot.byp = true ∧ (t.cell c).sw.dead = true ∧ (t.cell c).sw.isoAt = none
        ∧ SameCells c [Els.GEN_STAT_BYPASSED] s t ∧ UnitKept s t ∧ SameCellMem s t)
  ∧ (∀ (s : State) (c g p n : Nat),
    let x := s.cell c
    g < 2 → (x.pair g).wait = some (p, n) → (∀ e ∈ (x.pair g).plan, n < e.t) → x.runs = true → x.rank1 = false → x.sec.extest = false → x.time.clock ≤ n →
      Does (.deadTimeExpiry c g) s fun t => (t.cell c).time.clock = n ∧ (t.cell c).gate p = true ∧ (∀ p', p' ≠ p → (t.cell c).gate p' = x.gate p')
        ∧ ((t.cell c).pair g).wait = none ∧ ((t.cell c).pair g).st = (x.pair g).st ∧ SameCells c [] s t ∧ UnitKept s t ∧ SameCellMem s t)

/-- Peaks and valleys of the carrier, and gate feedback (R260, R262, R264, R274): in Maintenance a peak loads the TEST duty of a pair, and a write that came in its tick is counted and waits for the next one;
a carrier that is anchored before its peak has none;
the counter reaches a valley after a carrier period or at the anchor of the coming epoch; a position that is on while its command has been off for longer than TMO, or N
consecutive disagreements, raise GATE_FB. -/
def Sys2Proof.Claims.CarrierAndFeedback : Prop :=
  (∀ (s : State) (c g : Nat),
    let x := s.cell c
    let late : Prop := fhas x.sw.tdutyWas g = true ∧ (fget (0, 0) x.sw.tdutyWas g).1 = (s.cellTo c (s.peakAt c)).ctick c
    x.runs = true → g < 2 → s.peakAt c < s.nextValley c → Does (.carrierPeak c g) s fun t => (t.cell c).time.clock = max x.time.clock (s.peakAt c)
      ∧ (x.maint = true → fget 0 (t.cell c).sw.tduty g = (if late then (fget (0, 0) x.sw.tdutyWas g).2 else x.rd (tdutyFld g))
          ∧ t.crd c Els.PWM_STAT_LATE_WRITE = if late then satInc Els.PWM_STAT_LATE_WRITE.width (x.rd Els.PWM_STAT_LATE_WRITE) % 2 ^ Els.PWM_STAT_LATE_WRITE.width
            else x.rd Els.PWM_STAT_LATE_WRITE)
      ∧ (∀ h, h ≠ g → fget 0 (t.cell c).sw.tduty h = fget 0 x.sw.tduty h ∧ (t.cell c).pair h = x.pair h)
      ∧ (x.maint = false → (t.cell c).sw = x.sw) ∧ (∀ p, (t.cell c).gate p = x.gate p)
      ∧ SameCells c [Els.PWM_STAT_LATE_WRITE, Els.PWM_STAT_DROP, Els.PWM_STAT_STRETCH] s t ∧ UnitKept s t ∧ SameCellMem s t)
  ∧ (∀ (s : State) (c g : Nat), s.nextValley c ≤ s.peakAt c → Does (.carrierPeak c g) s fun t => t = s)
  ∧ (∀ (s : State) (c : Nat),
    let x := s.cell c
    x.runs = true → Does (.carrierValley c) s fun t => (t.cell c).sw.valleyAt = s.nextValley c ∧ (t.cell c).time.clock = max x.time.clock (s.nextValley c)
      ∧ (x.sw.cmd.cmd = 3 → x.sw.hyst = false → (t.cell c).sw.carDuty = x.sw.cmd.duty.toNat) ∧ (∀ p, (t.cell c).gate p = x.gate p)
      ∧ SameCells c [] s t ∧ UnitKept s t ∧ SameCellMem s t)
  ∧ (∀ (s : State) (c p : Nat) (on : Bool),
    let x := s.cell c
    let n := fget 0 x.sw.fbN p + 1
    x.up = true → fhas x.sw.edgeAt p = true → Does (.gateFbTimeout c p on) s fun t =>
      (x.runs = true → (t.cell c).time.clock = max x.time.clock (fget 0 x.sw.edgeAt p + 8 * x.rd Els.GFB_CFG_TMO))
        ∧ (on = x.gate p → fget 0 (t.cell c).sw.fbN p = 0 ∧ t.colls = s.colls)
        ∧ (on ≠ x.gate p → n < x.rd Els.GFB_CFG_N → fget 0 (t.cell c).sw.fbN p = n ∧ t.colls = s.colls)
        ∧ (on ≠ x.gate p → x.rd Els.GFB_CFG_N ≤ n → fget 0 (t.cell c).sw.fbN p = 0 ∧ Raised t (.cell c) Src.GATE_FB)
        ∧ (∀ q, (t.cell c).gate q = x.gate q) ∧ SameCells c [] s t ∧ UnitKept s t ∧ SameCellMem s t)
  ∧ (∀ (s : State) (c p q : Nat),
    let x := s.cell c
    x.runs = true → Does (.gateFeedbackOn c p q) s fun t => (t.cell c).time = x.time.run q
      ∧ (x.gate p = false → fget 0 x.sw.edgeAt p + 8 * x.rd Els.GFB_CFG_TMO < (x.time.run q).clock → Raised t (.cell c) Src.GATE_FB)
      ∧ (x.gate p = true → t.colls = s.colls) ∧ (t.cell c).sw = x.sw ∧ SameCells c [] s t ∧ UnitKept s t ∧ SameCellMem s t)

/-- The debug halt (R275, R276): taken in Maintenance only; the cell's time stands and the gate commands keep their levels; a resume goes on from where it stood,
and an edge that fell due in the halt is made at once. -/
def Sys2Proof.Claims.DebugHalt : Prop :=
  (∀ (s : State) (c : Nat),
    let x := s.cell c
    (x.maint = true → Does (.dbgHalt c) s fun t => (t.cell c).halted = true ∧ (t.cell c).runs = false ∧ (t.cell c).sw = x.sw ∧ (t.cell c).time = x.time
      ∧ SameCells c [Els.DBG_STAT_HALTED] s t ∧ UnitKept s t ∧ SameCellMem s t)
    ∧ (x.maint = false → Does (.dbgHalt c) s fun t => (t.cell c).on Els.DBG_STAT_HALT_REFUSED = true ∧ (t.cell c).halted = x.halted ∧ (t.cell c).sw = x.sw
      ∧ SameCells c [Els.DBG_STAT_HALT_REFUSED] s t ∧ UnitKept s t ∧ SameCellMem s t))
  ∧ (∀ (s : State) (c len : Nat),
    let x := s.cell c
    let now := x.time.clock
    x.halted = true → x.up = true → x.prot.loss < 3 → Does (.dbgResume c len) s fun t => (t.cell c).halted = false ∧ (t.cell c).runs = true ∧ (t.cell c).time = x.time
      ∧ (x.sw.isoAt = none → (∀ g, g < 2 → (∀ e ∈ (x.pair g).plan, now + len < e.t) ∧ ∀ w, (x.pair g).wait = some w → now + len < w.2) →
          ∀ p, (t.cell c).gate p = x.gate p)
      ∧ (∀ g e rest, g < 2 → x.rank1 = false → x.sw.isoAt = none → (x.pair g).plan = e :: rest → e.t ≤ now + len → (∀ f ∈ rest, now + len < f.t) →
          (∀ g' w, g' < 2 → (x.pair g').wait = some w → w.1 / 2 = g') →
          ((t.cell c).pair g).st = e.st ∧ ((t.cell c).pair g).plan = rest ∧ ∀ p ∈ offPositions g e.st, (t.cell c).gate p = false)
      ∧ (x.rank1 = false → ∀ n, x.sw.isoAt = some n → n ≤ now + len → (t.cell c).prot.byp = true ∧ ∀ p, p < 4 → (t.cell c).gate p = false)
      ∧ SameCells c [Els.DBG_STAT_HALTED, Els.PWM_STAT_DT_DROP, Els.GEN_STAT_BYPASSED] s t ∧ UnitKept s t ∧ SameCellMem s t)

/-- The carrier, gate feedback and the debug halt of an Elsum. -/
def Obligations.CarrierAndDebug : Prop := Claims.CarrierAndFeedback ∧ Claims.DebugHalt

/-! ### What an Elsum launches (R89, R106 to R114, R128, R339, R348, R370, R408, R522) -/

/-- Reports and markers (R89, R107 to R109, R114, R348, R408): each port that sends launches the Glint of its slot, with the sample of the latest epoch at least
150 ns before, STATUS, FAULT and the next reply fragment, tagged under its session key; a marker leaves in an alert window while CLASS0 stands, or a woken cell's
windows last. -/
def Sys2Proof.Claims.CellReports : Prop :=
  (∀ (s : State) (c p k l : Nat) (late : Bool),
    let x := s.cell c
    let y := x.port p
    p < 2 → s.slotDue c p = some (k, l) → x.sends p (l + x.rd (pf p Port.EQ_EQ)) = true → x.st ≠ 5 → Does (.glintLaunch c late) s fun t =>
      ∃ g : Glint, (t.port c p).sent = some (l + 64, .report g) ∧ (t.port c p).slotPn = some k ∧ (t.port c p).sentN = y.sentN + 1
        ∧ g.kind = 1 ∧ g.port = (p == 1) ∧ g.slot = BitVec.ofNat 7 (x.rd (pf p Port.PORT_ID_SLOT)) ∧ g.samplePn = BitVec.ofNat 16 (x.sampleAt l).1
        ∧ g.cv = BitVec.ofNat 18 (x.sampleAt l).2 ∧ (late = true → g.valid = false) ∧ g.status = x.status late ∧ g.fault = s.faultField c
        ∧ g.temp1 = s.tempTj c ∧ g.mgmt = (y.fragment (l + 64)).1 ∧ g.mac.key = y.key ∧ g.mac.ivPn = BitVec.ofNat 64 k
        ∧ (t.cell c).flt.fresh = [] ∧ (t.cell c).flt.isNew = false ∧ (∀ p', p' < 2 → s.slotDue c p' = none → t.port c p' = s.port c p')
        ∧ (t.cell c).sw = x.sw ∧ SameCells c [] s t ∧ UnitKept s t ∧ SameCellMem s t)
  ∧ (∀ (s : State) (c m p w : Nat) (next : Bool),
    let x := s.cell c
    let n := w + 72 - x.rd (pf p Port.EQ_EQ)
    p < 2 → s.windowAt c m next = some w → x.sends p w = true →
    (if x.st = 5 then x.glim.woken = true ∧ 0 < x.glim.windows else x.flt.class0 = true ∧ x.flt.class0At + 160 ≤ n) →
    Does (.alertMarkerLaunch c m next) s fun t => (t.port c p).sent = some (n, .marker) ∧ (t.port c p).sentN = (x.port p).sentN + 1
      ∧ (t.cell c).glim.windows = (if x.st = 5 then x.glim.windows - 1 else x.glim.windows) ∧ (t.cell c).flt = x.flt
      ∧ (t.cell c).sw = x.sw ∧ SameCells c [] s t ∧ UnitKept s t ∧ SameCellMem s t)

/-- Silence (R94, R370, R408, R522), each declared 40 ns after its deadline: without an accepted frame for ORPHAN_TX the transmitters go off; in Glimmer 3 ms without the owner's Beacon leave the cell without
an owner; a module's fault flag is the loss of its port. -/
def Sys2Proof.Claims.CellSilence : Prop :=
  (∀ (s : State) (c n : Nat),
    let x := s.cell c
    let due := n + 4000000 * x.rd Els.AUTH_CFG_ORPHAN_TX + 160
    x.time.lastRx = some n → x.runs = true → x.time.clock ≤ due → Does (.orphanTx c) s fun t => (t.cell c).txOff = true ∧ (t.cell c).reports = false
      ∧ (t.cell c).time.clock = due ∧ (t.cell c).sw = x.sw ∧ SameCells c [] s t ∧ UnitKept s t ∧ SameCellMem s t)
  ∧ (∀ (s : State) (c : Nat),
    let x := s.cell c
    x.st = 5 → x.owner < 2 → x.runs = true → x.time.clock ≤ x.glim.ownerAt + 12000160 → Does (.glimmerOwnerLoss c) s fun t => (t.cell c).owner = 2
      ∧ (t.cell c).time.clock = x.glim.ownerAt + 12000160 ∧ (t.cell c).sw = x.sw
      ∧ SameCells c [Els.AUTH_STAT_OWNER, Els.AUTH_STAT_EPOCH, Els.MRAM_LOG_HEAD] s t ∧ UnitKept s t ∧ OtherCellMem c s t)
  ∧ (∀ (s : State) (c p : Nat) (fault : Bool),
    let x := s.cell c
    x.up = true → p < 2 → Does (.portModuleFault c p fault) s fun t => (t.port c p).modFault = fault ∧ (t.port c p).missN = (x.port p).missN
      ∧ t.activeFor (.cell c) { src := Src.PORT_A_LOSS + p } = (fault || decide (x.rd Els.FLT_CFG_PORT_N ≤ (x.port p).missN))
      ∧ (t.cell c).sw = x.sw ∧ SameCells c [] s t ∧ UnitKept s t ∧ SameCellMem s t)

/-- What an Elsum sends, and when it is silent. -/
def Obligations.CellTransmission : Prop := Claims.CellReports ∧ Claims.CellSilence

/-! ### The converters of an Elsum (R311 to R332, R408) -/

namespace Sys2Proof.Claims
/-- The register fields a result of the primary converter can change where no calibration ends. -/
def cvFields : List Fld := [Els.CV_RES_CODE, Els.CV_RES_VALID, Els.CV_RES_TAG, Els.CV_RES_SEQ, Els.CV_STAT_RANGE_CNT, Els.CV_STAT_OVR]
/-- The fields of the epoch sample, which a result that completes at an epoch the cell has come to enters (R316). -/
def epochSample (x : CellSt) : List Fld :=
  if x.cv.doneAt < x.time.epochAt then [Els.CV_EPOCH_CODE, Els.CV_EPOCH_VALID, Els.CV_EPOCH_TAG, Els.CV_EPOCH_SEQ] else []
/-- Those of the auxiliary converter. -/
def auxFields : List Fld := [Els.AUX_RES_CODE, Els.AUX_RES_VALID, Els.AUX_RES_URG, Els.AUX_RES_CHAN, Els.AUX_RES_OVR, Els.AUX_RES_SEQ, Els.AUX_STAT_OVR]
/-- A sample of Glimmer inside its window (R408). -/
def Inside (x : CellSt) (p : Nat × Bool) : Prop :=
  (x.codeOf p.1 p.2).2 = false ∧ x.rd Els.GLIM_CFG_LO ≤ (x.codeOf p.1 p.2).1 ∧ (x.codeOf p.1 p.2).1 ≤ x.rd Els.GLIM_CFG_HI
end Sys2Proof.Claims

/-- Results of the primary converter (R311 to R319, R322, R323): CV_RES takes the corrected code, VALID where the tag is 0, and the next SEQ; an unread result under
a hold of the filter sets OVR; one at an epoch the cell has come to enters that epoch's sample; the last result of a calibration's gain phase stores the new correction or counts a rejection; no result for two intervals, or
limits left, is CV_FAULT. -/
def Sys2Proof.Claims.PrimaryResults : Prop :=
  (∀ (s : State) (c late raw : Nat) (ovl bad : Bool),
    let x := s.cell c
    let r := x.codeOf raw ovl
    let tag := x.cvTag r.2 bad
    let At (t : State) : Prop := t.crd c Els.CV_RES_CODE = r.1 % 2 ^ 18 ∧ (t.cell c).on Els.CV_RES_VALID = decide (tag = 0) ∧ t.crd c Els.CV_RES_TAG = tag % 8
      ∧ t.crd c Els.CV_RES_SEQ = (x.rd Els.CV_RES_SEQ + 1) % 256 ∧ (t.cell c).cv.doneAt = x.cvNext
      ∧ (t.cell c).time.clock = max x.time.clock (x.cvNext + late % 200) ∧ (t.cell c).sw = x.sw ∧ CellOnly c s t
    x.runs = true → x.st ≠ 5 →
    (x.cv.cal = none → Does (.cvResult c late raw ovl bad) s fun t => At t ∧ (t.cell c).cv.cal = none
      ∧ (bad = true → t.active (.cell c) Src.CV_FAULT = true)
      ∧ ((x.on Els.CV_FILT_HOLD && x.maint) = false → (t.cell c).cv.ring = ((r.1, tag) :: x.cv.ring).take 8 ∧ t.crd c Els.CV_STAT_OVR = x.rd Els.CV_STAT_OVR)
      ∧ (x.on Els.CV_FILT_HOLD = true → x.maint = true → (t.cell c).cv.ring = x.cv.ring ∧ (x.cv.unread = true → (t.cell c).on Els.CV_STAT_OVR = true))
      ∧ (x.cv.doneAt < x.time.epochAt → (x.on Els.CV_FILT_HOLD && x.maint) = false → t.crd c Els.CV_EPOCH_SEQ = (x.rd Els.CV_RES_SEQ + 1) % 256)
      ∧ SameCells c (cvFields ++ epochSample x) s t ∧ SameCellMem s t)
    ∧ (∀ k, x.cv.cal = some k → k.phase = 4 → k.n + 1 = 2 ^ x.rd Els.CV_CAL_NAVG → k.start < x.cvNext →
        let res := calResult k.z (k.f + x.raw raw) (2 ^ x.rd Els.CV_CAL_NAVG) (x.rd Els.CV_CAL_OLIM) (x.rd Els.CV_CAL_GLIM)
        (∀ z g, res = some (z, g) → Does (.cvResult c late raw ovl bad) s fun t => At t ∧ t.crd c Els.CV_CAL_OFS_OFS = z % 2 ^ 18 ∧ t.crd c Els.CV_CAL_GAIN_GAIN = g % 2 ^ 24
          ∧ t.crd c Els.CV_STAT_CAL_DONE = satInc 16 (x.rd Els.CV_STAT_CAL_DONE) % 2 ^ 16
          ∧ SameCells c (Els.CV_CAL_OFS_OFS :: Els.CV_CAL_GAIN_GAIN :: Els.CV_STAT_CAL_DONE :: Els.GEN_STAT_CAL_ACTIVE :: cvFields ++ epochSample x) s t ∧ OtherCellMem c s t)
        ∧ (res = none → Does (.cvResult c late raw ovl bad) s fun t => At t ∧ t.crd c Els.CV_STAT_CAL_FAIL = satInc 16 (x.rd Els.CV_STAT_CAL_FAIL) % 2 ^ 16
          ∧ Raised t (.cell c) Src.CV_CAL_FAIL ∧ SameCells c (Els.CV_STAT_CAL_FAIL :: Els.GEN_STAT_CAL_ACTIVE :: cvFields ++ epochSample x) s t ∧ SameCellMem s t)))
  ∧ (∀ (s : State) (c : Nat) (limits : Bool),
    let x := s.cell c
    let due := x.cv.doneAt + 2 * x.cvStep
    x.runs = true → x.st ≠ 5 → limits = true ∨ x.time.clock ≤ due → Does (.cvFaultTimeout c limits) s fun t => t.active (.cell c) Src.CV_FAULT = true
      ∧ t.crd c Els.CV_RES_TAG = 5 ∧ (t.cell c).on Els.CV_RES_VALID = false ∧ (t.cell c).time.clock = (if limits = true then x.time.clock else due)
      ∧ SameCells c [Els.CV_RES_TAG, Els.CV_RES_VALID] s t ∧ UnitKept s t ∧ SameCellMem s t)

/-- The auxiliary converter (R326 to R331): a conversion's result goes to AUX_RES and, where the sequencer reads it, to its entry of the table; a trigger starts a
scan from its lowest channel, waits one deep, or is lost; a trigger in the tick in which the scan ends counts as after it; an urgent event aborts a scan's conversion and
takes the next one, unless that conversion completes in the tick; of two of one tick the lower goes first. -/
def Sys2Proof.Claims.AuxiliaryConverter : Prop :=
  (∀ (s : State) (c code ch n : Nat) (urg ok : Bool),
    let x := s.cell c
    x.aux.run = some (ch, urg, n) → x.aux.dueAt = none → x.aux.after = false → x.runs = true → x.time.clock ≤ n + 4000 → Does (.auxConversionComplete c code ok) s fun t =>
      t.crd c Els.AUX_RES_CODE = code % 4096 ∧ (t.cell c).on Els.AUX_RES_VALID = ok ∧ (t.cell c).on Els.AUX_RES_URG = urg ∧ t.crd c Els.AUX_RES_CHAN = ch % 32
        ∧ (t.cell c).on Els.AUX_RES_OVR = x.aux.unread ∧ t.crd c Els.AUX_RES_SEQ = (x.rd Els.AUX_RES_SEQ + 1) % 4096 ∧ (t.cell c).time.clock = n + 4000
        ∧ (x.seqReads = false → (t.cell c).aux.unread = true ∧ SameCellMem s t)
        ∧ (x.seqReads = true → (t.cell c).aux.unread = false
            ∧ t.cval c (0xE000 + 8 * (ch % 32)) 2 = code % 4096 + 4096 * b2n ok + 8192 * b2n x.aux.unread)
        ∧ SameCells c auxFields s t ∧ UnitKept s t ∧ OtherCellMem c s t)
  ∧ (∀ (s : State) (c : Nat),
    let x := s.cell c
    x.rd Els.AUX_SCAN_TRIG = 0 →
    (∀ ch rest, x.aux.scan = false → x.aux.run = none → x.aux.urg = [] → x.aux.back = none → scanOf (x.rd Els.AUX_SCAN_MASK) = ch :: rest →
      Does (.auxTrigGo c) s fun t => (t.cell c).aux.run = some (ch, false, x.time.clock) ∧ (t.cell c).aux.left = rest ∧ (t.cell c).aux.scan = true
        ∧ SameCells c [] s t ∧ UnitKept s t ∧ SameCellMem s t)
    ∧ (x.aux.scan = true → x.aux.pend = false → x.aux.endsIn (x.time.clock / 8) = false → Does (.auxTrigGo c) s fun t => (t.cell c).aux = { x.aux with pend := true }
        ∧ SameCells c [] s t ∧ UnitKept s t ∧ SameCellMem s t)
    ∧ (x.aux.scan = true → x.aux.pend = true → x.aux.endsIn (x.time.clock / 8) = false → Does (.auxTrigGo c) s fun t => (t.cell c).on Els.AUX_STAT_TRIG_LOST = true ∧ (t.cell c).aux = x.aux
        ∧ SameCells c [Els.AUX_STAT_TRIG_LOST] s t ∧ UnitKept s t ∧ SameCellMem s t)
    ∧ (x.aux.scan = true → x.aux.endsIn (x.time.clock / 8) = true → x.aux.after = false → Does (.auxTrigGo c) s fun t => (t.cell c).aux = { x.aux with after := true }
        ∧ SameCells c [] s t ∧ UnitKept s t ∧ SameCellMem s t))
  ∧ (∀ (s : State) (c ch : Nat) (rest : List Nat),
    let x := s.cell c
    let due := max x.time.clock (x.aux.timerAt + 4000 * x.rd Els.AUX_SCAN_INT)
    x.rd Els.AUX_SCAN_TRIG = 2 → x.runs = true → x.aux.scan = false → x.aux.run = none → x.aux.urg = [] → x.aux.back = none →
      scanOf (x.rd Els.AUX_SCAN_MASK) = ch :: rest → Does (.auxScanTimer c) s fun t => (t.cell c).aux.timerAt = due ∧ (t.cell c).time.clock = due
        ∧ (t.cell c).aux.run = some (ch, false, due) ∧ (t.cell c).aux.left = rest ∧ SameCells c [] s t ∧ UnitKept s t ∧ SameCellMem s t)
  ∧ (∀ (s : State) (c e : Nat),
    let x := s.cell c
    let now := x.time.clock
    x.up = true → e < 3 → (x.rd Els.AUX_URG_SRC).testBit e = true → (x.aux.urg.any fun p => p.1 == e) = false → x.aux.dueAt = none → Does (.auxUrgentRequest c e) s fun t =>
      (∀ ch n, x.aux.run = some (ch, false, n) → now / 8 < (n + 4000) / 8 → (t.cell c).aux.run = some (x.urgCh e, true, now + 8) ∧ (t.cell c).aux.back = some ch
          ∧ t.crd c Els.AUX_STAT_ABORTS = satInc 16 (x.rd Els.AUX_STAT_ABORTS) % 2 ^ 16)
      ∧ (∀ ch n, x.aux.run = some (ch, false, n) → (n + 4000) / 8 ≤ now / 8 → (t.cell c).aux = { x.aux with urg := insertUrg e (now / 8) x.aux.urg })
      ∧ (∀ ch n f j, x.aux.run = some (ch, true, n) → x.aux.urgRun = some (f, j) → j ≠ now / 8 → (t.cell c).aux = { x.aux with urg := insertUrg e (now / 8) x.aux.urg })
      ∧ (∀ ch n f, x.aux.run = some (ch, true, n) → x.aux.urgRun = some (f, now / 8) → e < f → (t.cell c).aux.run = some (x.urgCh e, true, n)
          ∧ (t.cell c).aux.urg = insertUrg f (now / 8) x.aux.urg)
      ∧ (x.aux.run = none → (t.cell c).aux.run = some (x.urgCh e, true, now) ∧ (t.cell c).aux.urg = x.aux.urg)
      ∧ SameCells c [Els.AUX_STAT_ABORTS] s t ∧ UnitKept s t ∧ SameCellMem s t)
  ∧ (∀ (s : State) (c : Nat),
    let x := s.cell c
    let a := 0xE000 + 8 * x.rd Els.AUX_RES_CHAN
    x.aux.unread = true → x.rd Els.AUX_RES_CHAN < 32 →
    (x.seqReads = true → Does (.auxResRead c) s fun t => (t.cell c).aux.unread = false ∧ t.cval c a 2 = (x.rd Els.AUX_RES_CODE + 4096 * x.rd Els.AUX_RES_VALID
        + 8192 * x.rd Els.AUX_RES_OVR) % 65536 ∧ SameCells c [] s t ∧ UnitKept s t ∧ OtherCellMem c s t)
    ∧ (x.seqReads = false → x.on Els.AUX_CFG_DIRECT = true → Does (.auxResRead c) s fun t => (t.cell c).aux = { x.aux with unread := false }
        ∧ SameCells c [] s t ∧ UnitKept s t ∧ SameCellMem s t))

/-- The samples of a cell in Glimmer (R408): 8 results; all inside the window leave it asleep, and the first one outside wakes it and stands in GLIM_STAT. -/
def Sys2Proof.Claims.GlimmerSamples : Prop :=
  ∀ (s : State) (c : Nat) (l : List (Nat × Bool)),
    let x := s.cell c
    let At (t : State) : Prop := (t.cell c).glim.nextAt = x.glim.nextAt + 4000000 * x.rd Els.GLIM_CFG_INT
      ∧ (t.cell c).time.clock = max x.time.clock (x.glim.nextAt + 11 * x.cvStep) ∧ (t.cell c).sw = x.sw ∧ CellOnly c s t ∧ SameCellMem s t
    let four := [Els.CV_RES_CODE, Els.CV_RES_VALID, Els.CV_RES_TAG, Els.CV_RES_SEQ]
    x.st = 5 → x.runs = true →
    ((∀ p ∈ l.take 8, Inside x p) → Does (.glimmerCellSample c l) s fun t => At t ∧ (t.cell c).glim.woken = x.glim.woken ∧ SameCells c four s t)
    ∧ (∀ a p b, l.take 8 = a ++ p :: b → (∀ q ∈ a, Inside x q) → ¬ Inside x p → Does (.glimmerCellSample c l) s fun t => At t ∧ (t.cell c).glim.woken = true
        ∧ t.crd c Els.GLIM_STAT_CODE = (x.codeOf p.1 p.2).1 % 2 ^ 18 ∧ t.crd c Els.GLIM_STAT_TAG = (if (x.codeOf p.1 p.2).2 = true then 3 else 0)
        ∧ SameCells c (Els.GLIM_STAT_CODE :: Els.GLIM_STAT_TAG :: four) s t)

/-- The converters of an Elsum: primary results, the auxiliary converter, and the samples of Glimmer. -/
def Obligations.CellConversions : Prop := Claims.PrimaryResults ∧ Claims.AuxiliaryConverter ∧ Claims.GlimmerSamples

/-! ### Management of an Elsum (R126, R367, R484, R505 to R512) -/

namespace Sys2Proof.Claims
/-- The reply of an addressed transaction stands at the port; a broadcast one ends without a reply (R126). -/
def Answered (c p : Nat) (ad : Bool) (r : Reply) (s t : State) : Prop :=
  if ad = true then (t.port c p).reply = some r else (t.port c p).bdone = (s.port c p).bdone.drop 1
end Sys2Proof.Claims

/-- Transactions on registers and memory (R505, R508, R509, R511): 1 to 10 operations run in order, and each answers its status and word; an unassigned address, or a
write by a port that is not the owner's, refuses the whole and changes nothing; of two ports' accesses the earlier one comes first, in one tick port A's; a read of a listed region returns its bytes, the security block as 0; a write goes
to the patch window and to its staging area. -/
def Sys2Proof.Claims.ManagementAccess : Prop :=
  (∀ (s : State) (c p : Nat) (ad : Bool) (tx : OpenTx) (l : List RegOp),
    let x := s.cell c
    p < 2 → x.request p 1 = some (ad, tx) → x.portFirst (1 - p) = false → x.runs = true → opsOf 11 0 tx.payload = .ok l → l ≠ [] → l.length ≤ 10 →
    (accessError (x.fromOwner p) l = none → Does (.mgmtRegisterAccess c p) s fun t => Answered c p ad { bytes := (s.cellOps c l).2 } s t
      ∧ (t.cell c).regs = ((s.cellOps c l).1.cell c).regs ∧ CellOnly c s t ∧ OtherCellMem c s t)
    ∧ (∀ o, l = [o] → accessError (x.fromOwner p) l = none → o.write = false → elsMulti o.addr = none → o.addr ≠ 0x42C → Does (.mgmtRegisterAccess c p) s fun t =>
        Answered c p ad { bytes := leBytes 1 0 ++ leBytes 4 (x.word o.addr) } s t ∧ (t.cell c).sw = x.sw ∧ SameCells c [] s t ∧ UnitKept s t ∧ SameCellMem s t)
    ∧ (∀ o f, l = [o] → accessError (x.fromOwner p) l = none → o.write = true → elsFields o.addr = [f] → (f.acc = .ro ∨ f.acc = .rwc) → elsMulti o.addr = none →
        Does (.mgmtRegisterAccess c p) s fun t => t.crd c f = x.rd f % 2 ^ f.width ∧ SameCells c [f] s t ∧ UnitKept s t)
    ∧ (∀ e, accessError (x.fromOwner p) l = some e → Does (.mgmtRegisterAccess c p) s fun t => Answered c p ad (errReply e.1 e.2) s t
        ∧ (t.cell c).sw = x.sw ∧ (t.cell c).staged = x.staged ∧ SameCells c [] s t ∧ UnitKept s t ∧ SameCellMem s t))
  ∧ (∀ (s : State) (c : Nat) (r0 r1 : Bool × OpenTx),
    let x := s.cell c
    x.request 0 1 = some r0 → x.request 1 1 = some r1 →
    (r0.2.doneAt / 8 ≤ r1.2.doneAt / 8 → exec (.mgmtRegisterAccess c 1) s = .next ((s.mgmtAccess c 0).mgmtAccess c 1)
        ∧ exec (.mgmtRegisterAccess c 0) s = .next (s.mgmtAccess c 0))
    ∧ (r1.2.doneAt / 8 < r0.2.doneAt / 8 → exec (.mgmtRegisterAccess c 0) s = .next ((s.mgmtAccess c 1).mgmtAccess c 0)
        ∧ exec (.mgmtRegisterAccess c 1) s = .next (s.mgmtAccess c 1)))
  ∧ (∀ (s : State) (c p : Nat) (ad : Bool) (tx : OpenTx),
    let x := s.cell c
    let a := leAt tx.payload 0 4
    let n := leAt tx.payload 4 2
    p < 2 → x.request p 3 = some (ad, tx) → x.runs = true → 0 < n → n ≤ 1024 → 6 ≤ tx.payload.length →
    Does (.mgmtMemoryRead c p) s fun t => Answered c p ad (if memListed a n = true then { bytes := s.cellBytes c a n } else errReply 3 a) s t
      ∧ (t.cell c).sw = x.sw ∧ SameCells c [] s t ∧ UnitKept s t ∧ SameCellMem s t)
  ∧ (∀ (s : State) (c p : Nat) (ad : Bool) (tx : OpenTx),
    let x := s.cell c
    let a := leAt tx.payload 0 4
    let n := leAt tx.payload 4 2
    p < 2 → x.request p 2 = some (ad, tx) → x.runs = true → 0 < n → n ≤ 1024 → tx.payload.length = 8 + n →
    (x.fromOwner p = true → 0x80000 ≤ a → a + n ≤ 0xE0000 → Does (.mgmtMemoryWrite c p) s fun t => Answered c p ad {} s t ∧ t.cellRead c a n = tx.payload.drop 8
      ∧ t.cellRead c (cMram + 0x60000 + (a - 0x80000)) n = tx.payload.drop 8
      ∧ (∀ b, b < cellKey c a ∨ cellKey c a + n ≤ b → b < cellKey c (cMram + 0x60000 + (a - 0x80000)) ∨ cellKey c (cMram + 0x60000 + (a - 0x80000)) + n ≤ b →
          memGet t.cellMem b = memGet s.cellMem b)
      ∧ (t.cell c).sw = x.sw ∧ SameCells c [] s t ∧ UnitKept s t)
    ∧ (x.fromOwner p = false → Does (.mgmtMemoryWrite c p) s fun t => Answered c p ad (errReply 4 a) s t ∧ SameCells c [] s t ∧ UnitKept s t ∧ SameCellMem s t)
    ∧ (x.fromOwner p = true → a < 0x80000 ∨ 0xE0000 < a + n → Does (.mgmtMemoryWrite c p) s fun t => Answered c p ad (errReply 5 0x11) s t
        ∧ SameCells c [] s t ∧ UnitKept s t ∧ SameCellMem s t))

/-- Parameter sets and JTAG (R253, R291, R367, R429, R510, R512): a set that passes is staged whole under its identifier and answers its CRC, one refused raises
PARAM_REFUSED and stages nothing; the query answers the CRC of the set staged under the identifier it names; JTAG reaches a register in Maintenance only, on an
unlocked part. -/
def Sys2Proof.Claims.ManagementSets : Prop :=
  (∀ (s : State) (c p : Nat) (ad : Bool) (tx : OpenTx) (es : List SetEntry),
    let x := s.cell c
    let l := tx.payload
    let n := leAt l 6 2
    p < 2 → x.request p 4 = some (ad, tx) → x.runs = true → 0 < n → n ≤ 40 → l.length = 8 + 12 * n → setEntries n (l.drop 8) = some es →
    (∀ e ∈ es, entryAddrOk e = true) →
    (x.fromOwner p = true → s.setRefusal c es = none → Does (.mgmtParameterSet c p) s fun t => Answered c p ad { bytes := leBytes 4 (crc32 l) } s t
      ∧ (t.cell c).staged = some { id := leAt l 0 2 % 4096, epoch := leAt l 2 4, entries := es } ∧ (t.cell c).sw = x.sw ∧ SameCells c [] s t ∧ UnitKept s t ∧ SameCellMem s t)
    ∧ (∀ r, x.fromOwner p = true → s.setRefusal c es = some r → Does (.mgmtParameterSet c p) s fun t => Answered c p ad (errReply 5 r) s t
      ∧ (t.cell c).staged = x.staged ∧ Raised t (.cell c) Src.PARAM_REFUSED ∧ SameCells c [] s t ∧ UnitKept s t ∧ SameCellMem s t)
    ∧ (∀ e es', es = e :: es' → x.fromOwner p = false → Does (.mgmtParameterSet c p) s fun t => Answered c p ad (errReply 4 e.addr.toNat) s t
      ∧ (t.cell c).staged = x.staged ∧ SameCells c [] s t ∧ UnitKept s t ∧ SameCellMem s t))
  ∧ (∀ (s : State) (c p : Nat) (ad : Bool) (tx : OpenTx),
    let x := s.cell c
    let id := leAt tx.payload 0 2
    p < 2 → x.request p 5 = some (ad, tx) → x.runs = true → tx.payload.length = 2 → Does (.mgmtCrcQuery c p) s fun t =>
      (∀ k, x.staged = some k → k.id = id → Answered c p ad { bytes := leBytes 4 (setCrc k.id k.epoch k.entries) } s t)
        ∧ (x.staged = none ∨ (∃ k, x.staged = some k ∧ k.id ≠ id) → Answered c p ad (errReply 6 id) s t)
        ∧ (t.cell c).staged = x.staged ∧ SameCells c [] s t ∧ UnitKept s t ∧ SameCellMem s t)
  ∧ (∀ (s : State) (c a len : Nat) (data : W32) (write : Bool),
    let x := s.cell c
    x.on Els.SEC_STAT_UNLOCKED = true → x.request 0 1 = none → x.request 1 1 = none →
    (x.maint = true → elsAssigned a = true → a % 4 = 0 → elsMulti a = none → a ≠ 0x42C → Does (.jtagCellReg c false a data len) s fun t =>
      (t.cell c).jtag = some (BitVec.ofNat 32 (x.word a), false) ∧ (t.cell c).sw = x.sw ∧ SameCells c [] s t ∧ UnitKept s t ∧ SameCellMem s t)
    ∧ (∀ f, x.maint = true → elsAssigned a = true → a % 4 = 0 → elsMulti a = none → elsFields a = [f] → f.acc = .rw → a < 0x600 → a ≠ 0x43C →
        Does (.jtagCellReg c true a data len) s fun t => t.crd c f = f.put a 0xFFFFFFFF data.toNat (x.rd f) % 2 ^ f.width
          ∧ (t.cell c).jtag = some (BitVec.ofNat 32 (t.cellShows c a), false) ∧ SameCells c [f] s t ∧ UnitKept s t ∧ SameCellMem s t)
    ∧ (x.maint = false → Does (.jtagCellReg c write a data len) s fun t => (t.cell c).jtag = some (0, true) ∧ (t.cell c).sw = x.sw
        ∧ SameCells c [] s t ∧ UnitKept s t ∧ SameCellMem s t))

/-- The management channel of an Elsum: registers, memory, parameter sets, JTAG. -/
def Obligations.CellManagement : Prop := Claims.ManagementAccess ∧ Claims.ManagementSets

/-! ### Reception at an Elsum (R72 to R74, R100 to R105, R126, R256, R257, R364 to R367, R389, R408, R444) -/

namespace Sys2Proof.Claims
/-- Port `p` of cell `c` takes a frame of a kind: the cell runs, the frame is whole and of that kind, its tag verifies, its tree is the port's, and it is new (R104). -/
def Takes (s : State) (c p kind : Nat) (f : DownFrame) : Prop :=
  p < 2 ∧ (s.cell c).runs = true ∧ f.hdr.kind.toNat = kind ∧ f.aborted = false ∧ (s.port c p).verifies f = true ∧ (s.cell c).treeOk p f.hdr = true
    ∧ ((s.port c p).inUse f).fresh f.hdr = true
/-- The register fields that the use of a frame's time can change. -/
def timeFields : List Fld := [Els.CELL_TIME_E_E]
/-- A frame that is aborted or not of kind `kind`, whose tag fails, or that R104 refuses otherwise, is counted and nothing else comes of it but the time that passes. -/
def Rejects (kind : Nat) (cmd : Nat → Nat → Nat → Nat → DownFrame → Instr) : Prop :=
  ∀ (s : State) (c p q v : Nat) (f : DownFrame), p < 2 → (s.cell c).runs = true →
    let Other (t : State) : Prop := t.crd c (pf p Port.PORT_STAT_REJ_OTHER) = satInc 16 (s.crd c (pf p Port.PORT_STAT_REJ_OTHER)) % 2 ^ 16
      ∧ (∀ p', t.port c p' = s.port c p') ∧ (t.cell c).sw = (s.cell c).sw ∧ t.colls = s.colls ∧ SameCells c [pf p Port.PORT_STAT_REJ_OTHER] s t ∧ UnitKept s t
      ∧ SameCellMem s t
    (f.hdr.kind.toNat ≠ kind ∨ f.aborted = true → Does (cmd c p q v f) s Other)
    ∧ (f.hdr.kind.toNat = kind → f.aborted = false → (s.port c p).verifies f = false → Does (cmd c p q v f) s fun t => Raised t (.cell c) Src.BEACON_TAG
      ∧ t.crd c (pf p Port.PORT_STAT_REJ_TAG) = satInc 16 (s.crd c (pf p Port.PORT_STAT_REJ_TAG)) % 2 ^ 16
      ∧ (∀ p', t.port c p' = s.port c p') ∧ (t.cell c).sw = (s.cell c).sw ∧ SameCells c [pf p Port.PORT_STAT_REJ_TAG] s t ∧ UnitKept s t ∧ SameCellMem s t)
    ∧ (f.hdr.kind.toNat = kind → f.aborted = false → (s.port c p).verifies f = true → (s.cell c).treeOk p f.hdr = false ∨ ((s.port c p).inUse f).fresh f.hdr = false →
      Does (cmd c p q v f) s Other)
end Sys2Proof.Claims

/-- A frame that fails its tag is counted in REJ_TAG and raises BEACON_TAG, one that fails another test of R104 is counted in REJ_OTHER; the port, the command in
force and every pending record stay as they were (R104, R339). -/
def Sys2Proof.Claims.FramesRejected : Prop :=
  Rejects 1 .periodBeaconAccept ∧ Rejects 2 .blockBeaconAccept ∧ Rejects 3 .enumerationBeaconAccept ∧ Rejects 4 .glimmerBeaconAccept
    ∧ Rejects 5 .managementFrameAccept

/-- Frames taken (R101 to R105, R126, R254, R257, R364 to R367, R389, R408, R445): a period Beacon leaves its header and this slot's record for the deadline, and no gate
changes; a block Beacon of the owner turns every position off at once and voids what is pending; an enumeration Beacon takes a cell from Reset to Enumerate and
leaves its request; a Glimmer Beacon of the owner keeps the cell in Glimmer, and opens the windows of a woken one, or takes it there; a management frame is noted
with its PN and SEQ, and its segment taken in order. -/
def Sys2Proof.Claims.FramesTaken : Prop :=
  ∀ (s : State) (c p q v : Nat) (f : DownFrame),
    let x := s.cell c
    let h := f.hdr
    (Takes s c p 1 f → Does (.periodBeaconAccept c p q v f) s fun t =>
      (∃ late void, (t.port c p).beacon = some ⟨h, f.recs.getD (x.rd (pf p Port.PORT_ID_SLOT)) ⟨0, false, 0, 0⟩, late, void⟩
          ∧ (x.sw.blockTick = none → void = false))
        ∧ (t.port c p).lastPn = some h.pn.toNat ∧ (t.port c p).heard = true ∧ (∀ g, (t.cell c).gate g = x.gate g) ∧ (t.cell c).sw.cmd = x.sw.cmd
        ∧ (t.cell c).st = x.st ∧ (x.owner ≠ p → (t.cell c).sw = x.sw ∧ (t.cell c).staged = x.staged)
        ∧ SameCells c (Els.PWM_STAT_CMD_LATE :: Els.GEN_STAT_TIME_FROZEN :: Els.AUTH_STAT_EPOCH :: timeFields) s t ∧ UnitKept s t ∧ SameCellMem s t)
    ∧ (Takes s c p 2 f → Does (.blockBeaconAccept c p q v f) s fun t => (t.port c p).lastBlock = some (h.pn.toNat, h.seq.toNat)
      ∧ (x.ownerOrNone p = true → (∀ g, g < 4 → (t.cell c).gate g = false) ∧ (t.cell c).sw.blocked = true ∧ (t.cell c).sw.cmd.cmd = 0 ∧ (t.cell c).sw.next = none
          ∧ (∀ b, (t.port c p).beacon = some b → b.void = true))
      ∧ (x.ownerOrNone p = false → (t.cell c).sw = x.sw ∧ (t.port c p).beacon = (x.port p).beacon)
      ∧ (t.cell c).st = x.st ∧ SameCells c (Els.GEN_STAT_FALLBACK :: timeFields) s t ∧ UnitKept s t ∧ SameCellMem s t)
    ∧ (Takes s c p 3 f → Does (.enumerationBeaconAccept c p q v f) s fun t => (t.cell c).st = (if x.st = 0 then 1 else x.st)
      ∧ (∀ g, f.seg = some g → ∃ sof, (t.port c p).req = some (g, sof)) ∧ (f.seg = none → (t.port c p).req = none)
      ∧ (t.cell c).sw = x.sw ∧ SameCells c (Els.GEN_STAT_STATE :: timeFields) s t ∧ UnitKept s t ∧ SameCellMem s t)
    ∧ (Takes s c p 4 f → x.owner = p → h.mode = 4 → Does (.glimmerBeaconAccept c p q v f) s fun t => (t.cell c).st = 5
      ∧ (t.port c p).lastGlim = some h.timeNs.toNat ∧ (t.cell c).glim.gridAt = hdrQuarters h
      ∧ (x.st = 5 → (t.cell c).glim.woken = x.glim.woken ∧ (t.cell c).glim.windows = (if x.glim.woken = true then 8 else 0) ∧ (t.cell c).sw = x.sw)
      ∧ (x.st ≠ 5 → AllOff c t ∧ (t.cell c).glim.woken = false ∧ (t.cell c).glim.windows = 0)
      ∧ SameCells c (Els.GEN_STAT_STATE :: Els.FLT_STICKY0 :: Els.CV_STAT_CAL_ABANDON :: timeFields) s t ∧ UnitKept s t ∧ OtherCellMem c s t)
    ∧ (Takes s c p 5 f → Does (.managementFrameAccept c p q v f) s fun t => (t.port c p).lastMgmt = some (h.pn.toNat, h.seq.toNat)
      ∧ (∀ g, f.seg = some g → 120 < g.payload.length → t.port c p = { x.port p with lastMgmt := some (h.pn.toNat, h.seq.toNat) })
      ∧ (∀ g, f.seg = some g → g.payload.length ≤ 120 → g.bcast = false → g.kind ≠ 0 → (x.port p).keyed = true → x.on (pf p Port.PORT_ID_VALID) = true →
          g.slot.toNat = x.rd (pf p Port.PORT_ID_SLOT) → ∃ sof now, (t.port c p).tx = (segStep (x.port p).tx g sof now).1)
      ∧ (t.cell c).sw = x.sw ∧ SameCells c [] s t ∧ UnitKept s t ∧ SameCellMem s t)

/-- Frames at an Elsum: the ones it rejects and the ones it takes. -/
def Obligations.CellReception : Prop := Claims.FramesRejected ∧ Claims.FramesTaken

/-! ### Enumeration, ranging and key exchange at an Elsum (R116 to R121, R444 to R451, R466, R467) -/

/-- Discovery and assignment (R446 to R450): a FLUSH forgets the port; a cell without a slot whose hash gives the bucket answers with its SERIAL and stays silent
otherwise; an assignment that fits is taken, one on the wrong unit's tree or against the other port's index is refused and parks the cell; a PARK of its SERIAL
silences it. -/
def Sys2Proof.Claims.CellDiscovery : Prop :=
  (∀ (s : State) (c p sof : Nat) (g : Seg),
    let x := s.cell c
    let h := crc32 (leBytes 8 x.serial ++ leBytes 2 (leAt g.payload 2 2))
    p < 2 → (x.port p).req = some (g, sof) → g.kind = 7 → g.payload.head? = some 0 →
    ((leAt g.payload 1 1).testBit 0 = false → x.on (pf p Port.PORT_ID_VALID) = false → (x.port p).parked = false →
      h % max 1 (leAt g.payload 5 1) = leAt g.payload 4 1 → Does (.discReq c p) s fun t => ∃ d : DiscReply,
        (t.port c p).sent = some (replyAt sof (h / 256 % max 1 (leAt g.payload 6 1)), .discovery d) ∧ d.serial = BitVec.ofNat 64 x.serial
          ∧ d.round = BitVec.ofNat 16 (leAt g.payload 2 2) ∧ d.state = BitVec.ofNat 4 x.st ∧ (t.port c p).req = none
          ∧ (t.cell c).sw = x.sw ∧ SameCells c [] s t ∧ UnitKept s t ∧ SameCellMem s t)
    ∧ ((leAt g.payload 1 1).testBit 0 = false → h % max 1 (leAt g.payload 5 1) ≠ leAt g.payload 4 1 → Does (.discReq c p) s fun t =>
        (t.port c p).sent = (x.port p).sent ∧ (t.port c p).sentN = (x.port p).sentN ∧ (t.cell c).sw = x.sw ∧ SameCells c [] s t ∧ UnitKept s t ∧ SameCellMem s t)
    ∧ ((leAt g.payload 1 1).testBit 0 = true → Does (.discReq c p) s fun t => (t.cell c).on (pf p Port.PORT_ID_VALID) = false ∧ (t.port c p).keyed = false
        ∧ (t.port c p).parked = false ∧ (t.port c p).lastPn = none ∧ (t.port c p).idx = none ∧ (∀ p', p' < 2 → p' ≠ p → t.port c p' = s.port c p') ∧ (t.cell c).sw = x.sw
        ∧ SameCells c [pf p Port.PORT_ID_TREE_ID, pf p Port.PORT_ID_SLOT, pf p Port.PORT_ID_VALID, pf p Port.DS_DELAY_DELAY, pf p Port.EQ_EQ,
            if p = 0 then Els.SEC_STAT_KEYED_A else Els.SEC_STAT_KEYED_B] s t ∧ UnitKept s t ∧ SameCellMem s t))
  ∧ (∀ (s : State) (c p sof : Nat) (g : Seg),
    let x := s.cell c
    let tid := leAt g.payload 9 2
    let idx := leAt g.payload 11 2
    let other := (x.port (1 - p)).idx
    p < 2 → (x.port p).req = some (g, sof) → g.kind = 7 → g.payload.head? = some 1 → leAt g.payload 1 8 = x.serial → (x.port p).parked = false →
    (tid / 128 % 2 = p → other = none ∨ other = some idx → Does (.assign c p) s fun t => t.crd c (pf p Port.PORT_ID_TREE_ID) = tid
      ∧ t.crd c (pf p Port.PORT_ID_SLOT) = g.slot.toNat ∧ (t.cell c).on (pf p Port.PORT_ID_VALID) = true ∧ (t.port c p).idx = some idx
      ∧ (∃ r : Glint, (t.port c p).sent = some (replyAt sof 0, .report r) ∧ r.kind = 2 ∧ r.mgmt.typ = 2) ∧ (t.cell c).sw = x.sw
      ∧ SameCells c [pf p Port.PORT_ID_TREE_ID, pf p Port.PORT_ID_SLOT, pf p Port.PORT_ID_VALID] s t ∧ UnitKept s t ∧ SameCellMem s t)
    ∧ (tid / 128 % 2 ≠ p ∨ (∃ i, other = some i ∧ i ≠ idx) → Does (.assign c p) s fun t => (t.port c p).parked = true ∧ (t.port c p).idx = (x.port p).idx
      ∧ (∃ r : Glint, (t.port c p).sent = some (replyAt sof 0, .report r) ∧ r.mgmt.typ = 3
          ∧ r.mgmt.data = BitVec.ofNat 24 (5 * 65536 + if tid / 128 % 2 ≠ p then 4 else 3))
      ∧ (t.cell c).sw = x.sw ∧ SameCells c [] s t ∧ UnitKept s t ∧ SameCellMem s t))
  ∧ (∀ (s : State) (c p sof : Nat) (g : Seg), ((s.cell c).port p).req = some (g, sof) → g.kind = 7 → g.payload.head? = some 2 →
      leAt g.payload 1 8 = (s.cell c).serial → Does (.park c p) s fun t => (t.port c p).parked = true ∧ (t.port c p).req = none
        ∧ (t.cell c).sw = (s.cell c).sw ∧ SameCells c [] s t ∧ UnitKept s t ∧ SameCellMem s t)

/-- Ranging and re-range at an Elsum (R116, R117, R119 to R121): a request in an enumeration Beacon is answered at t_r + 4,000 ns with that turn-round, one of a
transaction in the next Glint; a hold message freezes the loop and reverses its recent corrections; a result waits for the epoch it names. -/
def Sys2Proof.Claims.CellRanging : Prop :=
  (∀ (s : State) (c p sof : Nat) (g : Seg),
    let x := s.cell c
    p < 2 → (x.port p).req = some (g, sof) → g.kind = 6 → x.mine p g = true →
    (g.payload = [] → Does (.rangingRequest c p) s fun t => (∃ r : Glint, (t.port c p).sent = some (sof + 16000, .report r) ∧ r.kind = 2 ∧ r.mgmt.data = 16000)
      ∧ (t.port c p).req = none ∧ (t.cell c).sw = x.sw ∧ SameCells c [] s t ∧ UnitKept s t ∧ SameCellMem s t)
    ∧ (∀ d, resultOf g.payload = some d → (x.port p).rerange = false → Does (.rerangeResultMessage c p) s fun t =>
        (t.port c p).newDelay = some (d.1, d.2.1, some d.2.2) ∧ (t.cell c).time.thawPn = some d.2.2
        ∧ (∃ r : Glint, (t.port c p).sent = some (sof + 16000, .report r) ∧ r.mgmt.typ = 2)
        ∧ (t.cell c).sw = x.sw ∧ SameCells c [] s t ∧ UnitKept s t ∧ SameCellMem s t))
  ∧ (∀ (s : State) (c p : Nat) (y : OpenTx), (s.port c p).req = none → (s.port c p).done 6 = some y → y.payload = [] → Does (.rangingRequest c p) s fun t =>
      (t.port c p).askedAt = some y.sof ∧ (t.cell c).sw = (s.cell c).sw ∧ SameCells c [] s t ∧ UnitKept s t ∧ SameCellMem s t)
  ∧ (∀ (s : State) (c p : Nat) (y : OpenTx), (s.port c p).done 9 = some y → y.payload.head? = some 0 → Does (.rerangeHoldMessage c p) s fun t =>
      (t.cell c).on Els.GEN_STAT_TIME_FROZEN = true ∧ (t.cell c).time.revertPn = some ((s.cell c).time.pn + 1) ∧ (t.port c p).reply = some {}
        ∧ (t.cell c).sw = (s.cell c).sw ∧ SameCells c [Els.GEN_STAT_TIME_FROZEN] s t ∧ UnitKept s t ∧ SameCellMem s t)
  ∧ (∀ (s : State) (c p : Nat) (y : OpenTx) (d : Nat × Nat × Nat), (s.port c p).req = none → (s.port c p).done 9 = some y → resultOf y.payload = some d →
      Does (.rerangeResultMessage c p) s fun t =>
        (t.port c p).newDelay = some (d.1, d.2.1, if (s.port c p).rerange = true then none else some d.2.2) ∧ (t.port c p).reply = some {}
        ∧ (t.cell c).sw = (s.cell c).sw ∧ SameCells c [] s t ∧ UnitKept s t ∧ SameCellMem s t)

/-- Key exchange at an Elsum (R466, R467): part 2 of an offer completes the checks in their order; a poll gets chunk 0x7E before the chunk is due and the result with
its chunk from then on; a good end puts the new key in place beside the one in use, and lays down the anchor of a part without one; otherwise nothing is
sent. -/
def Sys2Proof.Claims.CellKeyExchange : Prop :=
  ∀ (s : State) (c p sof : Nat) (g : Seg),
    let x := s.cell c
    let k := (x.port p).kx
    let Sends (chunk result : Nat) (t : State) : Prop := ∃ r : KxReply, (t.port c p).sent = some (sof + 16000, .keyExchange r) ∧ r.chunk = BitVec.ofNat 7 chunk
      ∧ r.result = BitVec.ofNat 8 result ∧ r.txn = g.txn
    p < 2 → (x.port p).req = some (g, sof) → g.kind = 8 → x.mine p g = true →
    (∀ hash endorsed signed same, g.payload.head? = some 0 → Does (.kxOffer c p hash endorsed signed same) s fun t => Sends (leAt g.payload 1 1) 0 t
      ∧ (leAt g.payload 1 1 = 2 → k.parts = [0, 1] → (t.port c p).kx.result = some (offerResult x.sec.anchor hash endorsed signed same)
          ∧ (t.port c p).kx.anchorNew = x.sec.anchor.isNone ∧ (t.port c p).kx.offerAt = sof)
      ∧ (t.cell c).sec = x.sec ∧ (t.cell c).sw = x.sw ∧ SameCells c [] s t ∧ UnitKept s t ∧ SameCellMem s t)
    ∧ (∀ ready, g.payload.head? = some 1 →
        let due := k.offerAt + 4000 * (if leAt g.payload 1 1 ≤ 3 then 150 else 200)
        Does (.kxPoll c p ready) s fun t => (k.result = none ∨ (ready = false ∧ sof < due) → Sends 0x7E 0 t)
          ∧ (∀ n, k.result = some n → ready = true ∨ due ≤ sof → Sends (leAt g.payload 1 1) n t)
          ∧ (t.cell c).sec = x.sec ∧ (t.cell c).sw = x.sw ∧ SameCells c [] s t ∧ UnitKept s t ∧ SameCellMem s t)
    ∧ (∀ key, g.payload.head? = some 2 → k.result = some 0 → x.sec.idk = true → Does (.kxDone c p key true true) s fun t => Sends 8 0 t
        ∧ (t.port c p).newKey = some key ∧ (t.port c p).lastPn = (x.port p).lastPn ∧ (t.port c p).key = (x.port p).key
        ∧ (t.cell c).on (if p = 0 then Els.SEC_STAT_KEYED_A else Els.SEC_STAT_KEYED_B) = true
        ∧ (k.anchorNew = true → (t.cell c).sec.anchor = some k.hash ∧ (t.cell c).on Els.SEC_STAT_ANCHOR_SET = true)
        ∧ (k.anchorNew = false → (t.cell c).sec = x.sec) ∧ (t.cell c).sw = x.sw
        ∧ SameCells c [Els.SEC_STAT_KEYED_A, Els.SEC_STAT_KEYED_B, Els.SEC_STAT_ANCHOR_SET] s t ∧ UnitKept s t ∧ SameCellMem s t)
    ∧ (∀ key opens confirmed, g.payload.head? = some 2 → opens = false ∨ confirmed = false → Does (.kxDone c p key opens confirmed) s fun t => t = s)

/-- How an Elsum joins a tree: discovery, ranging, key exchange. -/
def Obligations.CellJoining : Prop := Claims.CellDiscovery ∧ Claims.CellRanging ∧ Claims.CellKeyExchange

/-! ### Clauses (R423 to R431) -/

namespace Sys2Proof.Claims
/-- The event ring is not the completion ring of a command's ring. -/
def ApartRings (s : State) (c : HostCmd) : Prop := s.ringOfKind 4 ≠ some (s.rd (ringF c.ring Reg.RING_CFG_CPL))
/-- The register fields an end of an armed Clause can change. -/
def endFields : List Fld := [Reg.CLAUSE_STAT_ARMED, Reg.CLAUSE_STAT_CHECKED, Reg.CFLT_STAT_EV_LOST]
end Sys2Proof.Claims

/-- The commands of Clauses (R423 to R426, R428): staged items are appended; a check passes or names its first failure; a checked Clause is armed for an epoch that is
neither too early nor too late, under the next identifier, and in M1 to M4 takes effect at once; the staged one is discarded; the armed one abandoned before its commit
point. The items checked are the staged ones with the carrier interleave (log entry 93). -/
def Sys2Proof.Claims.ClauseCommands : Prop :=
  ∀ (s : State) (c : HostCmd), Starts c s →
    let old := match s.clause.staged with | some g => g.items | none => []
    (∀ l, s.mirror.handover = none → s.mirror.handoverIn = none → (∀ g, s.clause.staged = some g → g.checked = true → s.clause.armed = none) → Does (.clauseStage c (some l)) s fun t =>
      t.clause = { s.clause with staged := some { items := old ++ l } } ∧ t.on Reg.CLAUSE_STAT_STAGED = true ∧ t.on Reg.CLAUSE_STAT_CHECKED = false
        ∧ Completed c 0x10 Cpl.OK (old ++ l).length s t ∧ t.trees = s.trees ∧ UnitOnly [Reg.CLAUSE_STAT_STAGED, Reg.CLAUSE_STAT_CHECKED] s t)
    ∧ (∀ l, s.mirror.handover.isSome = true ∨ s.mirror.handoverIn.isSome = true ∨ (s.clause.armed.isSome = true ∧ ∃ g, s.clause.staged = some g ∧ g.checked = true) →
        Does (.clauseStage c (some l)) s fun t => t.clause = s.clause
        ∧ Completed c 0x10 Cpl.CLAUSE_BUSY 0 s t ∧ UnitOnly [] s t)
    ∧ (Does (.clauseStage c none) s fun t => t.clause = s.clause ∧ Completed c 0x10 Cpl.DMA_ERROR 0 s t ∧ UnitOnly [] s t)
    ∧ (∀ g, s.clause.staged = some g →
        let l := (s.start c.ring).withInterleave g.items
        (∀ code item, (s.start c.ring).checkFails l = some (code, item) → Does (.clauseCheck c) s fun t => t.clause = s.clause
          ∧ Completed c 0x11 Cpl.CLAUSE_FAILED 0 s t
          ∧ Posted (s.rd (ringF c.ring Reg.RING_CFG_CPL)) 0x11 s t (fun d => descField d 24 4 = (code + item % 65536 * 256) % 2 ^ 32) ∧ UnitOnly [] s t)
        ∧ ((s.start c.ring).checkFails l = none →
            let e := (((s.start c.ring).checkBase).preview l).earliest l
            Does (.clauseCheck c) s fun t =>
              t.clause.staged = some { g with items := l, checked := true, checkPn := s.pn, est := e, underArmed := s.clause.armed.isSome } ∧ t.on Reg.CLAUSE_STAT_CHECKED = true
                ∧ t.rd Reg.CLAUSE_STAT_EST = e % 2 ^ 64 ∧ Completed c 0x11 Cpl.OK e s t ∧ t.trees = s.trees
                ∧ UnitOnly [Reg.CLAUSE_STAT_CHECKED, Reg.CLAUSE_STAT_EST] s t))
    ∧ (s.clause.staged = none → Does (.clauseCheck c) s fun t => t.clause = s.clause ∧ Completed c 0x11 Cpl.BAD_COMMAND 0 s t ∧ UnitOnly [] s t)
    ∧ (Does (.clauseDiscard c) s fun t => t.clause = { s.clause with staged := none } ∧ t.on Reg.CLAUSE_STAT_STAGED = false ∧ t.on Reg.CLAUSE_STAT_CHECKED = false
        ∧ Completed c 0x13 Cpl.OK 0 s t ∧ t.trees = s.trees ∧ UnitOnly [Reg.CLAUSE_STAT_STAGED, Reg.CLAUSE_STAT_CHECKED] s t)
    ∧ (∀ g e, s.clause.staged = some g → g.checked = true → s.clause.armed = none → 5 ≤ s.modeNo →
        (s.epochBad g e = true → Does (.clauseArm c e) s fun t => t.clause = s.clause ∧ t.trees = s.trees ∧ Completed c 0x12 Cpl.CLAUSE_FAILED 0 s t ∧ UnitOnly [] s t)
        ∧ (s.epochBad g e = false → Does (.clauseArm c e) s fun t => ∃ a, t.clause.armed = some a ∧ a.items = g.items ∧ a.id = s.clause.nextId ∧ a.epoch = e ∧ a.armedAt = s.ns
            ∧ a.committed = false ∧ t.clause.staged = none ∧ t.clause.nextId = nextClause s.clause.nextId ∧ t.on Reg.CLAUSE_STAT_ARMED = true
            ∧ t.rd Reg.CLAUSE_STAT_ID = s.clause.nextId % 2 ^ 12 ∧ t.rd Reg.CLAUSE_STAT_EPOCH = e % 2 ^ 64 ∧ Completed c 0x12 Cpl.OK s.clause.nextId s t
            ∧ (s.namedCells g.items = [] → (∀ i ∈ g.items, isSet i = false) → (∀ r u, s.asymIn g.items r u = s.asym r u) → t.trees = s.trees)
            ∧ UnitOnly [Reg.CLAUSE_STAT_STAGED, Reg.CLAUSE_STAT_CHECKED, Reg.CLAUSE_STAT_ARMED, Reg.CLAUSE_STAT_ID, Reg.CLAUSE_STAT_EPOCH] s t))
    ∧ (∀ g e, s.clause.staged = some g → g.checked = true → s.clause.armed = none → s.modeNo < 5 →
        (e ≠ 0 → Does (.clauseArm c e) s fun t => t.clause = s.clause ∧ Completed c 0x12 Cpl.CLAUSE_FAILED 0 s t ∧ UnitOnly [] s t)
        ∧ (∀ r k, e = 0 → g.items = [.armEnable r k] → r < 8 → k < 4 → ApartRings s c → (∀ b, (s.armSt r k).blockAt = some b → b ≤ s.ns ∧ b / 8 ≠ s.collTick) →
            Does (.clauseArm c e) s fun t => t.armBlocked r k = false ∧ t.clause.staged = none ∧ t.clause.armed = none
              ∧ t.clause.nextId = nextClause s.clause.nextId ∧ Completed c 0x12 Cpl.OK s.clause.nextId s t ∧ t.cells = s.cells))
    ∧ (∀ e, s.clause.armed = none → (∀ g, s.clause.staged = some g → g.checked = false) → Does (.clauseArm c e) s fun t => t.clause = s.clause
        ∧ Completed c 0x12 Cpl.CLAUSE_FAILED 0 s t ∧ UnitOnly [] s t)
    ∧ (∀ e, s.clause.armed.isSome = true → Does (.clauseArm c e) s fun t => t.clause = s.clause ∧ Completed c 0x12 Cpl.CLAUSE_BUSY 0 s t ∧ UnitOnly [] s t)
    ∧ (∀ a id, s.clause.armed = some a → ApartRings s c →
        (a.id = id → a.committed = false → NoSplit s → Does (.clauseAbandon c id) s fun t => t.clause.armed = none ∧ t.clause.outcome = some ⟨a.id, false, 16⟩
          ∧ Raised t .chip Src.CLAUSE_ABANDON ∧ t.on Reg.CLAUSE_STAT_ARMED = false ∧ Completed c 0x14 Cpl.OK 0 s t ∧ t.trees = s.trees ∧ UnitOnly endFields s t)
        ∧ (a.id ≠ id ∨ a.committed = true → Does (.clauseAbandon c id) s fun t => t.clause = s.clause ∧ Completed c 0x14 Cpl.BAD_COMMAND 0 s t ∧ UnitOnly [] s t))
    ∧ (∀ id, s.clause.armed = none → Does (.clauseAbandon c id) s fun t => t.clause = s.clause ∧ Completed c 0x14 Cpl.BAD_COMMAND 0 s t ∧ UnitOnly [] s t)

/-- The commit point, the epoch and the end of a Clause (R428 to R430): at the class-1 deadline before its epoch an armed Clause has the outcome apply, which the next
16 Beacons carry, or is abandoned for the first reason that stands; at its epoch the items take effect; 16 epochs later its record is closed. -/
def Sys2Proof.Claims.ClausePoints : Prop :=
  (∀ (s : State) (a : Armed),
    let n := s.time.epochAt + s.period - s.rd Reg.BEACON_LEAD_LEAD - 500
    s.clause.armed = some a → a.committed = false → a.epoch ≤ s.pn + 1 → s.running = true → s.ns ≤ n → n < 2 ^ 64 → Plain s →
    ((s.runTo n).commitFails a = none → Does .clauseCommit s fun t => t.ns = n ∧ t.clause.armed = some { a with committed := true }
      ∧ t.clause.outcome = some ⟨a.id, true, 16⟩ ∧ t.clause.lastOutcome = some a.epoch ∧ t.trees = s.trees ∧ UnitOnly [Reg.CFLT_STAT_EV_LOST] s t)
    ∧ (∀ why item cell, (s.runTo n).commitFails a = some (why, item, cell) → NoSplit s → Does .clauseCommit s fun t => t.ns = n ∧ t.clause.armed = none
      ∧ t.clause.outcome = some ⟨a.id, false, 16⟩ ∧ Raised t .chip Src.CLAUSE_ABANDON ∧ t.on Reg.CLAUSE_STAT_ARMED = false ∧ t.trees = s.trees ∧ UnitOnly endFields s t))
  ∧ (∀ (s : State) (a : Armed) (d : CellDeliv), s.clause.armed = some a → a.cells.find? (fun x => !x.confirmed) = some d →
      s.commitFails a = some (Rsn.CELL_UNCONFIRMED, noItem, some d.cell))
  ∧ (∀ (s : State) (a : Armed), s.clause.armed = some a → a.committed = true → a.epoch ≤ s.pn →
      Does .clauseApply s fun t => t.clause.armed = none ∧ t.clause.applied = some ⟨a.id, a.epoch, a.cells.map fun d => d.cell, []⟩
        ∧ t.on Reg.CLAUSE_STAT_ARMED = false ∧ t.cells = s.cells ∧ t.cellMem = s.cellMem ∧ t.time = s.time
        ∧ (∀ r k, a.items = [.armEnable r k] → r < 8 → k < 4 → s.armBlocked r k = true → (∀ b, (s.armSt r k).blockAt = some b → b < a.armedAt ∧ b / 8 ≠ s.collTick) →
            t.armBlocked r k = false ∧ SameMem s t)
        ∧ (∀ r k b, a.items = [.armEnable r k] → r < 8 → k < 4 → (s.armSt r k).blockAt = some b → a.armedAt ≤ b → t.armBlocked r k = s.armBlocked r k)
        ∧ (∀ r ad b, a.items = [.param r ad b] → (∀ q ∈ paramWords ad b, s.loopWord r q.1 = none) →
            ∀ q ∈ paramWords ad b, t.rgnWord r q.1 = q.2))
  ∧ (∀ (s : State) (a : Applied), s.clause.applied = some a → a.epoch + 16 ≤ s.pn → Does .clauseClose s fun t => t.clause = { s.clause with applied := none }
      ∧ (∀ n, s.ringOfKind 4 = some n → s.wedged = false → s.ringFull n = false → Posted n 0x03 s t fun d => descField d 2 1 = 2 ∧ descField d 4 2 = a.id % 65536
          ∧ descField d 28 2 = a.late.length % 65536)
      ∧ t.trees = s.trees ∧ UnitOnly [Reg.CFLT_STAT_EV_LOST] s t)

/-- The Clause: its commands, and its commit, apply and close. -/
def Obligations.Clauses : Prop := Claims.ClauseCommands ∧ Claims.ClausePoints

/-! ### The engine datapath (R161 to R182) -/

namespace Sys2Proof.Claims
/-- Only engine `e` of region `r` changes. -/
def EngineOnly (r e : Nat) (s t : State) : Prop :=
  (∀ r' e', ¬ (r' = r ∧ e' = e) → t.eng r' e' = s.eng r' e') ∧ (∀ r', { t.dsp r' with engs := [] } = { s.dsp r' with engs := [] })
    ∧ t = { s with disp := t.disp }
/-- The command makes `f` of the engine, and the instruction that follows is next. -/
def Makes (c : Instr) (r e : Nat) (f : Eng → Eng) : Prop :=
  ∀ s : State, Does c s fun t => t.eng r e = (f (s.eng r e)).next ∧ EngineOnly r e s t
/-- Whether an exact result leaves the range of a word. -/
def beyond (x : Int) : Bool := decide (x < -2147483648) || decide (2147483647 < x)
/-- A register takes a word, Z and N show it. -/
def wordIn (g : Eng) (d : BitVec 4) (w : W32) : Eng := { g with d := g.d.set d.toNat w, z := decide (w = 0), n := decide (w.toInt < 0) }
/-- A register takes the nearest word to an exact result; WSAT sticks where it clamps (R165, R180). -/
def nearest (g : Eng) (d : BitVec 4) (x : Int) : Eng :=
  let w : W32 := if x < -2147483648 then 0x80000000 else if 2147483647 < x then 0x7FFFFFFF else BitVec.ofInt 32 x
  { wordIn g d w with wsat := g.wsat || beyond x }
/-- An accumulator takes an exact sum unless it is saturated; out of range it takes the bound and ACC_SAT and VSAT are set (R166, R167). -/
def accIn (g : Eng) (a : Bool) (x : Int) : Eng :=
  if (if a then g.accSat1 else g.accSat0) = true then g
  else
    let out := decide (x < -2361183241434822606848) || decide (2361183241434822606847 < x)
    let w : BitVec 72 := if x < -2361183241434822606848 then 0x800000000000000000 else if 2361183241434822606847 < x then 0x7FFFFFFFFFFFFFFFFF else BitVec.ofInt 72 x
    if a then { g with a1 := w, accSat1 := out, vsat := g.vsat || out } else { g with a0 := w, accSat0 := out, vsat := g.vsat || out }
/-- The signed value of a register and of an accumulator. -/
def sv (g : Eng) (a : BitVec 4) : Int := (g.d.getD a.toNat 0).toInt
def av (g : Eng) (a : Bool) : Int := (if a then g.a1 else g.a0).toInt
end Sys2Proof.Claims

/-- Instructions on registers (R164, R165, R168 to R171): sums wrap and set V, or clamp and set WSAT; the product is Q2.30; moves, immediates and selections write no
flag; logical results set Z and N; a count of redundant sign bits sets Z. -/
def Obligations.DatapathRegisters : Prop :=
  ∀ (r e : Nat) (d a b : BitVec 4),
    Makes (.dpMov r e d a) r e (fun g => { g with d := g.d.set d.toNat (g.d.getD a.toNat 0) })
    ∧ (∀ imm : BitVec 18, Makes (.dpLdi r e d imm) r e fun g => { g with d := g.d.set d.toNat (BitVec.ofInt 32 imm.toInt) })
    ∧ (∀ imm : BitVec 14, Makes (.dpLdih r e d imm) r e fun g =>
        { g with d := g.d.set d.toNat (BitVec.ofNat 32 (imm.toNat * 2 ^ 18 + (g.d.getD d.toNat 0).toNat % 2 ^ 18)) })
    ∧ Makes (.dpAdd r e d a b) r e (fun g => { wordIn g d (BitVec.ofInt 32 (sv g a + sv g b)) with v := beyond (sv g a + sv g b) })
    ∧ Makes (.dpSub r e d a b) r e (fun g => { wordIn g d (BitVec.ofInt 32 (sv g a - sv g b)) with v := beyond (sv g a - sv g b) })
    ∧ Makes (.dpAdds r e d a b) r e (fun g => nearest g d (sv g a + sv g b))
    ∧ Makes (.dpSubs r e d a b) r e (fun g => nearest g d (sv g a - sv g b))
    ∧ Makes (.dpMul r e d a b) r e (fun g => nearest g d (sv g a * sv g b / 1073741824))
    ∧ Makes (.dpAbs r e d a) r e (fun g => nearest g d (if sv g a < 0 then -(sv g a) else sv g a))
    ∧ Makes (.dpNeg r e d a) r e (fun g => nearest g d (-(sv g a)))
    ∧ Makes (.dpMin r e d a b) r e (fun g => wordIn g d (g.d.getD (if sv g b < sv g a then b else a).toNat 0))
    ∧ Makes (.dpMax r e d a b) r e (fun g => wordIn g d (g.d.getD (if sv g a < sv g b then b else a).toNat 0))
    ∧ (∀ sh : BitVec 6, sh ≠ 32 → Makes (.dpAsh r e d a sh) r e fun g =>
        nearest g d (if 0 ≤ sh.toInt then sv g a * 2 ^ sh.toInt.toNat else sv g a / 2 ^ (-sh.toInt).toNat))
    ∧ Makes (.dpAnd r e d a b) r e (fun g => wordIn g d (g.d.getD a.toNat 0 &&& g.d.getD b.toNat 0))
    ∧ Makes (.dpOr r e d a b) r e (fun g => wordIn g d (g.d.getD a.toNat 0 ||| g.d.getD b.toNat 0))
    ∧ Makes (.dpXor r e d a b) r e (fun g => wordIn g d (g.d.getD a.toNat 0 ^^^ g.d.getD b.toNat 0))
    ∧ (∀ c, Makes (.dpCsel r e d a b c) r e fun g => { g with d := g.d.set d.toNat (g.d.getD (if g.cond c = true then a else b).toNat 0) })
    ∧ Makes (.dpCmp r e a b) r e (fun g => { g with z := decide (sv g a = sv g b), n := decide (sv g a < sv g b) })
    ∧ Makes (.dpExp r e d a) r e (fun g => { g with d := g.d.set d.toNat (BitVec.ofNat 32 (redundant 32 (g.d.getD a.toNat 0))), z := decide (redundant 32 (g.d.getD a.toNat 0) = 0) })
    ∧ Makes (.dpNorm r e d a b) r e (fun g =>
        nearest g d (if 0 ≤ sv g b then sv g a * 2 ^ (min 31 (sv g b)).toNat else sv g a / 2 ^ (min 31 (-(sv g b))).toNat))
    ∧ (∀ (acc : Bool) (sh : BitVec 7), Makes (.dpExt r e d acc sh) r e fun g => nearest g d (av g acc / 2 ^ sh.toNat))
    ∧ (∀ acc : Bool, Makes (.dpExpa r e d acc) r e fun g => { g with
        d := g.d.set d.toNat (BitVec.ofNat 32 (redundant 72 (if acc then g.a1 else g.a0))), z := decide (redundant 72 (if acc then g.a1 else g.a0) = 0) })
    ∧ Makes (.dpNop r e) r e (fun g => g)
    ∧ (∀ (n : BitVec 3) , Makes (.dpOut r e n a) r e fun g => { g with outs := (g.outs.filter fun q => decide (q.1 ≠ n.toNat)) ++ [(n.toNat, g.d.getD a.toNat 0)] })

/-- Accumulators, memory and control (R163, R166, R167, R172 to R182): exact products into 72 bits with saturation; a load or a store through a pointer that the access
modifies, a plain address being the pointer plus 4 x DISP, not reduced; an address error yielding 0 or storing nothing; branches, loops and END. -/
def Obligations.DatapathMemory : Prop :=
  ∀ (r e : Nat) (acc : Bool),
    Makes (.dpClra r e acc) r e (fun g => if acc then { g with a1 := 0, accSat1 := false } else { g with a0 := 0, accSat0 := false })
    ∧ (∀ (a b sh : BitVec 4) (minus : Bool), Makes (.dpMacr r e acc a b sh minus) r e fun g =>
        accIn g acc (av g acc + (if minus then -1 else 1) * (sv g a * sv g b * 2 ^ sh.toNat)))
    ∧ (∀ a sh : BitVec 4, Makes (.dpAccw r e acc a sh) r e fun g => accIn g acc (av g acc + sv g a * 2 ^ 30 * 2 ^ sh.toNat))
    ∧ (∀ a : BitVec 4, Makes (.dpNorma r e acc a) r e fun g =>
        accIn g acc (if 0 ≤ sv g a then av g acc * 2 ^ (min 71 (sv g a)).toNat else av g acc / 2 ^ (min 71 (-(sv g a))).toNat))
    ∧ (∀ (s : State) (d : BitVec 4) (x : Addr) (disp : BitVec 8),
        let g := s.eng r e
        let m := s.view r e
        let at_ := g.ea x disp
        (g.good m x false at_ = true → Does (.dpLd r e d x disp) s fun t => t.eng r e = { g.step x with d := (g.step x).d.set d.toNat (g.loadWord m at_.toNat) }.next
          ∧ EngineOnly r e s t)
        ∧ (g.good m x false at_ = false → Does (.dpLd r e d x disp) s fun t => t.eng r e = { g.step x with d := (g.step x).d.set d.toNat 0, addrErr := true }.next
          ∧ EngineOnly r e s t)
        ∧ (g.good m x true at_ = true → Does (.dpSt r e d x disp) s fun t => t.eng r e = { g.step x with stores := g.stores ++ [(at_.toNat, g.d.getD d.toNat 0)] }.next
          ∧ EngineOnly r e s t)
        ∧ (g.good m x true at_ = false → Does (.dpSt r e d x disp) s fun t => t.eng r e = { g.step x with addrErr := true }.next ∧ EngineOnly r e s t))
    ∧ (∀ (s : State) (x c : Addr) (sh : BitVec 4) (minus : Bool),
        let g := s.eng r e
        let m := s.view r e
        let h := g.step x
        let ok1 := g.good m x false (g.ea x 0)
        let ok2 := h.good m c false (h.ea c 0)
        let w1 : W32 := if ok1 then g.loadWord m (g.ea x 0).toNat else 0
        let w2 : W32 := if ok2 then h.loadWord m (h.ea c 0).toNat else 0
        Does (.dpMacm r e acc x c sh minus) s fun t =>
          t.eng r e = (accIn { h.step c with addrErr := g.addrErr || !ok1 || !ok2 } acc (av g acc + (if minus then -1 else 1)
            * (w1.toInt * w2.toInt * 2 ^ sh.toNat))).next ∧ EngineOnly r e s t)
    ∧ (∀ (s : State) (c : BitVec 3) (target count : BitVec 6),
        let g := s.eng r e
        (g.cond c = true → Does (.dpBr r e c target) s fun t => t.eng r e = { g with ip := target.toNat } ∧ EngineOnly r e s t)
        ∧ (g.cond c = false → Does (.dpBr r e c target) s fun t => t.eng r e = g.next ∧ EngineOnly r e s t)
        ∧ (g.loops = [] → Does (.dpLoop r e count target) s fun t =>
            t.eng r e = { g with lc0 := count, loops := [(g.ip + 1, target.toNat)], ip := g.ip + 1 } ∧ EngineOnly r e s t)
        ∧ (∀ q, g.loops = [q] → Does (.dpLoop r e count target) s fun t =>
            t.eng r e = { g with lc1 := count, loops := [(g.ip + 1, target.toNat), q], ip := g.ip + 1 } ∧ EngineOnly r e s t)
        ∧ Does (.dpEnd r e) s fun t => t.eng r e = { g with ended := true } ∧ EngineOnly r e s t)
    ∧ (∀ (g : Eng) (x : Addr) (disp : BitVec 8), g.ea x disp = (if x.am = .plain then (g.ptr x : Int) + 4 * disp.toInt else g.ptr x))
    ∧ (∀ g : Eng, g.loops = [] → g.next = { g with ip := g.ip + 1 })
    ∧ (∀ (g : Eng) (st en : Nat), g.loops = [(st, en)] → g.next = (if g.ip ≠ en then { g with ip := g.ip + 1 }
        else if g.lc0 - 1 = 0 then { g with lc0 := g.lc0 - 1, loops := [], ip := g.ip + 1 } else { g with lc0 := g.lc0 - 1, ip := st }))

namespace Sys2Proof.Claims
/-- An instruction whose fields hold no reserved value (R164, R165, R185): a shift of −32 and an extraction of more than 40 bits have no word. -/
def Spelled : DI → Bool
  | .ash _ _ sh => decide (sh ≠ 32)
  | .ext _ _ sh => decide (sh.toNat ≤ 40)
  | _ => true
end Sys2Proof.Claims
/-- The word of a datapath instruction spells it (R164, R165): decode of encode gives the instruction back, for every instruction without a reserved field, and one with a
reserved field is refused. -/
def Obligations.DatapathWordsSpell : Prop :=
  (∀ i : DI, Spelled i = true → DI.ofWord i.word = some i) ∧ (∀ i : DI, Spelled i = false → DI.ofWord i.word = none)
    ∧ (∀ i j : DI, Spelled i = true → Spelled j = true → i.word = j.word → i = j)

/-! ### Verbs (R135, R168, R192 to R224, R242 to R247) -/

namespace Sys2Proof.Claims
/-- The nearest word to an exact result (R180). -/
def near (x : Int) : W32 := if x < -2147483648 then 0x80000000 else if 2147483647 < x then 0x7FFFFFFF else BitVec.ofInt 32 x
/-- The engine runs a Verb of this opcode: the command makes `P` of it. It runs none: nothing happens (log entry 27). -/
def VerbMakes (c : Instr) (r e opc : Nat) (P : State → Grant → Phrase → Act → VerbDecl → Eng → Eng → Prop) : Prop :=
  (∀ (s : State) (g : Grant) (p : Phrase) (a : Act) (v : VerbDecl), s.runs r e opc = some (g, p, a, v) →
    Does c s fun t => P s g p a v (s.eng r e) (t.eng r e) ∧ EngineOnly r e s t)
  ∧ ∀ s : State, s.runs r e opc = none → exec c s = .next s
/-- Output `n` of the engine is `w`. -/
def Puts (y : Eng) (n : Nat) (w : W32) : Prop := fget 0 y.outs n = w
/-- Beside the outputs listed, those of the engine before. -/
def OtherOuts (x y : Eng) (ns : List Nat) : Prop := ∀ n, n ∉ ns → fhas y.outs n = fhas x.outs n ∧ fget 0 y.outs n = fget 0 x.outs n
/-- The stages of the MAC over its terms (R168). -/
def dotted (x : Eng) (terms : List (W32 × W32)) : Eng :=
  terms.foldl (fun g q => accIn g false (av g false + q.1.toInt * q.2.toInt)) { x with a0 := 0, accSat0 := false }
/-- The cells whose records a list of results holds. -/
def recorded (l : List Result) : List Nat := l.filterMap fun q => match q with | .record c _ => some c | _ => none
/-- Parameter `i`. -/
def par (v : VerbDecl) (i : Nat) : Nat := v.params.getD i 0
/-- Operand `n`, signed. -/
def opv (x : Eng) (n : Nat) : Int := (x.d.getD n 0).toInt
/-- The stores of a fixed Verb after those the engine holds (R177, R182): one that no window permits is discarded. -/
def stored (x : Eng) (m : MemView) (l : List (Nat × W32)) : List (Nat × W32) := x.stores ++ l.filter fun q => m.good true q.1
/-- ADDR_ERR after loads and stores of a fixed Verb (R182). -/
def errs (x : Eng) (m : MemView) (loads stores : List Nat) : Bool :=
  x.addrErr || (loads.any fun a => !m.good false a) || stores.any fun a => !m.good true a
/-- The word of region memory at `a` that a Verb loads (R177, R181, R182): what it stored there itself, and 0 where no window permits the load. -/
def loaded (x : Eng) (m : MemView) (a : Nat) : W32 := if m.good false a = true then x.loadWord m a else 0
/-- LIM (R199): the change from its last output is limited to the rate, the result to the range of the limit set of the activation, and the direction in which the limit
held the request goes to LIM_DIR of each loop block of the arm. -/
def LimMakes (r e : Nat) : Prop :=
  VerbMakes (.verbLim r e) r e 0x05 (fun s g p a _ x y =>
    let arm := s.armOfPhrase p
    let m := s.mem g p
    let at_ (o : Nat) : Nat := s.armAt g.home arm ((if a.rt then 0xA0 else 0x80) + o)
    let lim (o : Nat) : Int := (loaded x m (at_ o)).toInt
    let dirs := [0xD8, 0xD9, 0xDA].map fun o => s.loopAt g.home (s.armByte g.home arm o) + 0x0C
    let prev := (s.armSt g.home arm).limPrev.toInt
    let u1 := max (prev - lim 8) (min (prev + lim 8) (opv x 0))
    let u2 := max (lim 0) (min (lim 4) u1)
    let dir : W32 := if u2 < opv x 0 then 1 else if opv x 0 < u2 then 0xFFFFFFFF else 0
    0 ≤ lim 8 → lim 0 ≤ lim 4 → y = { x with outs := y.outs, stores := y.stores, res := y.res, addrErr := y.addrErr } ∧ OtherOuts x y [0]
      ∧ Puts y 0 (BitVec.ofInt 32 u2) ∧ y.stores = stored x m (dirs.map fun k => (k, dir))
      ∧ y.addrErr = errs x m [at_ 0, at_ 4, at_ 8, s.armAt g.home arm 0xD8] dirs
      ∧ y.res = x.res ++ [.lim arm (BitVec.ofInt 32 u2) (x.tagIn || x.vsat || x.wsat)])
end Sys2Proof.Claims

/-- The arithmetic Verbs (R135, R168, R199): FETCH, MAC, VEC, CMP, CHOOSE, LIM and RANKQ; nothing is stored but LIM_DIR, and every other register stays.
A word computed shows in Z and N; an access outside the Phrase's windows sets ADDR_ERR, loads 0 and stores nothing (R181, R182). -/
def Sys2Proof.Claims.ArithmeticVerbs : Prop :=
  ∀ r e : Nat,
    VerbMakes (.verbFetch r e) r e 0x01 (fun _ _ _ a v x y => y = { x with outs := y.outs } ∧ OtherOuts x y (List.range 8)
      ∧ ∀ i, i < 8 → i < par v 1 → Puts y i (a.entry.getD (par v 0 + i) 0))
    ∧ VerbMakes (.verbMac r e) r e 0x02 (fun s g p a v x y =>
        let m := s.mem g p
        let q := s.macTerms g p a v x
        let h := dotted x q.2
        let w := near (av h false / 1073741824)
        y = { h with outs := y.outs, wsat := h.wsat || beyond (av h false / 1073741824), z := decide (w = 0), n := decide (w.toInt < 0), addrErr := errs x m q.1 [] }
          ∧ OtherOuts x y [0] ∧ Puts y 0 w
          ∧ (par v 2 = 0 → q.2 = (List.range (par v 1)).map fun i => (x.d.getD i 0, loaded x m (par v 0 + 4 * i))))
    ∧ VerbMakes (.verbVec r e) r e 0x06 (fun _ _ _ _ v x y => y = { x with outs := y.outs, wsat := y.wsat, z := y.z, n := y.n } ∧ OtherOuts x y (List.range 16)
        ∧ ∀ i, i < 16 → i < par v 1 →
          let b := if par v 1 < v.inputs.length then opv x (par v 1 + i) else (BitVec.ofNat 32 (par v (2 + i))).toInt
          (par v 0 = 0 → par v 1 ≤ 16 → Puts y i (near (opv x i + b))) ∧ (par v 0 = 1 → par v 1 ≤ 16 → Puts y i (near (opv x i - b)))
            ∧ (par v 0 = 2 → par v 1 ≤ 16 → Puts y i (near (opv x i * b / 1073741824)))
            ∧ (par v 0 = 3 → Puts y i (near (if opv x i < 0 then -(opv x i) else opv x i))))
    ∧ VerbMakes (.verbCmp r e) r e 0x07 (fun _ _ _ _ v x y =>
        let h : Eng := { x with z := decide (opv x 0 = opv x 1), n := decide (opv x 0 < opv x 1) }
        y = { h with outs := y.outs } ∧ OtherOuts x y [0] ∧ Puts y 0 (if h.cond (BitVec.ofNat 3 (par v 0)) = true then 1 else 0))
    ∧ VerbMakes (.verbChoose r e) r e 0x08 (fun _ _ _ _ _ x y => y = { x with outs := y.outs } ∧ OtherOuts x y [0]
        ∧ Puts y 0 (if x.d.getD 0 0 ≠ 0 then x.d.getD 1 0 else x.d.getD 2 0))
    ∧ LimMakes r e
    ∧ VerbMakes (.verbRankq r e) r e 0x0A (fun s g p a _ x y => y = { x with outs := y.outs } ∧ OtherOuts x y (List.range 4)
        ∧ ∀ i, i < 4 → Puts y i (s.rgnWord g.home (s.snapAt g.home (s.armOfPhrase p) (a.pn + 1) + 4 * i)))

/-- The Verbs of a loop (R196, R197, R199, R208): a BIQ section keeps the exact products to 30 fractional bits, an INT stage stops where LIM_DIR has the sign of its input;
the last stage multiplies by K_OUT and stores Y_LAST. A loop that is OPEN at the epoch of the trigger keeps its states and answers Y_LAST. -/
def Sys2Proof.Claims.LoopVerbs : Prop :=
  ∀ r e : Nat,
    VerbMakes (.verbBiq r e) r e 0x03 (fun s g p a v x y =>
      let l := par v 0
      let o := 0x20 + 32 * par v 1
      let m := s.mem g p
      let word (k : Nat) : W32 := loaded x m (s.loopAt g.home l + k)
      let w (k : Nat) : Int := (word (o + k)).toInt
      let cfg := (word 0).toNat
      let ends := cfg.testBit 4 = false ∧ par v 1 + 1 = cfg % 16
      let at_ := s.loopAt g.home l
      let sum := w 0 * opv x 0 + w 20 * 1073741824
      let y0 := (near (sum / 1073741824)).toInt
      let yo := near (sum / ((2 ^ (30 - (word (o + 28)).toNat % 8) : Nat) : Int))
      let s1 := near ((w 4 * opv x 0 - w 12 * y0 + w 24 * 1073741824) / 1073741824)
      let s2 := near ((w 8 * opv x 0 - w 16 * y0) / 1073741824)
      OtherOuts x y [0]
        ∧ (a.loops.testBit l = false → y = { x with outs := y.outs, addrErr := y.addrErr }
          ∧ (ends → Puts y 0 (word 8) ∧ y.addrErr = errs x m [at_, at_ + 8] []) ∧ (¬ ends → Puts y 0 (x.d.getD 0 0) ∧ y.addrErr = errs x m [at_] []))
        ∧ (a.loops.testBit l = true → y = { x with outs := y.outs, stores := y.stores, wsat := y.wsat, z := y.z, n := y.n, addrErr := y.addrErr }
          ∧ (¬ ends → Puts y 0 yo ∧ y.stores = stored x m [(at_ + o + 20, s1), (at_ + o + 24, s2)])
          ∧ (ends → let out := near (yo.toInt * (word 4).toInt / 1073741824)
              Puts y 0 out ∧ y.z = decide (out = 0) ∧ y.stores = stored x m [(at_ + o + 20, s1), (at_ + o + 24, s2), (at_ + 8, out)])))
    ∧ VerbMakes (.verbInt r e) r e 0x04 (fun s g p a v x y =>
        let l := par v 0
        let m := s.mem g p
        let w (k : Nat) : Int := (loaded x m (s.loopAt g.home l + k)).toInt
        let at_ := s.loopAt g.home l
        let stuck := 0 < w 0x0C ∧ 0 < opv x 0 ∨ w 0x0C < 0 ∧ opv x 0 < 0
        let n : Int := min (w 0x128) (max (w 0x124) (w 0x12C + w 0x120 * opv x 0 / 1073741824))
        let st : Int := if stuck then w 0x12C else n
        let out := near (st * w 4 / 1073741824)
        OtherOuts x y [0]
          ∧ (a.loops.testBit l = false → y = { x with outs := y.outs, addrErr := errs x m [at_ + 8] [] } ∧ Puts y 0 (loaded x m (at_ + 8)))
          ∧ (a.loops.testBit l = true → y = { x with outs := y.outs, stores := y.stores, wsat := y.wsat, z := decide (out = 0), n := decide (out.toInt < 0), addrErr := y.addrErr }
            ∧ Puts y 0 out ∧ y.wsat = (x.wsat || beyond (st * w 4 / 1073741824))
            ∧ y.stores = stored x m [(at_ + 0x12C, BitVec.ofInt 32 st), (at_ + 8, out)]))

/-- The Verbs of arithmetic and of the loops. -/
def Obligations.ControlVerbs : Prop := Claims.ArithmeticVerbs ∧ Claims.LoopVerbs

/-- The Verbs of modulation and selection (R218, R219, R221, R222, R242 to R247): NLEVEL divides the demand by the mean of the available cells, SELECT answers a record for
every cell of its segment, and the direction by the sign of the arm's current: BYP for a cell that is not available, ISOLATE for one marked ISOL. -/
def Sys2Proof.Claims.ModulationVerbs : Prop :=
  ∀ r e : Nat,
    VerbMakes (.verbNlevel r e) r e 0x09 (fun s g p a _ x y =>
      let arm := s.armOfPhrase p
      let neg := s.on (af g.home arm Arm.ARM_CFG_FB) = true ∧ s.on (af g.home arm Arm.ARM_CFG_NEG_EN) = true ∧ a.rt = true
      let nAv := (x.d.getD 2 0).toNat
      let lo : Int := if neg then -((nAv * 65536 : Nat) : Int) else 0
      let q := Int.tdiv (opv x 0 * nAv * 65536) (opv x 1)
      let n := if opv x 1 ≤ 0 then 0 else max lo (min ((nAv * 65536 : Nat) : Int) q)
      let d := if opv x 1 ≤ 0 then 0 else Int.tdiv (opv x 0 * 65536) (opv x 1)
      y = { x with outs := y.outs, res := y.res } ∧ OtherOuts x y [0, 1, 2, 3]
        ∧ (s.on (af g.home arm Arm.ARM_CFG_MOD) = false →
          Puts y 0 (BitVec.ofNat 32 (n.natAbs / 65536)) ∧ Puts y 1 (BitVec.ofNat 32 (n.natAbs % 65536)) ∧ Puts y 2 (if n < 0 then 1 else 0) ∧ Puts y 3 0
            ∧ y.res = x.res ++ [.armOut arm (n.natAbs / 65536) (n.natAbs % 65536) (decide (n < 0)) (decide (opv x 1 ≤ 0 ∨ n ≠ q))])
        ∧ (s.on (af g.home arm Arm.ARM_CFG_MOD) = true →
          let duty := if 0 < d ∧ d < 65536 then d.toNat else 0
          Puts y 0 0 ∧ Puts y 1 (BitVec.ofNat 32 duty) ∧ Puts y 2 0 ∧ Puts y 3 (near d)
            ∧ y.res = x.res ++ [.armOut arm 0 duty false (decide (opv x 1 ≤ 0))]))
    ∧ VerbMakes (.verbSelect r e) r e 0x0B (fun s g p a v x y =>
        let arm := s.armOfPhrase p
        let b := s.snapAt g.home arm (a.pn + 1)
        let cells := ((s.armCells g.home arm).drop (64 * par v 0)).take 64
        let order : List Nat := fget [] (s.rgn g.home).snapIdx ((a.pn + 1) % 2 * 4 + arm)
        y = { x with res := y.res } ∧ recorded y.res = recorded x.res ++ cells
          ∧ (∃ more, y.res = x.res ++ more
            ∧ ∀ c rec0, Result.record c rec0 ∈ more → c ∈ cells
              ∧ (c ∉ order → rec0 = ⟨2, false, 0, 0⟩)
              ∧ (∀ i, order.findIdx? (fun k => k == c) = some i → let w := s.rgnWord g.home (b + 0x40 + 4 * i)
                (w.getLsbD 29 = true → rec0 = ⟨7, w.getLsbD 28, 0, 0⟩) ∧ (w.getLsbD 29 = false → w.getLsbD 26 = false → rec0 = ⟨2, w.getLsbD 28, 0, 0⟩)
                  ∧ (w.getLsbD 29 = false → w.getLsbD 26 = true → rec0.cal = w.getLsbD 28
                    ∧ rec0.edge.toNat ≤ s.rd (af g.home arm Arm.ARM_EDGE_MAX))))
          ∧ (s.on (af g.home arm Arm.ARM_CFG_MOD) = false → y.res.getLast? = some (.dir arm (chooseDir (a.entry.getD (s.rd (af g.home arm Arm.ARM_RANK_I_IDX)) 0).toInt
            (s.rd (af g.home arm Arm.ARM_SEL_IDEAD)) (decide (x.d.getD 2 0 ≠ 0)) (decide (s.rgnWord g.home (b + 24) = 1))))))
    ∧ (∀ (i idead : Int) (neg prev : Bool), 0 < idead →
        let x := if neg then -i else i
        (idead ≤ x → chooseDir i idead neg prev = false) ∧ (x ≤ -idead → chooseDir i idead neg prev = true)
          ∧ (-idead < x → x < idead → chooseDir i idead neg prev = prev))
    ∧ (∀ base stp group mx j : Nat, edgeOffset base stp group mx j = (min (base + stp * (j / group)) mx, decide (mx < base + stp * (j / group))))

/-- The Verbs of the station network, of a block and of a program (R158, R179, R204, R205, R207, R214, R215): a GOOSE member and a block request go out at completion; SVRD
answers the members of one ASDU with their time and validity; PROG runs its program, or the library's handover selection or extrapolation. -/
def Sys2Proof.Claims.OtherVerbs : Prop :=
  ∀ r e : Nat,
    VerbMakes (.verbGoosePut r e) r e 0x0D (fun _ _ _ _ v x y => y = { x with res := x.res ++ [.goose (par v 0) (par v 1) (x.d.getD 0 0)] })
    ∧ VerbMakes (.verbBlockReq r e) r e 0x0E (fun _ _ _ _ v x y =>
        y = { x with blockReq := if x.d.getD 0 0 = 0 then x.blockReq else some (decide (par v 0 = 1), par v 1) })
    ∧ (∀ (s : State) (g : Grant) (p : Phrase) (a : Act) (v : VerbDecl) (q : Asdu), s.runs r e 0x0C = some (g, p, a, v) →
        (fget [] a.sv (par v 0))[par v 1]? = some q → v.params.length ≤ 8 →
        Does (.verbSvrd r e) s fun t => let y := t.eng r e
          y = { s.eng r e with outs := y.outs } ∧ t = { s with disp := t.disp, free := s.free + 7 }
            ∧ (∀ k m w, k < 6 → v.params[2 + k]? = some m → q.words[m]? = some w → Puts y k w.1)
            ∧ Puts y 6 (BitVec.ofInt 32 (q.time - (a.epochAt : Int)))
            ∧ (∀ k m w, k < 6 → v.params[2 + k]? = some m → q.words[m]? = some w → (fget 0 y.outs 7).getLsbD k = !w.2)
            ∧ (fget 0 y.outs 7).getLsbD 6 = false ∧ (fget 0 y.outs 7).getLsbD 7 = (fget {} s.stn.sv (par v 0)).lost)
    ∧ (∀ (s : State) (g : Grant) (p : Phrase) (a : Act) (v : VerbDecl), s.runs r e 0x0C = some (g, p, a, v) → (fget [] a.sv (par v 0))[par v 1]? = none →
        Does (.verbSvrd r e) s fun t => (fget 0 (t.eng r e).outs 7).getLsbD 6 = true ∧ t = { s with disp := t.disp, free := s.free + 7 })
    ∧ VerbMakes (.verbProg r e) r e 0x0F (fun s g p _ v x y =>
        (par v 0 = 0 → y = Eng.runProg (s.view r e) v.prog 70000 x)
        ∧ (par v 0 = 1 →
          let w := p.wrapWords.getD 0
          let m := s.mem g p
          let ctl := (loaded x m w).toNat
          let old := opv x (ctl % 2)
          let new := opv x (1 - ctl % 2)
          let tol : Int := s.rd (af g.home (s.armOfPhrase p) Arm.ARM_HOVR_TOL_TOL)
          let slew : Int := s.rd (af g.home (s.armOfPhrase p) Arm.ARM_HOVR_SLEW_SLEW)
          let prev := (loaded x m (w + 4)).toInt
          (ctl / 2 % 4 = 0 → Puts y 0 (x.d.getD (ctl % 2) 0) ∧ y.res = x.res
              ∧ y.stores = stored x m [(par v 1, x.d.getD (ctl % 2) 0), (w + 4, x.d.getD (ctl % 2) 0)])
          ∧ (ctl / 2 % 4 = 1 → -tol ≤ old - new → old - new ≤ tol → Puts y 0 (x.d.getD (ctl % 2) 0)
              ∧ (m.good true w = true → (w, BitVec.ofNat 32 (1 - ctl % 2)) ∈ y.stores) ∧ Result.handover p.num false (near (old - new)) 0 ∈ y.res)
          ∧ (ctl / 2 % 4 = 1 → ¬ (-tol ≤ old - new ∧ old - new ≤ tol) → Puts y 0 (near (max (old - slew) (min (old + slew) new)))
              ∧ (m.good true w = true → (w, BitVec.ofNat 32 (ctl % 2 + 4)) ∈ y.stores) ∧ Result.slewStart (s.armOfPhrase p) ∈ y.res)
          ∧ (ctl / 2 % 4 = 2 → -slew ≤ new - prev → new - prev ≤ slew → Puts y 0 (x.d.getD (1 - ctl % 2) 0) ∧ (m.good true w = true → (w, BitVec.ofNat 32 (1 - ctl % 2)) ∈ y.stores))
          ∧ (ctl / 2 % 4 = 2 → ¬ (-slew ≤ new - prev ∧ new - prev ≤ slew) → Puts y 0 (near (max (prev - slew) (min (prev + slew) new))) ∧ y.res = x.res))
        ∧ (par v 0 = 2 →
          let at_ := s.rd (af g.home (s.armOfPhrase p) Arm.ARM_PBASE_BASE) + 0xD0 + 4 * par v 1
          let ahead : Int := s.period + s.period / 2
          let bad (k : Nat) : Bool := (x.d.getD k 0).getLsbD (par v 2) || (x.d.getD k 0).getLsbD 6 || (x.d.getD k 0).getLsbD 7
          let ok := bad 2 = false ∧ bad 5 = false ∧ ahead - opv x 1 ≤ 2 * (opv x 1 - opv x 4)
          (ok → y.stores = stored x (s.mem g p) [(at_, near (opv x 0 + Int.fdiv ((opv x 0 - opv x 3) * (ahead - opv x 1)) (opv x 1 - opv x 4)))]
            ∧ y.res = x.res ++ [.ff (s.armOfPhrase p) (par v 1) false])
          ∧ (¬ ok → y.stores = x.stores ∧ y.res = x.res ++ [.ff (s.armOfPhrase p) (par v 1) true])))

/-- The Verbs of modulation, selection, the station network, blocks and programs. -/
def Obligations.UnitVerbs : Prop := Claims.ModulationVerbs ∧ Claims.OtherVerbs

/-! ### The dispatcher (R133 to R145, R150, R181 to R183) -/

namespace Sys2Proof.Claims
/-- The fields that entering a ready list can count in. -/
def readyFields (r : Nat) : List Fld := [rf r Rgn.DISP_STAT_ROB_WAIT, rf r Rgn.TRACE_STAT_LOST]
/-- The fields that the completion of a Verb can count in beside. -/
def engFields (r : Nat) : List Fld := [rf r Rgn.ENG_STAT_SAT_VERBS, rf r Rgn.ENG_STAT_WSAT_VERBS, rf r Rgn.ENG_STAT_ADDR_ERRS]
/-- An engine runs a Verb with its operands loaded, its activation shows it running, and its list has lost its head (R137, R138), which may let in a Verb held back. -/
def Granted (s t : State) (r e h k : Nat) (q : Ready) (stolen : Bool) (at_ : Nat) : Prop :=
  ∀ p a v, s.phraseOf h q.phrase = some p → s.act h q.phrase q.act = some a → p.verbs[q.verb]? = some v →
    (t.eng r e).run = some ⟨h, q.phrase, q.act, q.verb, stolen, decide (h ≠ r), at_⟩
    ∧ (∀ i x, i < 16 → v.inputs[i]? = some x → (t.eng r e).d[i]? = some (a.input x))
    ∧ (t.eng r e).tagIn = v.inputs.any a.tagged ∧ (t.eng r e).stores = [] ∧ (t.eng r e).outs = [] ∧ (t.eng r e).ip = 0
    ∧ (∃ more, fget [] (t.dsp h).lists k = (fget [] (s.dsp h).lists k).tail ++ more
        ∧ ((∀ b ∈ (s.dsp h).acts, ∀ z ∈ b.verbs, z.st ≠ 5 ∧ z.st ≠ 6) → more = []))
    ∧ (q.verb < a.verbs.length → ∃ a', t.act h q.phrase q.act = some a' ∧ (a'.vst q.verb).st = 2)
    ∧ (∀ e', e' ≠ e → t.eng r e' = s.eng r e') ∧ UnitOnly (readyFields h) s t
/-- The instant is now, or ahead with the counter running. -/
def Reachable (s : State) (n : Nat) : Prop := n ≤ s.ns ∨ s.running = true ∧ n < 2 ^ 64
end Sys2Proof.Claims

/-- A triggering entry (R133, R134, R139, R195): it starts an activation, whose Verbs without inputs from Verbs are ready; an open class-0 Phrase raises L0_OVERRUN, a
class-1 Phrase takes one a period, class 2 holds one while open; a list without room for its ready Verbs raises READY_OVF; while granting is stopped nothing happens. -/
def Sys2Proof.Claims.Triggers : Prop :=
  ∀ (s : State) (r : Nat) (tr : Trig) (entry : List W32) (test : Bool) (p : Phrase), r < s.dies → (s.phrasesOf r).filter (fun y => y.trig == tr) = [p] →
    let c := Instr.triggerPost r tr entry test
    let d := s.dsp r
    let may := p.control = false ∨ s.modeNo = 7 ∨ s.modeNo = 8 ∨ s.modeNo = 9 ∨ s.modeNo = 11 ∧ test = true
    let isOpen := d.acts.any fun a => a.phrase == p.num
    (d.quiesced = true ∨ ¬ may → exec c s = .next s)
    ∧ (d.quiesced = false → may →
      (p.cls = 0 → isOpen = true ∨ p.maxAct ≤ fget 0 d.actCount p.num → Does c s fun t => Raised t (.region r) Src.L0_OVERRUN
        ∧ t.disp = s.disp ∧ UnitOnly [] s t)
      ∧ (p.cls = 1 → 0 < fget 0 d.actCount p.num → exec c s = .next s)
      ∧ (p.cls = 2 → isOpen = true → fhas d.held p.num = false → Does c s fun t =>
          (∃ a, (t.dsp r).held.find? (fun q => q.1 == p.num) = some (p.num, a) ∧ a.entry = entry ∧ a.pn = s.pn ∧ a.epochAt = s.time.epochAt)
          ∧ (t.dsp r).acts = d.acts ∧ UnitOnly [] s t)
      ∧ (p.cls = 2 → isOpen = true → fhas d.held p.num = true → Does c s fun t =>
          t.rd (rf r Rgn.DISP_STAT_TRIG_DROP) = min (s.rd (rf r Rgn.DISP_STAT_TRIG_DROP) + 1) (2 ^ Rgn.DISP_STAT_TRIG_DROP.width - 1)
            ∧ t.disp = s.disp ∧ UnitOnly [rf r Rgn.DISP_STAT_TRIG_DROP] s t)
      ∧ (p.cls ≤ 2 → isOpen = false → (p.cls = 0 → fget 0 d.actCount p.num < p.maxAct) → (p.cls = 1 → fget 0 d.actCount p.num = 0) →
        let n := (fget [] d.lists p.listKey).length + max 1 (((s.newAct r p entry).withVerbs p d.nextAct (s.idleSlot p)).readyCount p)
        (64 < n → Does c s fun t => Raised t (.region r) Src.READY_OVF ∧ t.disp = s.disp ∧ UnitOnly [] s t)
        ∧ (n ≤ 64 → Does c s fun t =>
          (∃ a, t.act r p.num d.nextAct = some a ∧ a.pn = s.pn ∧ a.epochAt = s.time.epochAt ∧ a.entry = entry ∧ a.rt = decide (s.mode.atEpoch = 9)
            ∧ a.loops = s.rd (rf r Rgn.LOOP_STATE0_CLOSED) + s.rd (rf r Rgn.LOOP_STATE1_CLOSED) * 2 ^ 32
            ∧ a.verbs.length = p.verbs.length)
          ∧ (t.dsp r).nextAct = d.nextAct + 1
          ∧ (p.cls ≠ 2 → ∀ i v, p.verbs[i]? = some v → (∀ x ∈ v.inputs, ∃ w, x = .const w) → v.slot = none →
              (⟨p.num, d.nextAct, i⟩ : Ready) ∈ fget [] (t.dsp r).lists p.listKey)
          ∧ (∀ e, t.eng r e = s.eng r e) ∧ (∀ r', r' ≠ r → t.dsp r' = s.dsp r') ∧ UnitOnly (readyFields r) s t)))

/-- TAKE and the two steals (R137, R138, R143, R144, R145): an idle engine takes the first Verb of its pair's level-0 list, then of its cluster's levels 1 to 7, or blocks;
blocked for STEAL_DELAY it takes one of another cluster of its die, blocked for XSTEAL_DELAY a portable one of another die, while no source acts at severity 3 on either (R347); one that brings no result within 2 µs
is ready again at the head of its list and raises STEAL_LOST. -/
def Sys2Proof.Claims.Grants : Prop :=
  (∀ (s : State) (r e : Nat), r < s.dies → e < 128 → (s.eng r e).run = none →
    (∀ k q, s.grants r = true → (s.dsp r).headOf (ownKeys (e / 16)) = some (k, q) → (s.phraseOf r q.phrase).isSome = true → (s.act r q.phrase q.act).isSome = true →
      Does (.take r e) s fun t => Granted s t r e r k q false s.ns)
    ∧ (s.grants r = false ∨ (s.dsp r).headOf (ownKeys (e / 16)) = none → Does (.take r e) s fun t => (t.eng r e).blocked = true ∧ (t.eng r e).run = none
        ∧ (t.eng r e).blockedFrom = (if (s.eng r e).blocked then (s.eng r e).blockedFrom else s.ns) ∧ EngineOnly r e s t)
    ∧ (∀ k q, let at_ := (s.eng r e).blockedFrom + 2 * s.rd (rf r Rgn.DISP_CFG_STEAL_DELAY)
        let keys := [1, 2, 3, 4, 5, 6, 7].flatMap fun l => (ringOrder (e / 16)).map fun c => 8 + c * 8 + l
        (s.eng r e).blocked = true → s.grants r = true → (s.rd (rf r Rgn.DISP_CFG_STEAL_EN)).testBit 0 = true → Reachable s at_ → Plain s →
        (s.dsp r).headOf (ownKeys (e / 16)) = none → (s.dsp r).headOf keys = some (k, q) →
        Does (.steal r e) s fun t => t.ns = max s.ns at_ ∧ Granted s t r e r k q true (max s.ns at_))
    ∧ (∀ h k q, let at_ := (s.eng r e).blockedFrom + 2 * s.rd (rf r Rgn.DISP_CFG_XSTEAL_DELAY)
        let lends (x : Nat) : Bool := (s.rd (rf x Rgn.DISP_CFG_STEAL_EN)).testBit 1 && !s.noLending x
        (s.eng r e).blocked = true → s.grants r = true → lends r = true → Reachable s at_ → Plain s → (∀ k', fget [] (s.dsp r).lists k' = []) →
        (dieOrder s.dies r).findSome? (fun x => if lends x then (s.portableHead x).map fun y => (x, y) else none) = some (h, k, q) →
        Does (.crossRegionSteal r e) s fun t => t.ns = max s.ns at_ ∧ Granted s t r e h k q true (max s.ns at_))
    ∧ (s.noLending r = true → exec (.crossRegionSteal r e) s = .next s))
  ∧ (∀ (c : Nat) (d : DispSt) (x : Ready) (l : List Ready), fget [] d.lists (c / 2) = x :: l → d.headOf (ownKeys c) = some (c / 2, x))
  ∧ (∀ c, c < 8 → (ringOrder c).length = 7 ∧ c ∉ ringOrder c ∧ ∀ x ∈ ringOrder c, x < 8)
  ∧ (∀ (s : State) (h k : Nat) (g : Grant) (rest : List (Nat × Grant)) (p : Phrase) (a : Act), (s.dsp h).away = (k, g) :: rest → Reachable s g.lostAt → Plain s →
      s.phraseOf h g.phrase = some p → s.act h g.phrase g.act = some a → g.verb < a.verbs.length →
      Does (.stealLost h) s fun t => t.ns = max s.ns g.lostAt ∧ (t.dsp h).away = rest ∧ Raised t (.region h) Src.STEAL_LOST
        ∧ fget [] (t.dsp h).lists p.listKey = ⟨g.phrase, g.act, g.verb⟩ :: fget [] (s.dsp h).lists p.listKey
        ∧ (∃ a', t.act h g.phrase g.act = some a' ∧ (a'.vst g.verb).st = 1) ∧ UnitOnly [rf h Rgn.TRACE_STAT_LOST] s t)
  ∧ (∀ g : Grant, g.since + 2000 < g.lostAt ∧ g.lostAt ≤ g.since + 2002)

/-- The dispatcher: triggers, TAKE and the steals. -/
def Obligations.Dispatching : Prop := Claims.Triggers ∧ Claims.Grants

/-- VERB_COMPLETE (R140, R141, R150, R181 to R183): the engine is idle, saturation is counted and raised; the outputs pass along the graph at once, the results only when
the lower-numbered Verbs of the Sentence have completed. After the deadline a class-1 activation whose Sentences are not all released is ended; an address error ends the activation. -/
def Obligations.Completion : Prop :=
  ∀ (s : State) (r e q : Nat) (g : Grant) (p : Phrase) (a : Act), (s.eng r e).run = some g → s.phraseOf g.home g.phrase = some p →
    s.act g.home g.phrase g.act = some a → g.xregion = false → g.verb < a.verbs.length → g.act < (s.dsp g.home).nextAct → Plain s →
    let x := s.eng r e
    let now := (s.runBy q).ns
    let late := p.cls = 1 ∧ a.sentencesDone p = false ∧ s.deadlineOf p a.epochAt < now
    let c := Instr.verbComplete r e q
    Does c s (fun t => (t.eng r e).run = none ∧ (x.vsat = true → Raised t (.region r) Src.ENG_SAT) ∧ (x.wsat = true → Raised t (.region r) Src.ENG_WSAT)
      ∧ (x.addrErr = true → Raised t (.region r) Src.ENG_ADDR) ∧ (∀ e', e' ≠ e → t.eng r e' = s.eng r e') ∧ t.ns = now ∧ t.cells = s.cells)
    ∧ (late → Does c s fun t => t.act g.home g.phrase g.act = none ∧ Raised t (.region g.home) Src.DEADLINE_MISS
        ∧ UnitOnly (rf g.home Rgn.DISP_SLACK_MIN :: readyFields g.home ++ engFields r) s t)
    ∧ (¬ late → x.addrErr = true → Does c s fun t => t.act g.home g.phrase g.act = none
        ∧ UnitOnly (readyFields g.home ++ engFields r) s t)
    ∧ (¬ late → x.addrErr = false →
        Does c s (fun t => ∀ a', t.act g.home g.phrase g.act = some a' → ((a'.vst g.verb).st = 3 ∨ (a'.vst g.verb).st = 4)
          ∧ (a'.vst g.verb).outs = x.outs.foldl (fun m y => fset y.1 y.2 m) [] ∧ (a'.vst g.verb).tag = (x.tagIn || x.vsat || x.wsat))
        ∧ (∀ v sen pos i u pos', p.verbs[g.verb]? = some v → v.sentence = some (sen, pos) → p.verbs[i]? = some u → u.sentence = some (sen, pos') → pos' < pos →
            (a.vst i).st < 3 → Does c s fun t => ∃ a', t.act g.home g.phrase g.act = some a' ∧ (a'.vst g.verb).st = 3)
        ∧ (∀ v ad w, p.verbs = [v] → v.sentence = none → v.portable = false → (s.runBy q).copiedNow = false → a.verbs.length = 1 → p.ctx.persist = [] → x.res = [] → x.blockReq = none →
            (x.stores = [(ad, w)] → Does c s fun t => t.rgnWord g.home ad = w ∧ t.act g.home g.phrase g.act = none)
            ∧ (x.stores = [] → Does c s fun t => SameMem s t ∧ t.act g.home g.phrase g.act = none)))

/-! ### The period of a region (R38, R150 to R152, R239, R240, R374, R405) -/

/-- The class-1 deadline (R38, R102, R150, R374): once a period, BEACON_LEAD and 500 ns before the epoch, every record of the coming period is frozen, the one staged or the
previous again without CAL and offset, OFF in M5, M6 and M10; activations not done end and raise DEADLINE_MISS; M7 and M9 send the copy set. -/
def Sys2Proof.Claims.ClassOneDeadline : Prop :=
  ∀ (s : State) (r : Nat), r < s.dies → r < 8 → s.epochs = true → s.running = true →
    let at_ := s.time.epochAt + s.period - s.rd Reg.BEACON_LEAD_LEAD - 500
    let off := s.modeNo = 5 ∨ s.modeNo = 6 ∨ s.modeNo = 10
    Plain s →
    (Reachable s at_ → (s.rgn r).frozenPn ≠ some s.pn →
      Does (.class1Deadline r none) s fun t => t.ns = max s.ns at_ ∧ (t.rgn r).frozenPn = some s.pn
        ∧ (∀ u j, u ∈ s.treesOf r → (t.slot r u j).staged = none ∧ (t.slot r u j).recNow = (s.slot r u j).recNow
          ∧ (off → (t.slot r u j).recNext = ⟨0, false, 0, 0⟩)
          ∧ (¬ off → (∀ x, (s.slot r u j).staged = some x → (t.slot r u j).recNext = x)
            ∧ ((s.slot r u j).staged = none → (t.slot r u j).recNext = { (s.slot r u j).recNow with cal := false, edge := 0 })))
        ∧ (∀ a p, a ∈ (s.dsp r).acts → s.phraseOf r a.phrase = some p → p.cls = 1 → a.sentencesDone p = false → a.num < (s.dsp r).nextAct →
            t.act r a.phrase a.num = none
            ∧ Raised t (.region r) Src.DEADLINE_MISS)
        ∧ (6 ≤ s.modeNo → ∃ x, (t.rgn r).snap = some x ∧ x.pn = s.pn ∧ x.arms.map (fun y => y.arm) = (s.rgnArms r).map Prod.snd)
        ∧ (s.modeNo = 7 ∨ s.modeNo = 9 → (t.mirror.txState.filter (fun g => g.region == r)).map (fun g => g.seg)
            = List.range (3 + ((s.image.mirroredOf r).length - 240 + 255) / 256))
        ∧ (s.modeNo = 8 → t.mirror.copyDue = some s.pn) ∧ UnitOnly (rf r Rgn.DISP_SLACK_MIN :: readyFields r) s t)
    ∧ ((s.rgn r).frozenPn = some s.pn → at_ ≤ s.ns → exec (.class1Deadline r none) s = .next s)
    ∧ (∀ n p, s.phraseOf r n = some p → Reachable s (s.deadlineOf p s.time.epochAt) → Does (.class1Deadline r (some n)) s fun t =>
        t.ns = max s.ns (s.deadlineOf p s.time.epochAt) ∧ t.trees = s.trees
          ∧ (∀ a, a ∈ (s.dsp r).acts → a.phrase = n → p.cls = 1 → a.sentencesDone p = false → a.num < (s.dsp r).nextAct → t.act r n a.num = none ∧ Raised t (.region r) Src.DEADLINE_MISS)
          ∧ UnitOnly (rf r Rgn.DISP_SLACK_MIN :: readyFields r) s t)

/-- The snapshot in its buffer (R239, R240), the slack as it is read, without a release of the tick of the read (R152), and the speed gauges (R151, R405). -/
def Sys2Proof.Claims.RegionReports : Prop :=
  (∀ (s : State) (r : Nat) (x : Snap) (y : SnapArm), (s.rgn r).snap = some x → x.arms = [y] → y.arm < 4 → y.cells.length ≤ 4096 →
    Does (.snapshotComplete r) s fun t => let b := s.snapAt r y.arm x.pn
      (t.rgn r).snap = none ∧ (t.armSt r y.arm).missed = false
      ∧ t.rgnWord r b = BitVec.ofNat 32 (y.cells.filter fun c => c.avail).length ∧ t.rgnWord r (b + 12) = BitVec.ofNat 32 y.cells.length
      ∧ t.rgnWord r (b + 24) = (if y.dirPrev then 1 else 0) ∧ t.rgnWord r (b + 28) = BitVec.ofInt 32 y.i
      ∧ (∀ i c, y.cells[i]? = some c → (t.rgnWord r (b + 0x40 + 4 * i)).getLsbD 26 = c.avail ∧ (t.rgnWord r (b + 0x40 + 4 * i)).getLsbD 27 = c.inc
        ∧ (t.rgnWord r (b + 0x40 + 4 * i)).getLsbD 28 = c.calDue ∧ (t.rgnWord r (b + 0x40 + 4 * i)).getLsbD 29 = c.isol)
      ∧ (∀ a n, a + n ≤ rgnKey r (s.rd (rf r Rgn.RANK_BASE_BASE)) ∨ rgnKey r (s.rd (rf r Rgn.RANK_BASE_BASE)) + 0xC0000 ≤ a →
          memRead t.sram a n = memRead s.sram a n)
      ∧ t.cells = s.cells ∧ t.trees = s.trees)
  ∧ (∀ (s : State) (r : Nat), (s.rgn r).snap = none → exec (.snapshotComplete r) s = .next s)
  ∧ (∀ (s : State) (r : Nat), let d := s.dsp r
      Does (.dispSlackRead r) s fun t => (d.slackTick ≠ s.ns / 2 → t.lastRead = BitVec.ofNat 32 (s.rd (rf r Rgn.DISP_SLACK_MIN)) ∧ t.rd (rf r Rgn.DISP_SLACK_MIN) = 0x7FFF)
        ∧ (d.slackTick = s.ns / 2 → t.lastRead = BitVec.ofNat 32 (d.slackOld % 65536).toNat ∧ t.rd (rf r Rgn.DISP_SLACK_MIN) = (d.slackNow % 65536).toNat)
        ∧ UnitOnly [rf r Rgn.DISP_SLACK_MIN] s t)
  ∧ (∀ (s : State) (r v : Nat) (l : List Nat), r < s.dies → v < 65536 → s.mode.gaugeWait = false → Does (.gaugeMeasure r (v :: l) []) s fun t =>
      let ratio := t.rd (rf r Rgn.DISP_GAUGE_RATIO)
      ratio ≤ v ∧ (∀ x ∈ l, ratio ≤ x) ∧ (ratio = v ∨ ratio ∈ l)
        ∧ (t.dsp r).gaugeLow = (if ratio < 16384 then (s.dsp r).gaugeLow + 1 else 0)
        ∧ t.activeFor (.region r) { src := Src.CORE_SLOW } = decide (2 ≤ (t.dsp r).gaugeLow)
        ∧ UnitOnly [rf r Rgn.DISP_GAUGE_RATIO] s t)
  ∧ (∀ (s : State) (r v c m p : Nat), r < s.dies → r < 8 → c < 8 → s.mode.gaugeWait = false → c ∈ (s.dsp r).calPend → 0 < m →
      let f := (rf r Rgn.DISP_GAUGE_K0_K).at (4 * c)
      s.rd f < 65536 → Does (.gaugeMeasure r [v] [(c, m, p)]) s fun t => t.rd f ≤ s.rd f + 64 ∧ s.rd f ≤ t.rd f + 64 ∧ (t.dsp r).calPend = (s.dsp r).calPend.filter (fun x => x != c))

/-- The period of a region: its deadline, its snapshot, its slack and its gauges. -/
def Obligations.RegionPeriod : Prop := Claims.ClassOneDeadline ∧ Claims.RegionReports

/-! ### The measurement lanes and the loops (R187 to R190, R208 to R213, R406) -/

namespace Sys2Proof.Claims
/-- The fields a triggering entry can count in. -/
def triggerFields (r : Nat) : List Fld := rf r Rgn.DISP_STAT_TRIG_DROP :: rf r Rgn.DISP_SLACK_MIN :: readyFields r
/-- Those of every die. -/
def allTriggerFields (s : State) : List Fld := (List.range s.dies).flatMap triggerFields
/-- A saturating counter is one higher. -/
def Counts (f : Fld) (s t : State) : Prop := t.rd f = min (s.rd f + 1) (2 ^ f.width - 1)
end Sys2Proof.Claims

/-- A frame of a measurement lane (R187, R188): on a powered lane it is kept when its CRC holds and 480 ns have passed, the last two of a lane; a lane shared with an enabled tree takes none (R9); a wrong CRC and a rate too
high are counted; a non-zero STATUS code raises MEAS_SENSOR. -/
def Sys2Proof.Claims.MeasurementFrames : Prop :=
  ∀ (s : State) (r l q d : Nat) (f : MeasFrame), r < s.dies → l < 8 → s.running = true → Plain s →
    let m := s.runBy q
    let now := quarters m.time.ctr
    let old : List LaneFrame := fget [] (s.rgn r).lanes l
    let good := crc16 (measBytes f) = f.crc.toNat ∧ f.codes.length = 4
    let own := s.on (tf r (24 + l) Tree.TREE_CFG_EN) = false
    (¬ own → exec (.measFrameReceive r l q d f) s = .next s)
    ∧ (own → m.lanePowered r l = false → exec (.measFrameReceive r l q d f) s = .next m)
    ∧ (own → m.lanePowered r l = true → ¬ good → Does (.measFrameReceive r l q d f) s fun t => Counts (measCrc r l) s t ∧ t.rgns = s.rgns
        ∧ UnitOnly [measCrc r l] s t)
    ∧ (own → m.lanePowered r l = true → good → (∃ x ∈ old, now < x.start + 1920) → Does (.measFrameReceive r l q d f) s fun t => Counts (measRate r l) s t
        ∧ t.rgns = s.rgns ∧ UnitOnly [measRate r l] s t)
    ∧ (own → m.lanePowered r l = true → good → (∀ x ∈ old, x.start + 1920 ≤ now) → Does (.measFrameReceive r l q d f) s fun t =>
        fget [] (t.rgn r).lanes l = ⟨now, now + 544 + min 64 d, f⟩ :: old.take 1 ∧ (∀ l', l' ≠ l → fget [] (t.rgn r).lanes l' = fget [] (s.rgn r).lanes l')
          ∧ (f.status.toNat / 16 ≠ 0 → Raised t (.region r) Src.MEAS_SENSOR) ∧ UnitOnly [] s t)

/-- The latch (R189, R190, R233): every channel takes its converted value or is stale; each arm holds the current of its entry. The lane check of M4 (R406). -/
def Sys2Proof.Claims.MeasurementLatch : Prop :=
  (∀ (s : State) (r : Nat) (test : Bool), r < s.dies → r < 8 → s.epochs = true → s.running = true → Plain s →
    let at_ := s.time.epochAt + s.rd (rf r Rgn.MEAS_LATCH_LATCH)
    let m := s.runTo at_
    Reachable s at_ → Does (.measLatch r test) s fun t => t.ns = max s.ns at_
      ∧ (∀ ch, ch < 32 → (∀ w, m.channelNow r ch (quarters m.time.ctr) = some w → fget 0 (t.rgn r).good ch = w ∧ fhas (t.rgn r).stale ch = false)
        ∧ (m.channelNow r ch (quarters m.time.ctr) = none → fget 0 (t.rgn r).good ch = fget 0 (s.rgn r).good ch
          ∧ fget 0 (t.rgn r).stale ch = fget 0 (s.rgn r).stale ch + 1))
      ∧ (∀ a, a < 4 → s.armTrees r a ≠ [] → (t.armSt r a).noEntry = false
        ∧ ∀ ch, (s.armChans r a)[s.rd (af r a Arm.ARM_RANK_I_IDX)]? = some ch → (t.armSt r a).iNow = (fget 0 (t.rgn r).good ch).toInt
          ∧ (t.armSt r a).iStale = fhas (t.rgn r).stale ch)
      ∧ UnitOnly (triggerFields r) s t)
  ∧ (∀ (s : State) (r ch now : Nat) (x : LaneFrame), latched (fget [] (s.rgn r).lanes (ch / 4)) now = some x →
      let c := ch % 4
      let at_ := s.rd (rf r Rgn.MEAS_TAB_BASE_BASE) + 12 * ch
      let raw := (x.f.codes.getD c 0).toInt * (s.rgnWord r at_).toInt * ((2 ^ ((s.rgnWord r (at_ + 4)).toNat % 16) : Nat) : Int) / 1073741824
      (x.f.status.getLsbD c = true → c ≤ x.f.hdr.toNat % 4 → now - x.start ≤ 4 * s.rd (rf r Rgn.MEAS_CFG_MAX_AGE) →
        s.channelNow r ch now = some (near ((near raw).toInt + (s.rgnWord r (at_ + 8)).toInt)))
      ∧ (x.f.status.getLsbD c = false ∨ x.f.hdr.toNat % 4 < c ∨ 4 * s.rd (rf r Rgn.MEAS_CFG_MAX_AGE) < now - x.start → s.channelNow r ch now = none))
  ∧ (∀ (s : State) (r : Nat), r < s.dies → s.modeNo = 4 → s.running = true → Plain s → Reachable s (s.glimDue r) →
      let m := s.runTo (s.glimDue r)
      let bad := ∃ ch, ch < 32 ∧ (s.rd (rf r Rgn.PWR_GLIM_MASK)).testBit ch = true ∧ m.glimBad r ch = true
      Does (.glimmerLaneCheck r) s fun t => t.ns = max s.ns (s.glimDue r) ∧ (t.rgn r).glimAt = t.ns ∧ t.modeNo = 4
        ∧ (bad → t.mode.wakePend.testBit 2 = true) ∧ (¬ bad → t.mode = s.mode) ∧ UnitOnly [] s t)

/-- The measurement lanes and the latch. -/
def Obligations.Measurement : Prop := Claims.MeasurementFrames ∧ Claims.MeasurementLatch

/-- Loop states (R208 to R210, R213): a request waits for the next epoch, one of the epoch's own tick for the one after, a close that the armed Clause conflicts with is refused; at the epoch OPEN stops the loop, CLOSE KEEP
starts it with its states, CLOSE CLEAR with its states at 0. -/
def Obligations.LoopStates : Prop :=
  (∀ (s : State) (r l : Nat), r < s.dies → l < 64 → s.takesWrites = true →
    Does (.loopOpen r l) s (fun t => (t.rgn r).loopReq = (s.rgn r).loopReq ++ [(l, 0, s.ns / 2)] ∧ UnitOnly [] s t)
    ∧ (s.clauseTouches r l = false → Does (.loopCloseKeep r l) s (fun t => (t.rgn r).loopReq = (s.rgn r).loopReq ++ [(l, 1, s.ns / 2)] ∧ UnitOnly [] s t)
      ∧ Does (.loopCloseClear r l) s fun t => (t.rgn r).loopReq = (s.rgn r).loopReq ++ [(l, 2, s.ns / 2)] ∧ UnitOnly [] s t)
    ∧ (s.clauseTouches r l = true → ∀ c, c = .loopCloseKeep r l ∨ c = .loopCloseClear r l → Does c s fun t => t.on (rf r Rgn.LOOP_STAT_REFUSED) = true ∧ t.rgns = s.rgns
        ∧ UnitOnly [rf r Rgn.LOOP_STAT_REFUSED] s t))
  ∧ (∀ (q : List (Nat × Nat × Nat)) (l a n : Nat), loopLast (q ++ [(l, a, n)]) = fset l a (loopLast q))
  ∧ (∀ (s : State) (r l action n : Nat), r < s.dies → s.epochs = true → (s.rgn r).loopReq = [(l, action, n)] → s.time.epochAt / 2 ≤ n →
      Does (.loopStateApply r) s fun t => (t.rgn r).loopReq = [(l, action, n)] ∧ UnitOnly [] s t)
  ∧ (∀ (s : State) (r l action n : Nat), r < s.dies → s.epochs = true → l < 64 → action < 3 → (s.rgn r).loopReq = [(l, action, n)] → n < s.time.epochAt / 2 →
      Does (.loopStateApply r) s fun t => (t.rgn r).loopReq = [] ∧ t.loopClosed r l = decide (action ≠ 0)
        ∧ (∀ l', l' < 64 → l' ≠ l → t.loopClosed r l' = s.loopClosed r l') ∧ (action ≠ 2 → SameMem s t)
        ∧ (action = 2 → (∀ i, i < 8 → t.rgnWord r (s.loopAt r l + 0x34 + 32 * i) = 0 ∧ t.rgnWord r (s.loopAt r l + 0x38 + 32 * i) = 0)
          ∧ t.rgnWord r (s.loopAt r l + 0x12C) = 0 ∧ (∀ a n, a + n ≤ rgnKey r (s.loopAt r l + 0x34) ∨ rgnKey r (s.loopAt r l + 0x130) ≤ a →
            memRead t.sram a n = memRead s.sram a n))
        ∧ SameRegs [rf r Rgn.LOOP_STATE0_CLOSED, rf r Rgn.LOOP_STATE1_CLOSED] s t ∧ t.cells = s.cells)

/-! ### The station network (R202 to R207, R391) -/

namespace Sys2Proof.Claims
/-- What a published dataset sent last: stNum, timeAllowedtoLive in ns and the time. -/
def Sent (t : State) (n st tal at_ : Nat) : Prop := ∃ ws, (fget {} t.stn.pubs n).sent = some (st, tal, ws, at_)
end Sys2Proof.Claims

/-- Sampled values (R202 to R204): an ASDU of a subscription is kept with its time and its converted members, of the last four; a gap in the counter is counted; a
stream without a frame for LOSS_N sample times is lost once the resolution delay of a station port has passed (R94). -/
def Sys2Proof.Claims.SampledValues : Prop :=
  (∀ (s : State) (f : SvFrame), s.svMatch f = none → exec (.svFrameReceive f) s = .next s)
  ∧ (∀ (s : State) (f : SvFrame) (i : Nat) (x : SvAsdu), s.dies ≤ 8 → s.svMatch f = some i → f.asdus = [x] → Reachable s (timeNs f.ingress) → Plain s →
      let rate := max 1 (s.rd (Reg.SV_RATE_RATE.win i))
      let old := fget {} s.stn.sv i
      let gap := ∃ n, old.cnt = some n ∧ x.cnt.toNat ≠ (n + 1) % rate
      Does (.svFrameReceive f) s fun t => let y := fget {} t.stn.sv i
        y.lost = false ∧ t.on (Reg.SV_STAT_LOST.win i) = false ∧ y.cnt = some x.cnt.toNat ∧ y.lastAt = some (timeNs f.ingress)
          ∧ (∃ a : Asdu, y.ring = (a :: old.ring).take 4 ∧ a.words = s.svWords i x
            ∧ (x.synch = 0 → a.time = (timeNs f.ingress : Int) - s.rd (Reg.SV_LAT_LAT.win i))
            ∧ (x.synch ≠ 0 → a.time ≤ timeNs f.ingress ∧ (timeNs f.ingress : Int) < a.time + 1000000000
              ∧ (a.time - (x.cnt.toNat * 1000000000 / rate : Nat)) % 1000000000 = 0))
          ∧ (gap → Counts (Reg.SV_STAT_GAP.win i) s t) ∧ (¬ gap → t.rd (Reg.SV_STAT_GAP.win i) = s.rd (Reg.SV_STAT_GAP.win i))
          ∧ UnitOnly (Reg.SV_STAT_GAP.win i :: Reg.SV_STAT_LOST.win i :: allTriggerFields s) s t)
  ∧ (∀ (s : State) (i n : Nat), i < 32 → s.on (Reg.SV_CFG_EN.win i) = true → (fget {} s.stn.sv i).lastAt = some n →
      let due := n + s.rd (Reg.SV_CFG_LOSS_N.win i) * 1000000000 / max 1 (s.rd (Reg.SV_RATE_RATE.win i)) + 200
      Reachable s due → Plain s → Does (.svLost i) s fun t => t.ns = max s.ns due ∧ (fget {} t.stn.sv i).lost = true ∧ (fget {} t.stn.sv i).ring = (fget {} s.stn.sv i).ring
        ∧ t.on (Reg.SV_STAT_LOST.win i) = true ∧ t.active .chip Src.SV_LOST = true ∧ UnitOnly [Reg.SV_STAT_LOST.win i] s t)

/-- GOOSE (R206, R207, R391): a message renews the deadline of its subscription, one with a new stNum brings its members; a deadline that has passed by the 200 ns of R94, or
lies before a message's start of frame (R93), expires the dataset; a period's changes are
sent with the next stNum and again at doubling intervals up to T0; the ride-through member asks for M9, and for M7 once it was FALSE for HOLD periods. -/
def Sys2Proof.Claims.Goose : Prop :=
  (∀ (s : State) (m : GooseMsg), s.gooseMatch m = none → exec (.gooseReceive m) s = .next s)
  ∧ (∀ (s : State) (m : GooseMsg) (i : Nat), s.gooseMatch m = some i → Reachable s (timeNs m.ingress) → Plain s →
      let old := fget {} s.stn.goose i
      let live (t : State) : Prop := (fget {} t.stn.goose i).deadline = some (quarters m.ingress + m.tal.toNat * 4000000) ∧ (fget {} t.stn.goose i).expired = false
        ∧ (fget {} t.stn.goose i).stNum = some m.stNum
      (∀ d, old.deadline = some d → d < quarters m.ingress → Does (.gooseReceive m) s fun t => live t ∧ Raised t .chip Src.GOOSE_TAL)
      ∧ (old.stNum = some m.stNum → Does (.gooseReceive m) s fun t => live t ∧ (fget {} t.stn.goose i).words = old.words ∧ t.disp = s.disp ∧ UnitOnly [] s t)
      ∧ (old.stNum ≠ some m.stNum → Does (.gooseReceive m) s fun t => live t ∧ (fget {} t.stn.goose i).words = m.members ∧ t.cells = s.cells)
      ∧ (old.stNum ≠ some m.stNum → s.on Reg.MODE_RT_EN = false ∨ s.rd Reg.MODE_RT_SUB ≠ i → Does (.gooseReceive m) s fun t =>
          t.mode = s.mode ∧ UnitOnly (allTriggerFields s) s t)
      ∧ (old.stNum = none → s.on Reg.MODE_RT_EN = true → s.rd Reg.MODE_RT_SUB = i → m.members.getD (s.rd Reg.MODE_RT_MEMBER) 0 = 0 →
          Does (.gooseReceive m) s fun t => t.mode = { s.mode with rtFalse := s.pn } ∧ UnitOnly (allTriggerFields s) s t))
  ∧ (∀ (s : State) (i n : Nat), (fget {} s.stn.goose i).deadline = some n → n + 800 ≤ quarters s.time.ctr ∨ (s.running = true ∧ n + 800 < 2 ^ 66) → Plain s →
      Does (.gooseTal i) s fun t => quarters t.time.ctr = max (quarters s.time.ctr) (n + 800)
      ∧ (fget {} t.stn.goose i).expired = true ∧ (fget {} t.stn.goose i).deadline = none ∧ (fget {} t.stn.goose i).words = (fget {} s.stn.goose i).words
      ∧ Raised t .chip Src.GOOSE_TAL ∧ UnitOnly [] s t)
  ∧ (∀ s : State, let g := fget {} s.stn.goose (s.rd Reg.MODE_RT_SUB)
      let due := s.on Reg.MODE_RT_EN = true ∧ s.modeNo = 9 ∧ g.expired = false ∧ g.stNum ≠ none ∧ g.words.getD (s.rd Reg.MODE_RT_MEMBER) 0 = 0
        ∧ s.mode.rtFalse + s.rd Reg.MODE_RT_HOLD ≤ s.pn
      (¬ due → exec .rtHoldExpiry s = .next s)
      ∧ (due → s.mode.running = none → s.mode.pending = none → s.grantedNow .warden true = false →
          Does .rtHoldExpiry s fun t => t.modeNo = 9 ∧ t.mode.running = some ⟨⟨.warden, 7, false⟩, .epoch, s.ns, none⟩ ∧ t.trees = s.trees ∧ UnitOnly [] s t))
  ∧ (∀ (s : State) (n k : Nat) (ws : FMap W32) (rest : List (Nat × FMap W32)), (fget {} s.stn.pubs n).changes = (k, ws) :: rest →
      let at_ := s.time.epochAt + s.rd Reg.STN_GOOSE_OFS
      (s.pn < k → exec (.gooseChangeSend n) s = .next s)
      ∧ (k ≤ s.pn → Reachable s at_ → Plain s → Does (.gooseChangeSend n) s fun t => t.ns = max s.ns at_
      ∧ (fget {} t.stn.pubs n).stNum = (fget {} s.stn.pubs n).stNum + 1 ∧ (fget {} t.stn.pubs n).changes = rest
      ∧ (∀ i w, ws = [(i, w)] → fget 0 (fget {} t.stn.pubs n).words i = w)
      ∧ (fget {} t.stn.pubs n).interval = 1000 * s.rd (Reg.GOOSE_T1_T1.win n) ∧ (fget {} t.stn.pubs n).nextAt = some (t.ns + 1000 * s.rd (Reg.GOOSE_T1_T1.win n))
      ∧ Sent t n ((fget {} s.stn.pubs n).stNum + 1) (2000 * s.rd (Reg.GOOSE_T1_T1.win n)) t.ns ∧ UnitOnly [] s t))
  ∧ (∀ (s : State) (n at_ : Nat), (fget {} s.stn.pubs n).nextAt = some at_ → Reachable s at_ → Plain s →
      (∀ p, p < 2 → let m := s.runTo at_; m.holdsBack p (max (quarters m.time.ctr) (fget 0 m.stn.busy p)) 1522 = false) → Does (.gooseRetransmit n) s fun t =>
      let gap := min (2 * (fget {} s.stn.pubs n).interval) (1000000 * s.rd (Reg.GOOSE_T0_T0.win n))
      t.ns = max s.ns at_ ∧ (fget {} t.stn.pubs n).stNum = (fget {} s.stn.pubs n).stNum ∧ (fget {} t.stn.pubs n).interval = gap
        ∧ Sent t n (fget {} s.stn.pubs n).stNum (2 * gap) t.ns ∧ UnitOnly [] s t)

/-- The station network: sampled values and GOOSE. -/
def Obligations.StationStreams : Prop := Claims.SampledValues ∧ Claims.Goose

/-! ### Gate matrices and their links (R279 to R305) -/

namespace Sys2Proof.Claims
/-- Of Elsum `c` only its gate matrix at position `p` and its clock differ, and nothing else at all of the unit and the memories. -/
def MatOnly (c p : Nat) (s t : State) : Prop :=
  CellOnly c s t ∧ SameCellMem s t ∧ (∀ p', p' ≠ p → (t.cell c).mat p' = (s.cell c).mat p')
    ∧ { t.cell c with mats := [], time := (s.cell c).time } = { s.cell c with mats := [] }
/-- The flags byte of a die, and its trims and records. -/
def dieByte (s : State) (c p d k : Nat) : Nat := s.cval c (dieEnt p d + k) 1
/-- The instant is now, or ahead with the cell's timed domain running. -/
def CellReach (s : State) (c n : Nat) : Prop := n ≤ (s.cell c).time.clock ∨ (s.cell c).runs = true
end Sys2Proof.Claims

/-- The matrix side (R282 to R286, R305): a CFG_WRITE goes to the shadow set and is echoed with its CRC; each of its frames becomes active at the first turn-on edge that
begins 200 ns after it; while GMLn_EN is low every die is off; a die turned off for overcurrent is reported. -/
def Obligations.GateMatrices : Prop :=
  ∀ (s : State) (c p : Nat), p < 4 →
    let m := (s.cell c).mat p
    Does (.identReq c p) s (fun t => ((t.cell c).mat p).identSent = m.identSent + 1 ∧ MatOnly c p s t)
    ∧ (∀ q, Does (.keep c p q) s fun t => ((t.cell c).mat p).heard = (t.cell c).time.clock ∧ MatOnly c p s t)
    ∧ (∀ (q seq first : Nat) (l : List CfgEntry), l ≠ [] → l.length ≤ 16 → first + l.length ≤ 128 → Does (.cfgWrite c p q true seq first l) s fun t =>
        let k := (t.cell c).mat p
        (∀ i e, l[i]? = some e → k.holds (first + i) = e) ∧ (∀ d, d < first ∨ first + l.length ≤ d → k.holds d = m.holds d) ∧ k.active = m.active
          ∧ k.shadow = m.shadow ++ [⟨(t.cell c).time.clock, seq, first, l⟩] ∧ k.echo = some (seq, first, l.length, cfgCrc l, []) ∧ MatOnly c p s t)
    ∧ (∀ (q seq first : Nat) (ok : Bool) (l : List CfgEntry), ok = false ∨ l = [] ∨ 16 < l.length ∨ 128 < first + l.length →
        Does (.cfgWrite c p q ok seq first l) s fun t => (t.cell c).mat p = m ∧ MatOnly c p s t)
    ∧ (∀ q seq first n : Nat, 0 < n → n ≤ 16 → first + n ≤ 128 → Does (.cfgRead c p q true seq first n) s fun t =>
        let l := (List.range n).map fun i => m.holds (first + i)
        ((t.cell c).mat p).echo = some (seq, first, n, cfgCrc l, l) ∧ (∀ d, ((t.cell c).mat p).holds d = m.holds d) ∧ MatOnly c p s t)
    ∧ (let edge := fget 0 (s.cell c).sw.riseAt p
        let due := m.shadow.filter fun w => decide (w.endAt + 800 ≤ edge)
        fhas (s.cell c).sw.riseAt p = true → Does (.matrixShadowApply c p) s fun t =>
          let k := (t.cell c).mat p
          (∀ d, fget {} k.active d = ({ m with shadow := due } : MatrixSt).holds d) ∧ k.shadow = m.shadow.filter (fun w => decide (edge < w.endAt + 800))
            ∧ (∀ w, due.getLast? = some w → k.seq = w.seq) ∧ (due = [] → k = m) ∧ MatOnly c p s t)
    ∧ (fhas (s.cell c).sw.riseAt p = false → exec (.matrixShadowApply c p) s = .next s)
    ∧ ((s.cell c).enHigh p = false → Does (.gmlEnableLow c p) s fun t => ((t.cell c).mat p).on = false ∧ ((t.cell c).mat p).enabled = false ∧ MatOnly c p s t)
    ∧ ((s.cell c).enHigh p = true → exec (.gmlEnableLow c p) s = .next s)
    ∧ (∀ d, m.on = true → d ∉ m.desatOff → Does (.desatTurnOff c p d) s fun t => d ∈ ((t.cell c).mat p).desatOff ∧ d ∈ ((t.cell c).mat p).desat
        ∧ ((t.cell c).mat p).on = true ∧ MatOnly c p s t)

/-- The link at the Elsum (R281, R283, R285, R287, R288, R309): an identity that fails is refused, a valid one brings the link up with GMLn_EN low and the first
configuration frame sent; an echo that matches confirms its entries, one that does not has the frame sent again up to RETRY times; a link without frames for TMO is
down, and its position goes on switching; KEEP after 2 µs, IDENT_REQ every 20 µs. -/
def Obligations.GateLinkLife : Prop :=
  ∀ (s : State) (c p q : Nat), p < 4 → (s.cell c).up = true → (s.cell c).linkEn p = true →
    let x := s.cell c
    let l := x.link p
    let Kept (fs : List Fld) (t : State) : Prop := CellOnly c s t ∧ OtherCellMem c s t ∧ SameCells c fs s t ∧ (t.cell c).st = x.st
    (∀ cmd, (∃ seq i, cmd = Instr.gmlIdent c p q false seq i) ∨ (∃ seq first crc, cmd = .gmlCfgEcho c p q false seq first crc) ∨ (∃ seq first r, cmd = .gmlSense c p q false seq first r)
        ∨ (∃ seq off g i r age, cmd = .gmlEdge c p q false seq off g i r age)
        ∨ (∃ b, cmd = .gmlFault c p q false b) → Does cmd s fun t => t.crd c (gmlCrc p) = min (x.rd (gmlCrc p) + 1) (2 ^ Els.GML_STAT1_CRC_ERR.width - 1)
          ∧ (t.cell c).links = x.links ∧ SameCellMem s t ∧ Kept [gmlCrc p] t)
    ∧ (∀ b, Does (.gmlFault c p q true b) s fun t => (b % 256 ≠ 0 → Raised t (.cell c) Src.MATRIX_FAULT) ∧ SameCellMem s t ∧ Kept [] t)
    ∧ (∀ seq i, identOk i = false → Does (.gmlIdent c p q true seq i) s fun t => ((t.cell c).link p).phase = 0 ∧ t.crd c (gmlUp p) = 0 ∧ (t.cell c).enHigh p = false
        ∧ Raised t (.cell c) Src.GML_CFG_ERR ∧ Kept [gmlUp p] t)
    ∧ (∀ seq i, identOk i = true → l.phase ≠ 0 → Does (.gmlIdent c p q true seq i) s fun t => SameCellMem s t ∧ Kept [] t
        ∧ { (t.cell c).link p with heardAt := 0 } = { l with heardAt := 0 })
    ∧ (∀ seq (i : Ident), identOk i = true → l.phase = 0 → l.lost = false → Does (.gmlIdent c p q true seq i) s fun t => ((t.cell c).link p).phase = 1
        ∧ (t.cell c).enHigh p = false ∧ t.cval c (dieTab p + 1) 1 = i.dies.toNat ∧ t.cval c (dieTab p + 6) 2 = i.vendor.toNat ∧ t.cval c (dieTab p + 8) 8 = i.serial.toNat
        ∧ (∃ o, ((t.cell c).link p).out = some o ∧ o.first = 0 ∧ o.entries.length = min 16 i.dies.toNat ∧ o.read = false)
        ∧ ((s.cval c (matRec p) 2 ≠ i.vendor.toNat ∨ s.cval c (matRec p + 2) 8 ≠ i.serial.toNat) → Raised t (.cell c) Src.MATRIX_CHANGED
          ∧ ∀ d k, d < i.dies.toNat → k < 3 → dieByte t c p d k = 0)
        ∧ Kept [gmlUp p] t)
    ∧ (∀ (o : CfgOut), l.out = some o → o.first < 128 → o.read = false →
      (∀ e, o.entries = [e] → l.phase = 3 → l.todo = [] → s.dieCfg c p o.first = e → e.iso = false →
        Does (.gmlCfgEcho c p q true o.seq o.first (cfgCrc o.entries)) s fun t => ((t.cell c).link p).out = none ∧ ((t.cell c).link p).okSeq = o.seq
          ∧ dieByte t c p o.first 3 = dieByte s c p o.first 3 % 128 ∧ Kept [] t)
      ∧ (∀ crc, crc ≠ cfgCrc o.entries → o.tries < x.rd Els.GML_CFG_RETRY → Does (.gmlCfgEcho c p q true o.seq o.first crc) s fun t =>
          (∃ o', ((t.cell c).link p).out = some o' ∧ o'.tries = o.tries + 1 ∧ o'.first = o.first ∧ o'.entries.length = o.entries.length
            ∧ o'.seq = (if 255 ≤ l.seq then 1 else l.seq + 1)) ∧ SameCellMem s t ∧ Kept [] t)
      ∧ (CellReach s c (o.sentAt + 40000) → o.tries < x.rd Els.GML_CFG_RETRY → Does (.cfgEchoTimeout c p) s fun t =>
          (t.cell c).time.clock = max x.time.clock (o.sentAt + 40000) ∧ (∃ o', ((t.cell c).link p).out = some o' ∧ o'.tries = o.tries + 1 ∧ o'.first = o.first)
            ∧ SameCellMem s t ∧ Kept [] t)
      ∧ (CellReach s c (o.sentAt + 40000) → x.rd Els.GML_CFG_RETRY ≤ o.tries → l.todo = [] → l.phase = 3 → Does (.cfgEchoTimeout c p) s fun t =>
          ((t.cell c).link p).out = none ∧ Raised t (.cell c) Src.GML_CFG_ERR ∧ SameCellMem s t ∧ Kept [] t))
    ∧ (l.out = none → ∀ seq first crc, Does (.gmlCfgEcho c p q true seq first crc) s fun t => { (t.cell c).link p with heardAt := 0 } = { l with heardAt := 0 }
        ∧ SameCellMem s t ∧ Kept [] t)
    ∧ (CellReach s c (l.txEnd + 8000) → Does (.gmlKeepDue c p) s fun t => ((t.cell c).link p).txType = 4
        ∧ ((t.cell c).link p).txEnd = max (max x.time.clock (l.txEnd + 8000)) l.txEnd + 1120 ∧ SameCellMem s t ∧ Kept [] t)
    ∧ (l.phase ≠ 0 → CellReach s c (l.heardAt + 4000 * x.rd Els.GML_CFG_TMO) → Does (.gmlDown c p) s fun t => ((t.cell c).link p).phase = 0 ∧ ((t.cell c).link p).lost = true
        ∧ ((t.cell c).link p).sense = [] ∧ t.crd c (gmlUp p) = 0 ∧ t.active (.cell c) Src.GML_DOWN = true ∧ (∀ p', (t.cell c).gate p' = x.gate p')
        ∧ (t.cell c).mats = x.mats ∧ (∀ p', (t.cell c).enHigh p' = x.enHigh p') ∧ Kept [gmlUp p] t)
    ∧ (l.phase = 0 → CellReach s c (l.reqAt + 80000) → Does (.identReqRetry c p) s fun t => ((t.cell c).link p).txType = 1 ∧ ((t.cell c).link p).reqAt = l.reqAt + 80000
        ∧ SameCellMem s t ∧ Kept [] t)

/-- Trims and sense records (R293, R296, R298, R300): an EDGE measurement counts toward its batch; a full one beyond the deadband moves the trim one step against it, at its
limit sets AT_LIM, within the deadband clears it; the table shows the SEQ of each frame; a sense record that is not valid raises DIE_SENSE, a valid one is in the table, and a hot die raises DIE_HOT. -/
def Obligations.TrimsAndSense : Prop :=
  ∀ (s : State) (c p q seq d : Nat), p < 4 → d < 128 → (s.cell c).up = true → (s.cell c).linkEn p = true →
    let x := s.cell c
    let l := x.link p
    let Kept (fs : List Fld) (t : State) : Prop := CellOnly c s t ∧ OtherCellMem c s t ∧ SameCells c fs s t ∧ (t.cell c).sw = x.sw
    let SeqShown (t : State) : Prop := t.cval c (dieTab p + 20) 1 = seq % 256 ∧ ∀ b, b ≠ cellKey c (dieTab p + 20) → memGet t.cellMem b = memGet s.cellMem b
    (∀ (g age : Nat) (i : BitVec 16) (v : BitVec 8), d = 16 * g → s.trimRuns c p = true → l.seqOk seq = true → x.rd Els.DIE_TRIM_IMIN ≤ i.toInt.natAbs → age ≤ 20000 →
      v ≠ 0x80 → d < s.nDies c p → s.dieIso c p d = false →
      let a : Int × Nat := fget (0, 0) l.acc (2 * d)
      let n := 2 ^ x.rd Els.DIE_TRIM_EVENTS
      let m := (a.1 + v.toInt).tdiv n
      let db : Int := x.rd Els.DIE_TRIM_DB
      let lim : Int := s.cval c (dieTab p + 16) 1
      let trim := s8 (dieByte s c p d 0)
      let cmd := Instr.gmlEdge c p q true seq false g i [v] age
      (a.2 + 1 < n → Does cmd s fun t => fget (0, 0) ((t.cell c).link p).acc (2 * d) = (a.1 + v.toInt, a.2 + 1) ∧ SeqShown t ∧ Kept [] t)
      ∧ (n ≤ a.2 + 1 → -db ≤ m → m ≤ db → Does cmd s fun t => fhas ((t.cell c).link p).acc (2 * d) = false ∧ (dieByte t c p d 3).testBit 6 = false
          ∧ (∀ k, k < 3 → dieByte t c p d k = dieByte s c p d k) ∧ Kept [] t)
      ∧ (n ≤ a.2 + 1 → db < m → -lim < trim → -128 < trim → Does cmd s fun t => (s8 (dieByte t c p d 0) = trim - 1)
          ∧ t.crd c Els.DIE_STAT_TRIM_CHG = min (x.rd Els.DIE_STAT_TRIM_CHG + 1) (2 ^ Els.DIE_STAT_TRIM_CHG.width - 1) ∧ Kept [Els.DIE_STAT_TRIM_CHG] t)
      ∧ (n ≤ a.2 + 1 → m < -db → lim ≤ trim → Does cmd s fun t => (dieByte t c p d 3).testBit 6 = true ∧ Raised t (.cell c) Src.TRIM_LIMIT
          ∧ (∀ k, k < 3 → dieByte t c p d k = dieByte s c p d k) ∧ Kept [] t))
    ∧ (∀ (g age : Nat) (off : Bool) (i : BitVec 16) (w : List (BitVec 8)), s.trimRuns c p = false ∨ l.seqOk seq = false ∨ 20000 < age ∨ i.toInt.natAbs < x.rd Els.DIE_TRIM_IMIN →
        Does (.gmlEdge c p q true seq off g i w age) s fun t => ((t.cell c).link p).acc = l.acc ∧ SeqShown t ∧ Kept [] t)
    ∧ (∀ r : SenseRec, l.phase ≠ 0 → Does (.gmlSense c p q true seq d [r]) s fun t => fget ({}, 0) ((t.cell c).link p).sense d = (r, x.time.pn)
        ∧ t.cval c (dieTab p + 20) 1 = seq % 256 ∧ (r.valid = false → Raised t (.cell c) Src.DIE_SENSE)
        ∧ (r.valid = true → t.cval c (dieEnt p d + 4) 2 = ((r.t.toNat : Int) - 640) % 65536 ∧ t.cval c (dieEnt p d + 6) 2 = r.s.toNat
          ∧ (16 * (x.rd Els.DIE_TEMP_WARN : Int) < r.t.toNat - 640 → d ∉ l.hot → Raised t (.cell c) Src.DIE_HOT))
        ∧ Kept [Els.DIE_STAT_TRIM_CHG] t)

/-! ### Register accesses by address (R11, R19 to R22, R411, R432, R437, R484 to R486) -/

/-- REGISTER_WRITE: a word that is not the highest of its register is held; a whole register takes the bits of its RW fields, an RO or RWC field stays, a W1C field is
cleared by ones, unless hardware sets it in the tick of the write; while the unit takes no writes nothing happens, nor at an unassigned address; while PPS_OUT_CFG.EN is 0 the
ball of PPS_OUT is low; JTAG reaches an Elsum that is unlocked and in Maintenance. What an access that is not aligned leaves in the two words it reaches is open (log entry 37). -/
def Sys2Proof.Claims.RegisterWrites : Prop :=
  (∀ (s : State) (a : Nat) (v : W32), a % 4 ≠ 0 →
      let one (s : State) (b : Nat) (o : Option W32) : State := match o with | some w => s.used.busWrite b w | none => s.used
      ∃ x y, exec (.registerWrite none a v) s = .next (one (one s (a / 4 * 4) x) (a / 4 * 4 + 4) y))
  ∧ (∀ (s : State) (a : Nat) (v : W32), a % 4 = 0 → a < 0x300000 → s.takesWrites = true → basMulti a = none → s.basAssigned a = false → a ≠ 0x4000 →
      exec (.registerWrite none a v) s = .next s)
  ∧ (∀ (s : State) (a b n : Nat) (v : W32), a % 4 = 0 → a < 0x300000 → a ≠ 0x4000 → s.takesWrites = true → basMulti a = some (b, n) → b ≤ a → a < b + 4 * (n - 1) →
      Does (.registerWrite none a v) s fun t => fget 0 t.held a = v.toNat ∧ (∀ k, fhas t.held k = true → b ≤ k ∧ k < b + 4 * n) ∧ t = { s with held := t.held })
  ∧ (∀ (s : State) (a : Nat) (v : W32), a % 4 = 0 → a < 0x300000 → a ≠ 0x4000 ∨ v.toNat < 2147483648 → s.takesWrites = false → exec (.registerWrite none a v) s = .next s)
  ∧ (∀ (s : State) (a : Nat) (v : W32), a % 4 = 0 → a < 0x300000 → s.takesWrites = true → basMulti a = none → s.basAssigned a = true → s.wordLocked a = false → a ≠ 0x4000 → a ≠ 0x506C → a ≠ 0x5060 →
      a ≠ 0x403C →
      (if a < 0x100000 then s.chipAct a v else s.rgnAct a v) = none → ((s.wordFields a).map fun f => f.lsb).Nodup →
      Does (.registerWrite none a v) s fun t => t = { s with held := [], regs := t.regs, time := { s.time with ppsOut := t.time.ppsOut } } ∧ SameRegs (s.wordFields a) s t
        ∧ t.time.ppsOut = (t.on Reg.PPS_OUT_CFG_EN && s.time.ppsOut)
        ∧ ∀ f ∈ s.wordFields a, 8 * a ≤ f.lsb → f.lsb + f.width ≤ 8 * a + 32 → 0 < f.width →
          (f.acc = .rw → t.rd f = v.toNat / 2 ^ (f.lsb - 8 * a) % 2 ^ f.width)
          ∧ (f.acc = .ro ∨ f.acc = .rwc → t.rd f = s.rd f % 2 ^ f.width)
          ∧ (f.acc = .w1c → let ones := v.toNat / 2 ^ (f.lsb - 8 * a) % 2 ^ f.width = 2 ^ f.width - 1
            (¬ ones → t.rd f = s.rd f % 2 ^ f.width) ∧ (ones → marked s.hwSet f s.time.tick = 0 → t.rd f = 0)
              ∧ (ones → marked s.hwSet f s.time.tick ≠ 0 → s.rd f ≠ 0 → t.rd f = 1)))
  ∧ (∀ (s : State) (c a : Nat) (v : W32), a % 4 ≠ 0 ∨ s.jtagOpen c = false ∨ elsAssigned a = false → exec (.registerWrite (some c) a v) s = .next s)
  ∧ (∀ (s : State) (c a : Nat) (v : W32) (f : Fld), a % 4 = 0 → (s.cell c).up = true → (s.cell c).st = 6 → (s.cell c).on Els.SEC_STAT_UNLOCKED = true → elsAssigned a = true →
      (∀ p, p < 2 → (s.cell c).request p 1 = none) → elsMulti a = none → elsFields a = [f] → f.acc = .rw →
      8 * a ≤ f.lsb → f.lsb + f.width ≤ 8 * a + 32 → 0 < f.width → a ∉ [0x800, 0x43C, 0x638, 0x64C] → Does (.registerWrite (some c) a v) s fun t =>
      t.crd c f = v.toNat / 2 ^ (f.lsb - 8 * a) % 2 ^ f.width ∧ SameCells c [f] s t ∧ UnitKept s t ∧ SameCellMem s t)

/-- REGISTER_LOW_WORD_READ: a read of the lowest word of a register captures its others, which later reads return; no register changes. -/
def Sys2Proof.Claims.RegisterReads : Prop :=
  (∀ (s : State) (a : Nat), a % 4 ≠ 0 → Does (.registerLowWordRead none a) s fun t => t = { s with lastRead := t.lastRead, free := s.free + 1 })
  ∧ (∀ (s : State) (r : Nat), r < s.dies → r < 8 → exec (.registerLowWordRead none (rgnBase r + 0x300C)) s = exec (.dispSlackRead r) s)
  ∧ (∀ (s : State) (a : Nat) (f : Fld), a % 4 = 0 → a < 0x300000 → a ≠ 0x1000 → a ≠ 0x1004 → a ≠ 0x1008 → basMulti a = none → s.isSlack a = false → s.wordFields a = [f] → f.lsb = 8 * a →
      s.rd f < 2 ^ 32 → Does (.registerLowWordRead none a) s fun t => t.lastRead = (if f.acc = .wo then 0 else BitVec.ofNat 32 (s.rd f)) ∧ t = { s with lastRead := t.lastRead })
  ∧ (∀ (s : State) (b n : Nat), b % 4 = 0 → b < 0x300000 → b ≠ 0x1000 → b ≠ 0x1004 → b ≠ 0x1008 → basMulti b = some (b, n) → Does (.registerLowWordRead none b) s fun t =>
      t.lastRead = BitVec.ofNat 32 (s.busWord b) ∧ (∀ i, i < n → fget 0 t.latch (b + 4 * i) = s.busWord (b + 4 * i))
        ∧ t = { s with lastRead := t.lastRead, latch := t.latch })
  ∧ (∀ (s : State) (a b n : Nat), a % 4 = 0 → a ≠ 0x1000 → a ≠ 0x1004 → a ≠ 0x1008 → basMulti a = some (b, n) → b ≠ a → fhas s.latch a = true →
      exec (.registerLowWordRead none a) s = .next { s with lastRead := BitVec.ofNat 32 (fget 0 s.latch a) })
  ∧ (∀ (s : State) (c a : Nat), a % 4 ≠ 0 ∨ s.jtagOpen c = false ∨ elsAssigned a = false → exec (.registerLowWordRead (some c) a) s = .next { s with lastRead := 0 })
  ∧ (∀ (s : State) (c a : Nat), a % 4 = 0 → (s.cell c).up = true → (s.cell c).st = 6 → (s.cell c).on Els.SEC_STAT_UNLOCKED = true → elsAssigned a = true →
      (∀ p, p < 2 → (s.cell c).request p 1 = none) → elsMulti a = none → a ≠ 0x42C → a ≠ 0x708 →
      exec (.registerLowWordRead (some c) a) s = .next { s with lastRead := BitVec.ofNat 32 ((s.cell c).word a) })

/-- Register accesses by address. -/
def Obligations.RegisterAccess : Prop := Claims.RegisterWrites ∧ Claims.RegisterReads

/-! ### Rules stated whole -/

/-- TIME_INCR (R60): 40 bits, of which the high 8 are nanoseconds and the low 32 the fraction that an edge of REFCLK adds; 8 ns after reset; a rate within 500 ppm is
accepted, any other leaves it unchanged and sets INCR_REFUSED. -/
def Obligations.CounterRate : Prop :=
  Reg.TIME_INCR_INCR.width = 40 ∧ State.reset.rd Reg.TIME_INCR_INCR = 8 * 2 ^ 32
  ∧ (∀ s : State, s.pending = [] → s.running = true → s.time.armed = none → s.time.committed = none → ∃ t, step s = .next t
      ∧ t.time.ctr = s.time.ctr + BitVec.ofNat 96 (s.rd Reg.TIME_INCR_INCR % 2 ^ 40))
  ∧ ∀ (s : State) (hi : W32), s.takesWrites = true →
      let v := word2 s 0x1010 Reg.TIME_INCR_INCR hi % 2 ^ 40
      Does (.timeIncrWrite hi) s fun t => SameRegs [Reg.TIME_INCR_INCR, Reg.TIME_STAT_INCR_REFUSED] s t
        ∧ (0x07FEF9DB23 ≤ v ∧ v ≤ 0x08010624DD → t.rd Reg.TIME_INCR_INCR = v ∧ t.rd Reg.TIME_STAT_INCR_REFUSED = s.rd Reg.TIME_STAT_INCR_REFUSED)
        ∧ (¬ (0x07FEF9DB23 ≤ v ∧ v ≤ 0x08010624DD) → t.rd Reg.TIME_INCR_INCR = s.rd Reg.TIME_INCR_INCR ∧ t.on Reg.TIME_STAT_INCR_REFUSED = true)

/-- The Glimmer grid (R69): in M4 Beacons are launched at whole milliseconds of the counter, and there is no epoch and no period Beacon. -/
def Obligations.GlimmerGrid : Prop :=
  ∀ s : State, s.modeNo = 4 → exec .epoch s = .next s ∧ exec .periodBeaconLaunch s = .next s
    ∧ (∀ r u, exec (.managementFrameLaunch r u) s = .next s ∧ exec (.enumerationBeaconLaunch r u) s = .next s ∧ exec (.blockBeaconLaunch r u) s = .next s)
    ∧ (s.running = true → Plain s → s.ns < s.glimmerAt → s.glimmerAt < 2 ^ 64 → Does .glimmerBeaconLaunch s fun t => t.ns % 1000000 = 0 ∧ s.ns < t.ns
        ∧ ∀ r u, (r, u) ∈ s.allTrees → s.treeState r u = 1 → (t.tree r u).lastTxAt = t.time.ctr ∧ timeNs (t.tree r u).lastTxAt % 1000000 = 0)

/-- INT and LIM (R199): the state of INT is the sum limited to LO and HI, unchanged while LIM_DIR is non-zero and has the sign of e; its output, which K_OUT then multiplies
(R197), is the state. LIM applies the rate before the range, and writes LIM_DIR into the loop blocks of the arm. -/
def Obligations.IntegratorStage : Prop :=
  (∀ (s : State) (r e : Nat) (g : Grant) (p : Phrase) (a : Act) (v : VerbDecl), s.runs r e 0x04 = some (g, p, a, v) → a.loops.testBit (par v 0) = true →
    (s.mem g p).good true (s.loopAt g.home (par v 0) + 0x12C) = true →
    let w (k : Nat) : Int := (loaded (s.eng r e) (s.mem g p) (s.loopAt g.home (par v 0) + k)).toInt
    let x := opv (s.eng r e) 0
    let sum := w 0x12C + w 0x120 * x / 1073741824
    let held := w 0x0C ≠ 0 ∧ (0 < w 0x0C ∧ 0 < x ∨ w 0x0C < 0 ∧ x < 0)
    Does (.verbInt r e) s fun t => ∃ st : W32, (s.loopAt g.home (par v 0) + 0x12C, st) ∈ (t.eng r e).stores
      ∧ (held → st.toInt = w 0x12C)
      ∧ (¬ held → w 0x124 ≤ w 0x128 → w 0x124 ≤ st.toInt ∧ st.toInt ≤ w 0x128 ∧ (st.toInt < sum → st.toInt = w 0x128) ∧ (sum < st.toInt → st.toInt = w 0x124))
      ∧ Puts (t.eng r e) 0 (near (st.toInt * w 4 / 1073741824)))
  ∧ ∀ r e : Nat, LimMakes r e

/-- Loop commands under an armed Clause (R213): one that would close a loop of whose words the Clause changes one, as a parameter block with another value there does, is
refused, with LOOP_STAT.REFUSED and the state unchanged; an OPEN applies normally. LIM_DIR, Y_LAST and reserved words are not the Clause's to change (R193, R197). -/
def Obligations.ClausedLoops : Prop :=
  ∀ (s : State) (r l i : Nat) (k : Armed), r < s.dies → l < 64 → s.takesWrites = true → s.clause.armed = some k → i < 76 → i < 2 ∨ 8 ≤ i →
    ((s.preview k.items).rgnWord r ((s.preview k.items).loopAt r l + 4 * i) ≠ s.rgnWord r (s.loopAt r l + 4 * i)
      ∨ ∃ ad body w, k.items = [.param r ad body] ∧ (s.loopAt r l + 4 * i, w) ∈ paramWords ad body ∧ w ≠ s.rgnWord r (s.loopAt r l + 4 * i)) →
    (∀ c, c = .loopCloseKeep r l ∨ c = .loopCloseClear r l → Does c s fun t => t.on (rf r Rgn.LOOP_STAT_REFUSED) = true
        ∧ (t.rgn r).loopReq = (s.rgn r).loopReq ∧ t.loopClosed r l = s.loopClosed r l ∧ SameMem s t)
    ∧ Does (.loopOpen r l) s (fun t => (t.rgn r).loopReq = (s.rgn r).loopReq ++ [(l, 0, s.ns / 2)] ∧ t.regs = s.regs)
    ∧ ∀ (t : State) (n : Nat), exec (.loopOpen r l) s = .next t → s.epochs = true → (s.rgn r).loopReq = [] → s.ns / 2 < n / 2 →
        Does (.loopStateApply r) { t with time := { t.time with epochAt := n } } fun u => u.loopClosed r l = false
end

