-- ==== Sys2Proof/Laws/Maps.lean ====
section
/-! SUPPORT. Laws of finite maps and register files: read after write, and the canonical form. -/

namespace Sys2Proof.Laws
open Sys2Proof.Machine

variable {α : Type}

@[simp] theorem fget_fset_same (d v : α) (m : FMap α) (x : Nat) : fget d (fset x v m) x = v := by
  induction m with
  | nil => simp [fset, fget]
  | cons p t ih =>
    obtain ⟨k, w⟩ := p
    unfold fset
    split
    · simp [fget]
    · split
      · simp [fget]
      · have : k ≠ x := fun h => by simp_all
        simp [fget, this, ih]

theorem fget_fset_ne (d v : α) (m : FMap α) {x y : Nat} (h : y ≠ x) : fget d (fset x v m) y = fget d m y := by
  induction m with
  | nil => simp [fset, fget, Ne.symm h]
  | cons p t ih =>
    obtain ⟨k, w⟩ := p
    unfold fset
    split
    · simp [fget, Ne.symm h]
    · split
      · subst_vars; simp [fget, Ne.symm h]
      · simp [fget, ih]

@[simp] theorem fget_fdel_same (d : α) (m : FMap α) (x : Nat) : fget d (fdel x m) x = d := by
  induction m with
  | nil => rfl
  | cons p t ih =>
    obtain ⟨k, w⟩ := p
    unfold fdel
    split
    · exact ih
    · simp_all [fget]

theorem fget_fdel_ne (d : α) (m : FMap α) {x y : Nat} (h : y ≠ x) : fget d (fdel x m) y = fget d m y := by
  induction m with
  | nil => rfl
  | cons p t ih =>
    obtain ⟨k, w⟩ := p
    unfold fdel
    split
    · subst_vars; simp [fget, Ne.symm h, ih]
    · simp [fget, ih]

@[simp] theorem fget_fmod_same (d : α) (m : FMap α) (x : Nat) (f : α → α) : fget d (fmod d x f m) x = f (fget d m x) := by
  simp [fmod]

theorem fget_fmod_ne (d : α) (m : FMap α) (f : α → α) {x y : Nat} (h : y ≠ x) : fget d (fmod d x f m) y = fget d m y := by
  simp [fmod, fget_fset_ne _ _ _ h]

@[simp] theorem fhas_fset_same (v : α) (m : FMap α) (x : Nat) : fhas (fset x v m) x = true := by
  induction m with
  | nil => simp [fset, fhas]
  | cons p t ih =>
    obtain ⟨k, w⟩ := p
    unfold fset
    split
    · simp [fhas]
    · split
      · simp [fhas]
      · simp [fhas, ih]

@[simp] theorem fhas_fdel_same (m : FMap α) (x : Nat) : fhas (fdel x m) x = false := by
  induction m with
  | nil => rfl
  | cons p t ih =>
    obtain ⟨k, w⟩ := p
    unfold fdel
    split
    · exact ih
    · simp_all [fhas]

/-- A field reads what was written, to its width. -/
@[simp] theorem rd_wr_same (m : Regs) (f : Fld) (v : Nat) : (m.wr f v).rd f = v % 2 ^ f.width := by
  unfold Regs.wr Regs.rd
  split
  · simp_all
  · simp

/-- A field keeps its value when another is written. -/
theorem rd_wr_ne (m : Regs) (f g : Fld) (v : Nat) (h : g.lsb ≠ f.lsb) : (m.wr f v).rd g = m.rd g := by
  unfold Regs.wr Regs.rd
  split
  · exact fget_fdel_ne _ _ h
  · exact fget_fset_ne _ _ _ h

/-- Rising keys above a bound. -/
theorem frising_cons {k : Nat} {v : α} {m : FMap α} : frising ((k, v) :: m) = true ↔ (∀ p ∈ m, k < p.1) ∧ frising m = true := by
  induction m generalizing k v with
  | nil => simp [frising]
  | cons p t ih =>
    obtain ⟨j, w⟩ := p
    rw [frising, Bool.and_eq_true, decide_eq_true_eq, ih]
    constructor
    · rintro ⟨hk, ht, hr⟩
      refine ⟨?_, ht, hr⟩
      intro q hq
      rcases List.mem_cons.mp hq with h | h
      · subst h; exact hk
      · exact Nat.lt_trans hk (ht q h)
    · rintro ⟨hall, ht, hr⟩
      exact ⟨hall (j, w) (List.mem_cons_self ..), ht, hr⟩

theorem mem_fset {x : Nat} {v : α} {m : FMap α} {p : Nat × α} (h : p ∈ fset x v m) : p = (x, v) ∨ p ∈ m := by
  induction m with
  | nil => simpa [fset] using h
  | cons q t ih =>
    obtain ⟨k, w⟩ := q
    unfold fset at h
    split at h
    · rcases List.mem_cons.mp h with h | h
      · exact .inl h
      · exact .inr h
    · split at h
      · rcases List.mem_cons.mp h with h | h
        · exact .inl h
        · exact .inr (List.mem_cons_of_mem _ h)
      · rcases List.mem_cons.mp h with h | h
        · exact .inr (h ▸ List.mem_cons_self ..)
        · rcases ih h with h | h
          · exact .inl h
          · exact .inr (List.mem_cons_of_mem _ h)

theorem mem_fdel {x : Nat} {m : FMap α} {p : Nat × α} (h : p ∈ fdel x m) : p ∈ m := by
  induction m with
  | nil => simp [fdel] at h
  | cons q t ih =>
    obtain ⟨k, w⟩ := q
    unfold fdel at h
    split at h
    · exact List.mem_cons_of_mem _ (ih h)
    · rcases List.mem_cons.mp h with h | h
      · exact h ▸ List.mem_cons_self ..
      · exact List.mem_cons_of_mem _ (ih h)

/-- Writing a key keeps the keys rising. -/
theorem frising_fset {x : Nat} {v : α} {m : FMap α} (h : frising m = true) : frising (fset x v m) = true := by
  induction m with
  | nil => rfl
  | cons q t ih =>
    obtain ⟨k, w⟩ := q
    have hk := frising_cons.mp h
    unfold fset
    split
    · refine frising_cons.mpr ⟨?_, h⟩
      intro p hp
      rcases List.mem_cons.mp hp with e | e
      · subst e; assumption
      · exact Nat.lt_trans ‹x < k› (hk.1 p e)
    · split
      · subst_vars; exact frising_cons.mpr hk
      · refine frising_cons.mpr ⟨?_, ih hk.2⟩
        intro p hp
        rcases mem_fset hp with e | e
        · subst e; simp; omega
        · exact hk.1 p e

/-- So does removing one. -/
theorem frising_fdel {x : Nat} {m : FMap α} (h : frising m = true) : frising (fdel x m) = true := by
  induction m with
  | nil => rfl
  | cons q t ih =>
    obtain ⟨k, w⟩ := q
    have hk := frising_cons.mp h
    unfold fdel
    split
    · exact ih hk.2
    · exact frising_cons.mpr ⟨fun p hp => hk.1 p (mem_fdel hp), ih hk.2⟩

end Sys2Proof.Laws
end

