-- ==== Sys2Proof/Laws/Mem.lean ====
section
/-! SUPPORT. Laws of byte memory: read after write, and that every memory operation keeps the canonical form. -/

namespace Sys2Proof.Laws
open Sys2Proof.Machine

@[simp] theorem memGet_memSet_same (m : Memory) (a : Nat) (b : Byte) : memGet (memSet m a b) a = b := by
  unfold memGet memSet
  split <;> simp_all

theorem memGet_memSet_ne (m : Memory) {a x : Nat} (b : Byte) (h : x ≠ a) : memGet (memSet m a b) x = memGet m x := by
  unfold memGet memSet
  split
  · exact fget_fdel_ne _ _ h
  · exact fget_fset_ne _ _ _ h

/-- A byte outside those written reads as before. -/
theorem memGet_memWrite_out (l : List Byte) (m : Memory) (a x : Nat) (h : x < a ∨ a + l.length ≤ x) :
    memGet (memWrite m a l) x = memGet m x := by
  induction l generalizing m a with
  | nil => rfl
  | cons b t ih =>
    simp only [memWrite, List.length_cons] at h ⊢
    rw [ih _ _ (by omega), memGet_memSet_ne _ _ (by omega)]

/-- The i-th byte written reads back. -/
theorem memGet_memWrite_in (l : List Byte) (m : Memory) (a i : Nat) (h : i < l.length) :
    memGet (memWrite m a l) (a + i) = l[i] := by
  induction l generalizing m a i with
  | nil => simp at h
  | cons b t ih =>
    cases i with
    | zero => simp only [memWrite]; rw [memGet_memWrite_out _ _ _ _ (by omega)]; simp
    | succ i =>
      simp only [memWrite, List.getElem_cons_succ]
      have := ih (memSet m a b) (a + 1) i (by simpa using h)
      rwa [show a + (i + 1) = a + 1 + i by omega]

theorem memRead_memWrite (l : List Byte) (m : Memory) (a : Nat) : memRead (memWrite m a l) a l.length = l := by
  induction l generalizing m a with
  | nil => rfl
  | cons b t ih =>
    simp only [memWrite, List.length_cons, memRead]
    rw [memGet_memWrite_out _ _ _ _ (by omega), ih]; simp

theorem wf_iff (m : Memory) : Memory.wf m = true ↔ frising m = true ∧ ∀ p ∈ m, p.2 ≠ 0 := by
  simp [Memory.wf, List.all_eq_true]

theorem memSet_wf {m : Memory} (a : Nat) (b : Byte) (h : Memory.wf m = true) : Memory.wf (memSet m a b) = true := by
  rw [wf_iff] at h ⊢
  unfold memSet
  split
  · exact ⟨frising_fdel h.1, fun p hp => h.2 p (mem_fdel hp)⟩
  · refine ⟨frising_fset h.1, fun p hp => ?_⟩
    rcases mem_fset hp with e | e
    · subst e; assumption
    · exact h.2 p e

theorem memWrite_wf (l : List Byte) {m : Memory} (a : Nat) (h : Memory.wf m = true) : Memory.wf (memWrite m a l) = true := by
  induction l generalizing m a with
  | nil => exact h
  | cons b t ih => exact ih (a + 1) (memSet_wf a b h)

theorem frising_filter {α : Type} (f : Nat × α → Bool) {m : FMap α} (h : frising m = true) : frising (m.filter f) = true := by
  induction m with
  | nil => rfl
  | cons q t ih =>
    obtain ⟨k, w⟩ := q
    have hk := frising_cons.mp h
    rw [List.filter_cons]
    split
    · exact frising_cons.mpr ⟨fun p hp => hk.1 p ((List.mem_filter.mp hp).1), ih hk.2⟩
    · exact ih hk.2

/-- A part of a canonical memory is canonical. -/
theorem filter_wf (f : Nat × Byte → Bool) {m : Memory} (h : Memory.wf m = true) : Memory.wf (m.filter f) = true := by
  rw [wf_iff] at h ⊢
  exact ⟨frising_filter f h.1, fun p hp => h.2 p ((List.mem_filter.mp hp).1)⟩

theorem rgnWrite_wf (s : State) (r a : Nat) (l : List Byte) (h : Memory.wf s.sram = true) : Memory.wf (s.rgnWrite r a l).sram = true :=
  memWrite_wf l _ h
theorem setWord_wf (s : State) (r a : Nat) (w : W32) (h : Memory.wf s.sram = true) : Memory.wf (s.setWord r a w).sram = true :=
  memWrite_wf _ _ h
theorem cellWrite_wf (s : State) (c a : Nat) (l : List Byte) (h : Memory.wf s.cellMem = true) : Memory.wf (s.cellWrite c a l).cellMem = true :=
  memWrite_wf l _ h

end Sys2Proof.Laws
end

