-- ==== Sys2Proof/Laws/State.lean ====
section
/-! SUPPORT. What each update of State leaves alone, one lemma per field, and what it leaves where it writes. -/

namespace Sys2Proof.Laws
open Sys2Proof.Machine

variable (s : State)

@[simp] theorem wr_lastRead (f : Fld) (v : Nat) : (s.wr f v).lastRead = s.lastRead := rfl
@[simp] theorem wr_latch (f : Fld) (v : Nat) : (s.wr f v).latch = s.latch := rfl
@[simp] theorem wr_held (f : Fld) (v : Nat) : (s.wr f v).held = s.held := rfl
@[simp] theorem wr_free (f : Fld) (v : Nat) : (s.wr f v).free = s.free := rfl
@[simp] theorem wr_time (f : Fld) (v : Nat) : (s.wr f v).time = s.time := rfl
@[simp] theorem wr_colls (f : Fld) (v : Nat) : (s.wr f v).colls = s.colls := rfl
@[simp] theorem wr_evLost (f : Fld) (v : Nat) : (s.wr f v).evLost = s.evLost := rfl
@[simp] theorem wr_mode (f : Fld) (v : Nat) : (s.wr f v).mode = s.mode := rfl
@[simp] theorem wr_host (f : Fld) (v : Nat) : (s.wr f v).host = s.host := rfl
@[simp] theorem wr_clause (f : Fld) (v : Nat) : (s.wr f v).clause = s.clause := rfl
@[simp] theorem wr_trees (f : Fld) (v : Nat) : (s.wr f v).trees = s.trees := rfl
@[simp] theorem wr_arms (f : Fld) (v : Nat) : (s.wr f v).arms = s.arms := rfl
@[simp] theorem wr_disp (f : Fld) (v : Nat) : (s.wr f v).disp = s.disp := rfl
@[simp] theorem wr_sram (f : Fld) (v : Nat) : (s.wr f v).sram = s.sram := rfl
@[simp] theorem wr_cellMem (f : Fld) (v : Nat) : (s.wr f v).cellMem = s.cellMem := rfl
@[simp] theorem wr_rgns (f : Fld) (v : Nat) : (s.wr f v).rgns = s.rgns := rfl
@[simp] theorem wr_rank (f : Fld) (v : Nat) : (s.wr f v).rank = s.rank := rfl
@[simp] theorem wr_image (f : Fld) (v : Nat) : (s.wr f v).image = s.image := rfl
@[simp] theorem wr_imageSet (f : Fld) (v : Nat) : (s.wr f v).imageSet = s.imageSet := rfl
@[simp] theorem wr_candidate (f : Fld) (v : Nat) : (s.wr f v).candidate = s.candidate := rfl
@[simp] theorem wr_imageNo (f : Fld) (v : Nat) : (s.wr f v).imageNo = s.imageNo := rfl
@[simp] theorem wr_mirror (f : Fld) (v : Nat) : (s.wr f v).mirror = s.mirror := rfl
@[simp] theorem wr_stn (f : Fld) (v : Nat) : (s.wr f v).stn = s.stn := rfl
@[simp] theorem wr_cells (f : Fld) (v : Nat) : (s.wr f v).cells = s.cells := rfl
@[simp] theorem wr_sec (f : Fld) (v : Nat) : (s.wr f v).sec = s.sec := rfl
@[simp] theorem wr_pending (f : Fld) (v : Nat) : (s.wr f v).pending = s.pending := rfl
@[simp] theorem inc_lastRead (f : Fld) : (s.inc f).lastRead = s.lastRead := rfl
@[simp] theorem inc_latch (f : Fld) : (s.inc f).latch = s.latch := rfl
@[simp] theorem inc_held (f : Fld) : (s.inc f).held = s.held := rfl
@[simp] theorem inc_free (f : Fld) : (s.inc f).free = s.free := rfl
@[simp] theorem inc_time (f : Fld) : (s.inc f).time = s.time := rfl
@[simp] theorem inc_colls (f : Fld) : (s.inc f).colls = s.colls := rfl
@[simp] theorem inc_evLost (f : Fld) : (s.inc f).evLost = s.evLost := rfl
@[simp] theorem inc_mode (f : Fld) : (s.inc f).mode = s.mode := rfl
@[simp] theorem inc_host (f : Fld) : (s.inc f).host = s.host := rfl
@[simp] theorem inc_clause (f : Fld) : (s.inc f).clause = s.clause := rfl
@[simp] theorem inc_trees (f : Fld) : (s.inc f).trees = s.trees := rfl
@[simp] theorem inc_arms (f : Fld) : (s.inc f).arms = s.arms := rfl
@[simp] theorem inc_disp (f : Fld) : (s.inc f).disp = s.disp := rfl
@[simp] theorem inc_sram (f : Fld) : (s.inc f).sram = s.sram := rfl
@[simp] theorem inc_cellMem (f : Fld) : (s.inc f).cellMem = s.cellMem := rfl
@[simp] theorem inc_rgns (f : Fld) : (s.inc f).rgns = s.rgns := rfl
@[simp] theorem inc_rank (f : Fld) : (s.inc f).rank = s.rank := rfl
@[simp] theorem inc_image (f : Fld) : (s.inc f).image = s.image := rfl
@[simp] theorem inc_imageSet (f : Fld) : (s.inc f).imageSet = s.imageSet := rfl
@[simp] theorem inc_candidate (f : Fld) : (s.inc f).candidate = s.candidate := rfl
@[simp] theorem inc_imageNo (f : Fld) : (s.inc f).imageNo = s.imageNo := rfl
@[simp] theorem inc_mirror (f : Fld) : (s.inc f).mirror = s.mirror := rfl
@[simp] theorem inc_stn (f : Fld) : (s.inc f).stn = s.stn := rfl
@[simp] theorem inc_cells (f : Fld) : (s.inc f).cells = s.cells := rfl
@[simp] theorem inc_sec (f : Fld) : (s.inc f).sec = s.sec := rfl
@[simp] theorem inc_pending (f : Fld) : (s.inc f).pending = s.pending := rfl
@[simp] theorem incBy_lastRead (f : Fld) (n : Nat) : (s.incBy f n).lastRead = s.lastRead := rfl
@[simp] theorem incBy_latch (f : Fld) (n : Nat) : (s.incBy f n).latch = s.latch := rfl
@[simp] theorem incBy_held (f : Fld) (n : Nat) : (s.incBy f n).held = s.held := rfl
@[simp] theorem incBy_free (f : Fld) (n : Nat) : (s.incBy f n).free = s.free := rfl
@[simp] theorem incBy_time (f : Fld) (n : Nat) : (s.incBy f n).time = s.time := rfl
@[simp] theorem incBy_colls (f : Fld) (n : Nat) : (s.incBy f n).colls = s.colls := rfl
@[simp] theorem incBy_evLost (f : Fld) (n : Nat) : (s.incBy f n).evLost = s.evLost := rfl
@[simp] theorem incBy_mode (f : Fld) (n : Nat) : (s.incBy f n).mode = s.mode := rfl
@[simp] theorem incBy_host (f : Fld) (n : Nat) : (s.incBy f n).host = s.host := rfl
@[simp] theorem incBy_clause (f : Fld) (n : Nat) : (s.incBy f n).clause = s.clause := rfl
@[simp] theorem incBy_trees (f : Fld) (n : Nat) : (s.incBy f n).trees = s.trees := rfl
@[simp] theorem incBy_arms (f : Fld) (n : Nat) : (s.incBy f n).arms = s.arms := rfl
@[simp] theorem incBy_disp (f : Fld) (n : Nat) : (s.incBy f n).disp = s.disp := rfl
@[simp] theorem incBy_sram (f : Fld) (n : Nat) : (s.incBy f n).sram = s.sram := rfl
@[simp] theorem incBy_cellMem (f : Fld) (n : Nat) : (s.incBy f n).cellMem = s.cellMem := rfl
@[simp] theorem incBy_rgns (f : Fld) (n : Nat) : (s.incBy f n).rgns = s.rgns := rfl
@[simp] theorem incBy_rank (f : Fld) (n : Nat) : (s.incBy f n).rank = s.rank := rfl
@[simp] theorem incBy_image (f : Fld) (n : Nat) : (s.incBy f n).image = s.image := rfl
@[simp] theorem incBy_imageSet (f : Fld) (n : Nat) : (s.incBy f n).imageSet = s.imageSet := rfl
@[simp] theorem incBy_candidate (f : Fld) (n : Nat) : (s.incBy f n).candidate = s.candidate := rfl
@[simp] theorem incBy_imageNo (f : Fld) (n : Nat) : (s.incBy f n).imageNo = s.imageNo := rfl
@[simp] theorem incBy_mirror (f : Fld) (n : Nat) : (s.incBy f n).mirror = s.mirror := rfl
@[simp] theorem incBy_stn (f : Fld) (n : Nat) : (s.incBy f n).stn = s.stn := rfl
@[simp] theorem incBy_cells (f : Fld) (n : Nat) : (s.incBy f n).cells = s.cells := rfl
@[simp] theorem incBy_sec (f : Fld) (n : Nat) : (s.incBy f n).sec = s.sec := rfl
@[simp] theorem incBy_pending (f : Fld) (n : Nat) : (s.incBy f n).pending = s.pending := rfl
@[simp] theorem modTree_regs (r t : Nat) (g : TreeSt → TreeSt) : (s.modTree r t g).regs = s.regs := rfl
@[simp] theorem modTree_lastRead (r t : Nat) (g : TreeSt → TreeSt) : (s.modTree r t g).lastRead = s.lastRead := rfl
@[simp] theorem modTree_latch (r t : Nat) (g : TreeSt → TreeSt) : (s.modTree r t g).latch = s.latch := rfl
@[simp] theorem modTree_held (r t : Nat) (g : TreeSt → TreeSt) : (s.modTree r t g).held = s.held := rfl
@[simp] theorem modTree_free (r t : Nat) (g : TreeSt → TreeSt) : (s.modTree r t g).free = s.free := rfl
@[simp] theorem modTree_hwSet (r t : Nat) (g : TreeSt → TreeSt) : (s.modTree r t g).hwSet = s.hwSet := rfl
@[simp] theorem modTree_time (r t : Nat) (g : TreeSt → TreeSt) : (s.modTree r t g).time = s.time := rfl
@[simp] theorem modTree_colls (r t : Nat) (g : TreeSt → TreeSt) : (s.modTree r t g).colls = s.colls := rfl
@[simp] theorem modTree_evLost (r t : Nat) (g : TreeSt → TreeSt) : (s.modTree r t g).evLost = s.evLost := rfl
@[simp] theorem modTree_mode (r t : Nat) (g : TreeSt → TreeSt) : (s.modTree r t g).mode = s.mode := rfl
@[simp] theorem modTree_host (r t : Nat) (g : TreeSt → TreeSt) : (s.modTree r t g).host = s.host := rfl
@[simp] theorem modTree_clause (r t : Nat) (g : TreeSt → TreeSt) : (s.modTree r t g).clause = s.clause := rfl
@[simp] theorem modTree_arms (r t : Nat) (g : TreeSt → TreeSt) : (s.modTree r t g).arms = s.arms := rfl
@[simp] theorem modTree_disp (r t : Nat) (g : TreeSt → TreeSt) : (s.modTree r t g).disp = s.disp := rfl
@[simp] theorem modTree_sram (r t : Nat) (g : TreeSt → TreeSt) : (s.modTree r t g).sram = s.sram := rfl
@[simp] theorem modTree_cellMem (r t : Nat) (g : TreeSt → TreeSt) : (s.modTree r t g).cellMem = s.cellMem := rfl
@[simp] theorem modTree_rgns (r t : Nat) (g : TreeSt → TreeSt) : (s.modTree r t g).rgns = s.rgns := rfl
@[simp] theorem modTree_rank (r t : Nat) (g : TreeSt → TreeSt) : (s.modTree r t g).rank = s.rank := rfl
@[simp] theorem modTree_image (r t : Nat) (g : TreeSt → TreeSt) : (s.modTree r t g).image = s.image := rfl
@[simp] theorem modTree_imageSet (r t : Nat) (g : TreeSt → TreeSt) : (s.modTree r t g).imageSet = s.imageSet := rfl
@[simp] theorem modTree_candidate (r t : Nat) (g : TreeSt → TreeSt) : (s.modTree r t g).candidate = s.candidate := rfl
@[simp] theorem modTree_imageNo (r t : Nat) (g : TreeSt → TreeSt) : (s.modTree r t g).imageNo = s.imageNo := rfl
@[simp] theorem modTree_mirror (r t : Nat) (g : TreeSt → TreeSt) : (s.modTree r t g).mirror = s.mirror := rfl
@[simp] theorem modTree_stn (r t : Nat) (g : TreeSt → TreeSt) : (s.modTree r t g).stn = s.stn := rfl
@[simp] theorem modTree_cells (r t : Nat) (g : TreeSt → TreeSt) : (s.modTree r t g).cells = s.cells := rfl
@[simp] theorem modTree_sec (r t : Nat) (g : TreeSt → TreeSt) : (s.modTree r t g).sec = s.sec := rfl
@[simp] theorem modTree_pending (r t : Nat) (g : TreeSt → TreeSt) : (s.modTree r t g).pending = s.pending := rfl
@[simp] theorem modSlot_regs (r t j : Nat) (g : SlotSt → SlotSt) : (s.modSlot r t j g).regs = s.regs := rfl
@[simp] theorem modSlot_lastRead (r t j : Nat) (g : SlotSt → SlotSt) : (s.modSlot r t j g).lastRead = s.lastRead := rfl
@[simp] theorem modSlot_latch (r t j : Nat) (g : SlotSt → SlotSt) : (s.modSlot r t j g).latch = s.latch := rfl
@[simp] theorem modSlot_held (r t j : Nat) (g : SlotSt → SlotSt) : (s.modSlot r t j g).held = s.held := rfl
@[simp] theorem modSlot_free (r t j : Nat) (g : SlotSt → SlotSt) : (s.modSlot r t j g).free = s.free := rfl
@[simp] theorem modSlot_hwSet (r t j : Nat) (g : SlotSt → SlotSt) : (s.modSlot r t j g).hwSet = s.hwSet := rfl
@[simp] theorem modSlot_time (r t j : Nat) (g : SlotSt → SlotSt) : (s.modSlot r t j g).time = s.time := rfl
@[simp] theorem modSlot_colls (r t j : Nat) (g : SlotSt → SlotSt) : (s.modSlot r t j g).colls = s.colls := rfl
@[simp] theorem modSlot_evLost (r t j : Nat) (g : SlotSt → SlotSt) : (s.modSlot r t j g).evLost = s.evLost := rfl
@[simp] theorem modSlot_mode (r t j : Nat) (g : SlotSt → SlotSt) : (s.modSlot r t j g).mode = s.mode := rfl
@[simp] theorem modSlot_host (r t j : Nat) (g : SlotSt → SlotSt) : (s.modSlot r t j g).host = s.host := rfl
@[simp] theorem modSlot_clause (r t j : Nat) (g : SlotSt → SlotSt) : (s.modSlot r t j g).clause = s.clause := rfl
@[simp] theorem modSlot_arms (r t j : Nat) (g : SlotSt → SlotSt) : (s.modSlot r t j g).arms = s.arms := rfl
@[simp] theorem modSlot_disp (r t j : Nat) (g : SlotSt → SlotSt) : (s.modSlot r t j g).disp = s.disp := rfl
@[simp] theorem modSlot_sram (r t j : Nat) (g : SlotSt → SlotSt) : (s.modSlot r t j g).sram = s.sram := rfl
@[simp] theorem modSlot_cellMem (r t j : Nat) (g : SlotSt → SlotSt) : (s.modSlot r t j g).cellMem = s.cellMem := rfl
@[simp] theorem modSlot_rgns (r t j : Nat) (g : SlotSt → SlotSt) : (s.modSlot r t j g).rgns = s.rgns := rfl
@[simp] theorem modSlot_rank (r t j : Nat) (g : SlotSt → SlotSt) : (s.modSlot r t j g).rank = s.rank := rfl
@[simp] theorem modSlot_image (r t j : Nat) (g : SlotSt → SlotSt) : (s.modSlot r t j g).image = s.image := rfl
@[simp] theorem modSlot_imageSet (r t j : Nat) (g : SlotSt → SlotSt) : (s.modSlot r t j g).imageSet = s.imageSet := rfl
@[simp] theorem modSlot_candidate (r t j : Nat) (g : SlotSt → SlotSt) : (s.modSlot r t j g).candidate = s.candidate := rfl
@[simp] theorem modSlot_imageNo (r t j : Nat) (g : SlotSt → SlotSt) : (s.modSlot r t j g).imageNo = s.imageNo := rfl
@[simp] theorem modSlot_mirror (r t j : Nat) (g : SlotSt → SlotSt) : (s.modSlot r t j g).mirror = s.mirror := rfl
@[simp] theorem modSlot_stn (r t j : Nat) (g : SlotSt → SlotSt) : (s.modSlot r t j g).stn = s.stn := rfl
@[simp] theorem modSlot_cells (r t j : Nat) (g : SlotSt → SlotSt) : (s.modSlot r t j g).cells = s.cells := rfl
@[simp] theorem modSlot_sec (r t j : Nat) (g : SlotSt → SlotSt) : (s.modSlot r t j g).sec = s.sec := rfl
@[simp] theorem modSlot_pending (r t j : Nat) (g : SlotSt → SlotSt) : (s.modSlot r t j g).pending = s.pending := rfl
@[simp] theorem modRing_regs (n : Nat) (g : RingSt → RingSt) : (s.modRing n g).regs = s.regs := rfl
@[simp] theorem modRing_lastRead (n : Nat) (g : RingSt → RingSt) : (s.modRing n g).lastRead = s.lastRead := rfl
@[simp] theorem modRing_latch (n : Nat) (g : RingSt → RingSt) : (s.modRing n g).latch = s.latch := rfl
@[simp] theorem modRing_held (n : Nat) (g : RingSt → RingSt) : (s.modRing n g).held = s.held := rfl
@[simp] theorem modRing_free (n : Nat) (g : RingSt → RingSt) : (s.modRing n g).free = s.free := rfl
@[simp] theorem modRing_hwSet (n : Nat) (g : RingSt → RingSt) : (s.modRing n g).hwSet = s.hwSet := rfl
@[simp] theorem modRing_time (n : Nat) (g : RingSt → RingSt) : (s.modRing n g).time = s.time := rfl
@[simp] theorem modRing_colls (n : Nat) (g : RingSt → RingSt) : (s.modRing n g).colls = s.colls := rfl
@[simp] theorem modRing_evLost (n : Nat) (g : RingSt → RingSt) : (s.modRing n g).evLost = s.evLost := rfl
@[simp] theorem modRing_mode (n : Nat) (g : RingSt → RingSt) : (s.modRing n g).mode = s.mode := rfl
@[simp] theorem modRing_clause (n : Nat) (g : RingSt → RingSt) : (s.modRing n g).clause = s.clause := rfl
@[simp] theorem modRing_trees (n : Nat) (g : RingSt → RingSt) : (s.modRing n g).trees = s.trees := rfl
@[simp] theorem modRing_arms (n : Nat) (g : RingSt → RingSt) : (s.modRing n g).arms = s.arms := rfl
@[simp] theorem modRing_disp (n : Nat) (g : RingSt → RingSt) : (s.modRing n g).disp = s.disp := rfl
@[simp] theorem modRing_sram (n : Nat) (g : RingSt → RingSt) : (s.modRing n g).sram = s.sram := rfl
@[simp] theorem modRing_cellMem (n : Nat) (g : RingSt → RingSt) : (s.modRing n g).cellMem = s.cellMem := rfl
@[simp] theorem modRing_rgns (n : Nat) (g : RingSt → RingSt) : (s.modRing n g).rgns = s.rgns := rfl
@[simp] theorem modRing_rank (n : Nat) (g : RingSt → RingSt) : (s.modRing n g).rank = s.rank := rfl
@[simp] theorem modRing_image (n : Nat) (g : RingSt → RingSt) : (s.modRing n g).image = s.image := rfl
@[simp] theorem modRing_imageSet (n : Nat) (g : RingSt → RingSt) : (s.modRing n g).imageSet = s.imageSet := rfl
@[simp] theorem modRing_candidate (n : Nat) (g : RingSt → RingSt) : (s.modRing n g).candidate = s.candidate := rfl
@[simp] theorem modRing_imageNo (n : Nat) (g : RingSt → RingSt) : (s.modRing n g).imageNo = s.imageNo := rfl
@[simp] theorem modRing_mirror (n : Nat) (g : RingSt → RingSt) : (s.modRing n g).mirror = s.mirror := rfl
@[simp] theorem modRing_stn (n : Nat) (g : RingSt → RingSt) : (s.modRing n g).stn = s.stn := rfl
@[simp] theorem modRing_cells (n : Nat) (g : RingSt → RingSt) : (s.modRing n g).cells = s.cells := rfl
@[simp] theorem modRing_sec (n : Nat) (g : RingSt → RingSt) : (s.modRing n g).sec = s.sec := rfl
@[simp] theorem modRing_pending (n : Nat) (g : RingSt → RingSt) : (s.modRing n g).pending = s.pending := rfl
@[simp] theorem modColl_regs (c : Coll) (g : CollSt → CollSt) : (s.modColl c g).regs = s.regs := rfl
@[simp] theorem modColl_lastRead (c : Coll) (g : CollSt → CollSt) : (s.modColl c g).lastRead = s.lastRead := rfl
@[simp] theorem modColl_latch (c : Coll) (g : CollSt → CollSt) : (s.modColl c g).latch = s.latch := rfl
@[simp] theorem modColl_held (c : Coll) (g : CollSt → CollSt) : (s.modColl c g).held = s.held := rfl
@[simp] theorem modColl_free (c : Coll) (g : CollSt → CollSt) : (s.modColl c g).free = s.free := rfl
@[simp] theorem modColl_hwSet (c : Coll) (g : CollSt → CollSt) : (s.modColl c g).hwSet = s.hwSet := rfl
@[simp] theorem modColl_time (c : Coll) (g : CollSt → CollSt) : (s.modColl c g).time = s.time := rfl
@[simp] theorem modColl_evLost (c : Coll) (g : CollSt → CollSt) : (s.modColl c g).evLost = s.evLost := rfl
@[simp] theorem modColl_mode (c : Coll) (g : CollSt → CollSt) : (s.modColl c g).mode = s.mode := rfl
@[simp] theorem modColl_host (c : Coll) (g : CollSt → CollSt) : (s.modColl c g).host = s.host := rfl
@[simp] theorem modColl_clause (c : Coll) (g : CollSt → CollSt) : (s.modColl c g).clause = s.clause := rfl
@[simp] theorem modColl_trees (c : Coll) (g : CollSt → CollSt) : (s.modColl c g).trees = s.trees := rfl
@[simp] theorem modColl_arms (c : Coll) (g : CollSt → CollSt) : (s.modColl c g).arms = s.arms := rfl
@[simp] theorem modColl_disp (c : Coll) (g : CollSt → CollSt) : (s.modColl c g).disp = s.disp := rfl
@[simp] theorem modColl_sram (c : Coll) (g : CollSt → CollSt) : (s.modColl c g).sram = s.sram := rfl
@[simp] theorem modColl_cellMem (c : Coll) (g : CollSt → CollSt) : (s.modColl c g).cellMem = s.cellMem := rfl
@[simp] theorem modColl_rgns (c : Coll) (g : CollSt → CollSt) : (s.modColl c g).rgns = s.rgns := rfl
@[simp] theorem modColl_rank (c : Coll) (g : CollSt → CollSt) : (s.modColl c g).rank = s.rank := rfl
@[simp] theorem modColl_image (c : Coll) (g : CollSt → CollSt) : (s.modColl c g).image = s.image := rfl
@[simp] theorem modColl_imageSet (c : Coll) (g : CollSt → CollSt) : (s.modColl c g).imageSet = s.imageSet := rfl
@[simp] theorem modColl_candidate (c : Coll) (g : CollSt → CollSt) : (s.modColl c g).candidate = s.candidate := rfl
@[simp] theorem modColl_imageNo (c : Coll) (g : CollSt → CollSt) : (s.modColl c g).imageNo = s.imageNo := rfl
@[simp] theorem modColl_mirror (c : Coll) (g : CollSt → CollSt) : (s.modColl c g).mirror = s.mirror := rfl
@[simp] theorem modColl_stn (c : Coll) (g : CollSt → CollSt) : (s.modColl c g).stn = s.stn := rfl
@[simp] theorem modColl_cells (c : Coll) (g : CollSt → CollSt) : (s.modColl c g).cells = s.cells := rfl
@[simp] theorem modColl_sec (c : Coll) (g : CollSt → CollSt) : (s.modColl c g).sec = s.sec := rfl
@[simp] theorem modColl_pending (c : Coll) (g : CollSt → CollSt) : (s.modColl c g).pending = s.pending := rfl
@[simp] theorem raise_regs (c : Coll) (o : Occ) : (s.raise c o).regs = s.regs := rfl
@[simp] theorem raise_lastRead (c : Coll) (o : Occ) : (s.raise c o).lastRead = s.lastRead := rfl
@[simp] theorem raise_latch (c : Coll) (o : Occ) : (s.raise c o).latch = s.latch := rfl
@[simp] theorem raise_held (c : Coll) (o : Occ) : (s.raise c o).held = s.held := rfl
@[simp] theorem raise_free (c : Coll) (o : Occ) : (s.raise c o).free = s.free := rfl
@[simp] theorem raise_hwSet (c : Coll) (o : Occ) : (s.raise c o).hwSet = s.hwSet := rfl
@[simp] theorem raise_time (c : Coll) (o : Occ) : (s.raise c o).time = s.time := rfl
@[simp] theorem raise_evLost (c : Coll) (o : Occ) : (s.raise c o).evLost = s.evLost := rfl
@[simp] theorem raise_mode (c : Coll) (o : Occ) : (s.raise c o).mode = s.mode := rfl
@[simp] theorem raise_host (c : Coll) (o : Occ) : (s.raise c o).host = s.host := rfl
@[simp] theorem raise_clause (c : Coll) (o : Occ) : (s.raise c o).clause = s.clause := rfl
@[simp] theorem raise_trees (c : Coll) (o : Occ) : (s.raise c o).trees = s.trees := rfl
@[simp] theorem raise_arms (c : Coll) (o : Occ) : (s.raise c o).arms = s.arms := rfl
@[simp] theorem raise_disp (c : Coll) (o : Occ) : (s.raise c o).disp = s.disp := rfl
@[simp] theorem raise_sram (c : Coll) (o : Occ) : (s.raise c o).sram = s.sram := rfl
@[simp] theorem raise_cellMem (c : Coll) (o : Occ) : (s.raise c o).cellMem = s.cellMem := rfl
@[simp] theorem raise_rgns (c : Coll) (o : Occ) : (s.raise c o).rgns = s.rgns := rfl
@[simp] theorem raise_rank (c : Coll) (o : Occ) : (s.raise c o).rank = s.rank := rfl
@[simp] theorem raise_image (c : Coll) (o : Occ) : (s.raise c o).image = s.image := rfl
@[simp] theorem raise_imageSet (c : Coll) (o : Occ) : (s.raise c o).imageSet = s.imageSet := rfl
@[simp] theorem raise_candidate (c : Coll) (o : Occ) : (s.raise c o).candidate = s.candidate := rfl
@[simp] theorem raise_imageNo (c : Coll) (o : Occ) : (s.raise c o).imageNo = s.imageNo := rfl
@[simp] theorem raise_mirror (c : Coll) (o : Occ) : (s.raise c o).mirror = s.mirror := rfl
@[simp] theorem raise_stn (c : Coll) (o : Occ) : (s.raise c o).stn = s.stn := rfl
@[simp] theorem raise_cells (c : Coll) (o : Occ) : (s.raise c o).cells = s.cells := rfl
@[simp] theorem raise_sec (c : Coll) (o : Occ) : (s.raise c o).sec = s.sec := rfl
@[simp] theorem raise_pending (c : Coll) (o : Occ) : (s.raise c o).pending = s.pending := rfl
@[simp] theorem setCond_regs (c : Coll) (o : Occ) (b : Bool) : (s.setCond c o b).regs = s.regs := rfl
@[simp] theorem setCond_lastRead (c : Coll) (o : Occ) (b : Bool) : (s.setCond c o b).lastRead = s.lastRead := rfl
@[simp] theorem setCond_latch (c : Coll) (o : Occ) (b : Bool) : (s.setCond c o b).latch = s.latch := rfl
@[simp] theorem setCond_held (c : Coll) (o : Occ) (b : Bool) : (s.setCond c o b).held = s.held := rfl
@[simp] theorem setCond_free (c : Coll) (o : Occ) (b : Bool) : (s.setCond c o b).free = s.free := rfl
@[simp] theorem setCond_hwSet (c : Coll) (o : Occ) (b : Bool) : (s.setCond c o b).hwSet = s.hwSet := rfl
@[simp] theorem setCond_time (c : Coll) (o : Occ) (b : Bool) : (s.setCond c o b).time = s.time := rfl
@[simp] theorem setCond_evLost (c : Coll) (o : Occ) (b : Bool) : (s.setCond c o b).evLost = s.evLost := rfl
@[simp] theorem setCond_mode (c : Coll) (o : Occ) (b : Bool) : (s.setCond c o b).mode = s.mode := rfl
@[simp] theorem setCond_host (c : Coll) (o : Occ) (b : Bool) : (s.setCond c o b).host = s.host := rfl
@[simp] theorem setCond_clause (c : Coll) (o : Occ) (b : Bool) : (s.setCond c o b).clause = s.clause := rfl
@[simp] theorem setCond_trees (c : Coll) (o : Occ) (b : Bool) : (s.setCond c o b).trees = s.trees := rfl
@[simp] theorem setCond_arms (c : Coll) (o : Occ) (b : Bool) : (s.setCond c o b).arms = s.arms := rfl
@[simp] theorem setCond_disp (c : Coll) (o : Occ) (b : Bool) : (s.setCond c o b).disp = s.disp := rfl
@[simp] theorem setCond_sram (c : Coll) (o : Occ) (b : Bool) : (s.setCond c o b).sram = s.sram := rfl
@[simp] theorem setCond_cellMem (c : Coll) (o : Occ) (b : Bool) : (s.setCond c o b).cellMem = s.cellMem := rfl
@[simp] theorem setCond_rgns (c : Coll) (o : Occ) (b : Bool) : (s.setCond c o b).rgns = s.rgns := rfl
@[simp] theorem setCond_rank (c : Coll) (o : Occ) (b : Bool) : (s.setCond c o b).rank = s.rank := rfl
@[simp] theorem setCond_image (c : Coll) (o : Occ) (b : Bool) : (s.setCond c o b).image = s.image := rfl
@[simp] theorem setCond_imageSet (c : Coll) (o : Occ) (b : Bool) : (s.setCond c o b).imageSet = s.imageSet := rfl
@[simp] theorem setCond_candidate (c : Coll) (o : Occ) (b : Bool) : (s.setCond c o b).candidate = s.candidate := rfl
@[simp] theorem setCond_imageNo (c : Coll) (o : Occ) (b : Bool) : (s.setCond c o b).imageNo = s.imageNo := rfl
@[simp] theorem setCond_mirror (c : Coll) (o : Occ) (b : Bool) : (s.setCond c o b).mirror = s.mirror := rfl
@[simp] theorem setCond_stn (c : Coll) (o : Occ) (b : Bool) : (s.setCond c o b).stn = s.stn := rfl
@[simp] theorem setCond_cells (c : Coll) (o : Occ) (b : Bool) : (s.setCond c o b).cells = s.cells := rfl
@[simp] theorem setCond_sec (c : Coll) (o : Occ) (b : Bool) : (s.setCond c o b).sec = s.sec := rfl
@[simp] theorem setCond_pending (c : Coll) (o : Occ) (b : Bool) : (s.setCond c o b).pending = s.pending := rfl
@[simp] theorem used_regs : (s.used).regs = s.regs := rfl
@[simp] theorem used_lastRead : (s.used).lastRead = s.lastRead := rfl
@[simp] theorem used_latch : (s.used).latch = s.latch := rfl
@[simp] theorem used_held : (s.used).held = s.held := rfl
@[simp] theorem used_hwSet : (s.used).hwSet = s.hwSet := rfl
@[simp] theorem used_time : (s.used).time = s.time := rfl
@[simp] theorem used_colls : (s.used).colls = s.colls := rfl
@[simp] theorem used_evLost : (s.used).evLost = s.evLost := rfl
@[simp] theorem used_mode : (s.used).mode = s.mode := rfl
@[simp] theorem used_host : (s.used).host = s.host := rfl
@[simp] theorem used_clause : (s.used).clause = s.clause := rfl
@[simp] theorem used_trees : (s.used).trees = s.trees := rfl
@[simp] theorem used_arms : (s.used).arms = s.arms := rfl
@[simp] theorem used_disp : (s.used).disp = s.disp := rfl
@[simp] theorem used_sram : (s.used).sram = s.sram := rfl
@[simp] theorem used_cellMem : (s.used).cellMem = s.cellMem := rfl
@[simp] theorem used_rgns : (s.used).rgns = s.rgns := rfl
@[simp] theorem used_rank : (s.used).rank = s.rank := rfl
@[simp] theorem used_image : (s.used).image = s.image := rfl
@[simp] theorem used_imageSet : (s.used).imageSet = s.imageSet := rfl
@[simp] theorem used_candidate : (s.used).candidate = s.candidate := rfl
@[simp] theorem used_imageNo : (s.used).imageNo = s.imageNo := rfl
@[simp] theorem used_mirror : (s.used).mirror = s.mirror := rfl
@[simp] theorem used_stn : (s.used).stn = s.stn := rfl
@[simp] theorem used_cells : (s.used).cells = s.cells := rfl
@[simp] theorem used_sec : (s.used).sec = s.sec := rfl
@[simp] theorem used_pending : (s.used).pending = s.pending := rfl
@[simp] theorem modCell_regs (c : Nat) (g : CellSt → CellSt) : (s.modCell c g).regs = s.regs := rfl
@[simp] theorem modCell_lastRead (c : Nat) (g : CellSt → CellSt) : (s.modCell c g).lastRead = s.lastRead := rfl
@[simp] theorem modCell_latch (c : Nat) (g : CellSt → CellSt) : (s.modCell c g).latch = s.latch := rfl
@[simp] theorem modCell_held (c : Nat) (g : CellSt → CellSt) : (s.modCell c g).held = s.held := rfl
@[simp] theorem modCell_free (c : Nat) (g : CellSt → CellSt) : (s.modCell c g).free = s.free := rfl
@[simp] theorem modCell_hwSet (c : Nat) (g : CellSt → CellSt) : (s.modCell c g).hwSet = s.hwSet := rfl
@[simp] theorem modCell_time (c : Nat) (g : CellSt → CellSt) : (s.modCell c g).time = s.time := rfl
@[simp] theorem modCell_colls (c : Nat) (g : CellSt → CellSt) : (s.modCell c g).colls = s.colls := rfl
@[simp] theorem modCell_evLost (c : Nat) (g : CellSt → CellSt) : (s.modCell c g).evLost = s.evLost := rfl
@[simp] theorem modCell_mode (c : Nat) (g : CellSt → CellSt) : (s.modCell c g).mode = s.mode := rfl
@[simp] theorem modCell_host (c : Nat) (g : CellSt → CellSt) : (s.modCell c g).host = s.host := rfl
@[simp] theorem modCell_clause (c : Nat) (g : CellSt → CellSt) : (s.modCell c g).clause = s.clause := rfl
@[simp] theorem modCell_trees (c : Nat) (g : CellSt → CellSt) : (s.modCell c g).trees = s.trees := rfl
@[simp] theorem modCell_arms (c : Nat) (g : CellSt → CellSt) : (s.modCell c g).arms = s.arms := rfl
@[simp] theorem modCell_disp (c : Nat) (g : CellSt → CellSt) : (s.modCell c g).disp = s.disp := rfl
@[simp] theorem modCell_sram (c : Nat) (g : CellSt → CellSt) : (s.modCell c g).sram = s.sram := rfl
@[simp] theorem modCell_cellMem (c : Nat) (g : CellSt → CellSt) : (s.modCell c g).cellMem = s.cellMem := rfl
@[simp] theorem modCell_rgns (c : Nat) (g : CellSt → CellSt) : (s.modCell c g).rgns = s.rgns := rfl
@[simp] theorem modCell_rank (c : Nat) (g : CellSt → CellSt) : (s.modCell c g).rank = s.rank := rfl
@[simp] theorem modCell_image (c : Nat) (g : CellSt → CellSt) : (s.modCell c g).image = s.image := rfl
@[simp] theorem modCell_imageSet (c : Nat) (g : CellSt → CellSt) : (s.modCell c g).imageSet = s.imageSet := rfl
@[simp] theorem modCell_candidate (c : Nat) (g : CellSt → CellSt) : (s.modCell c g).candidate = s.candidate := rfl
@[simp] theorem modCell_imageNo (c : Nat) (g : CellSt → CellSt) : (s.modCell c g).imageNo = s.imageNo := rfl
@[simp] theorem modCell_mirror (c : Nat) (g : CellSt → CellSt) : (s.modCell c g).mirror = s.mirror := rfl
@[simp] theorem modCell_stn (c : Nat) (g : CellSt → CellSt) : (s.modCell c g).stn = s.stn := rfl
@[simp] theorem modCell_sec (c : Nat) (g : CellSt → CellSt) : (s.modCell c g).sec = s.sec := rfl
@[simp] theorem modCell_pending (c : Nat) (g : CellSt → CellSt) : (s.modCell c g).pending = s.pending := rfl
@[simp] theorem cwr_regs (c : Nat) (f : Fld) (v : Nat) : (s.cwr c f v).regs = s.regs := rfl
@[simp] theorem cwr_lastRead (c : Nat) (f : Fld) (v : Nat) : (s.cwr c f v).lastRead = s.lastRead := rfl
@[simp] theorem cwr_latch (c : Nat) (f : Fld) (v : Nat) : (s.cwr c f v).latch = s.latch := rfl
@[simp] theorem cwr_held (c : Nat) (f : Fld) (v : Nat) : (s.cwr c f v).held = s.held := rfl
@[simp] theorem cwr_free (c : Nat) (f : Fld) (v : Nat) : (s.cwr c f v).free = s.free := rfl
@[simp] theorem cwr_hwSet (c : Nat) (f : Fld) (v : Nat) : (s.cwr c f v).hwSet = s.hwSet := rfl
@[simp] theorem cwr_time (c : Nat) (f : Fld) (v : Nat) : (s.cwr c f v).time = s.time := rfl
@[simp] theorem cwr_colls (c : Nat) (f : Fld) (v : Nat) : (s.cwr c f v).colls = s.colls := rfl
@[simp] theorem cwr_evLost (c : Nat) (f : Fld) (v : Nat) : (s.cwr c f v).evLost = s.evLost := rfl
@[simp] theorem cwr_mode (c : Nat) (f : Fld) (v : Nat) : (s.cwr c f v).mode = s.mode := rfl
@[simp] theorem cwr_host (c : Nat) (f : Fld) (v : Nat) : (s.cwr c f v).host = s.host := rfl
@[simp] theorem cwr_clause (c : Nat) (f : Fld) (v : Nat) : (s.cwr c f v).clause = s.clause := rfl
@[simp] theorem cwr_trees (c : Nat) (f : Fld) (v : Nat) : (s.cwr c f v).trees = s.trees := rfl
@[simp] theorem cwr_arms (c : Nat) (f : Fld) (v : Nat) : (s.cwr c f v).arms = s.arms := rfl
@[simp] theorem cwr_disp (c : Nat) (f : Fld) (v : Nat) : (s.cwr c f v).disp = s.disp := rfl
@[simp] theorem cwr_sram (c : Nat) (f : Fld) (v : Nat) : (s.cwr c f v).sram = s.sram := rfl
@[simp] theorem cwr_cellMem (c : Nat) (f : Fld) (v : Nat) : (s.cwr c f v).cellMem = s.cellMem := rfl
@[simp] theorem cwr_rgns (c : Nat) (f : Fld) (v : Nat) : (s.cwr c f v).rgns = s.rgns := rfl
@[simp] theorem cwr_rank (c : Nat) (f : Fld) (v : Nat) : (s.cwr c f v).rank = s.rank := rfl
@[simp] theorem cwr_image (c : Nat) (f : Fld) (v : Nat) : (s.cwr c f v).image = s.image := rfl
@[simp] theorem cwr_imageSet (c : Nat) (f : Fld) (v : Nat) : (s.cwr c f v).imageSet = s.imageSet := rfl
@[simp] theorem cwr_candidate (c : Nat) (f : Fld) (v : Nat) : (s.cwr c f v).candidate = s.candidate := rfl
@[simp] theorem cwr_imageNo (c : Nat) (f : Fld) (v : Nat) : (s.cwr c f v).imageNo = s.imageNo := rfl
@[simp] theorem cwr_mirror (c : Nat) (f : Fld) (v : Nat) : (s.cwr c f v).mirror = s.mirror := rfl
@[simp] theorem cwr_stn (c : Nat) (f : Fld) (v : Nat) : (s.cwr c f v).stn = s.stn := rfl
@[simp] theorem cwr_sec (c : Nat) (f : Fld) (v : Nat) : (s.cwr c f v).sec = s.sec := rfl
@[simp] theorem cwr_pending (c : Nat) (f : Fld) (v : Nat) : (s.cwr c f v).pending = s.pending := rfl
@[simp] theorem cinc_regs (c : Nat) (f : Fld) : (s.cinc c f).regs = s.regs := rfl
@[simp] theorem cinc_lastRead (c : Nat) (f : Fld) : (s.cinc c f).lastRead = s.lastRead := rfl
@[simp] theorem cinc_latch (c : Nat) (f : Fld) : (s.cinc c f).latch = s.latch := rfl
@[simp] theorem cinc_held (c : Nat) (f : Fld) : (s.cinc c f).held = s.held := rfl
@[simp] theorem cinc_free (c : Nat) (f : Fld) : (s.cinc c f).free = s.free := rfl
@[simp] theorem cinc_hwSet (c : Nat) (f : Fld) : (s.cinc c f).hwSet = s.hwSet := rfl
@[simp] theorem cinc_time (c : Nat) (f : Fld) : (s.cinc c f).time = s.time := rfl
@[simp] theorem cinc_colls (c : Nat) (f : Fld) : (s.cinc c f).colls = s.colls := rfl
@[simp] theorem cinc_evLost (c : Nat) (f : Fld) : (s.cinc c f).evLost = s.evLost := rfl
@[simp] theorem cinc_mode (c : Nat) (f : Fld) : (s.cinc c f).mode = s.mode := rfl
@[simp] theorem cinc_host (c : Nat) (f : Fld) : (s.cinc c f).host = s.host := rfl
@[simp] theorem cinc_clause (c : Nat) (f : Fld) : (s.cinc c f).clause = s.clause := rfl
@[simp] theorem cinc_trees (c : Nat) (f : Fld) : (s.cinc c f).trees = s.trees := rfl
@[simp] theorem cinc_arms (c : Nat) (f : Fld) : (s.cinc c f).arms = s.arms := rfl
@[simp] theorem cinc_disp (c : Nat) (f : Fld) : (s.cinc c f).disp = s.disp := rfl
@[simp] theorem cinc_sram (c : Nat) (f : Fld) : (s.cinc c f).sram = s.sram := rfl
@[simp] theorem cinc_cellMem (c : Nat) (f : Fld) : (s.cinc c f).cellMem = s.cellMem := rfl
@[simp] theorem cinc_rgns (c : Nat) (f : Fld) : (s.cinc c f).rgns = s.rgns := rfl
@[simp] theorem cinc_rank (c : Nat) (f : Fld) : (s.cinc c f).rank = s.rank := rfl
@[simp] theorem cinc_image (c : Nat) (f : Fld) : (s.cinc c f).image = s.image := rfl
@[simp] theorem cinc_imageSet (c : Nat) (f : Fld) : (s.cinc c f).imageSet = s.imageSet := rfl
@[simp] theorem cinc_candidate (c : Nat) (f : Fld) : (s.cinc c f).candidate = s.candidate := rfl
@[simp] theorem cinc_imageNo (c : Nat) (f : Fld) : (s.cinc c f).imageNo = s.imageNo := rfl
@[simp] theorem cinc_mirror (c : Nat) (f : Fld) : (s.cinc c f).mirror = s.mirror := rfl
@[simp] theorem cinc_stn (c : Nat) (f : Fld) : (s.cinc c f).stn = s.stn := rfl
@[simp] theorem cinc_sec (c : Nat) (f : Fld) : (s.cinc c f).sec = s.sec := rfl
@[simp] theorem cinc_pending (c : Nat) (f : Fld) : (s.cinc c f).pending = s.pending := rfl
@[simp] theorem modPort_regs (c p : Nat) (g : PortSt → PortSt) : (s.modPort c p g).regs = s.regs := rfl
@[simp] theorem modPort_lastRead (c p : Nat) (g : PortSt → PortSt) : (s.modPort c p g).lastRead = s.lastRead := rfl
@[simp] theorem modPort_latch (c p : Nat) (g : PortSt → PortSt) : (s.modPort c p g).latch = s.latch := rfl
@[simp] theorem modPort_held (c p : Nat) (g : PortSt → PortSt) : (s.modPort c p g).held = s.held := rfl
@[simp] theorem modPort_free (c p : Nat) (g : PortSt → PortSt) : (s.modPort c p g).free = s.free := rfl
@[simp] theorem modPort_hwSet (c p : Nat) (g : PortSt → PortSt) : (s.modPort c p g).hwSet = s.hwSet := rfl
@[simp] theorem modPort_time (c p : Nat) (g : PortSt → PortSt) : (s.modPort c p g).time = s.time := rfl
@[simp] theorem modPort_colls (c p : Nat) (g : PortSt → PortSt) : (s.modPort c p g).colls = s.colls := rfl
@[simp] theorem modPort_evLost (c p : Nat) (g : PortSt → PortSt) : (s.modPort c p g).evLost = s.evLost := rfl
@[simp] theorem modPort_mode (c p : Nat) (g : PortSt → PortSt) : (s.modPort c p g).mode = s.mode := rfl
@[simp] theorem modPort_host (c p : Nat) (g : PortSt → PortSt) : (s.modPort c p g).host = s.host := rfl
@[simp] theorem modPort_clause (c p : Nat) (g : PortSt → PortSt) : (s.modPort c p g).clause = s.clause := rfl
@[simp] theorem modPort_trees (c p : Nat) (g : PortSt → PortSt) : (s.modPort c p g).trees = s.trees := rfl
@[simp] theorem modPort_arms (c p : Nat) (g : PortSt → PortSt) : (s.modPort c p g).arms = s.arms := rfl
@[simp] theorem modPort_disp (c p : Nat) (g : PortSt → PortSt) : (s.modPort c p g).disp = s.disp := rfl
@[simp] theorem modPort_sram (c p : Nat) (g : PortSt → PortSt) : (s.modPort c p g).sram = s.sram := rfl
@[simp] theorem modPort_cellMem (c p : Nat) (g : PortSt → PortSt) : (s.modPort c p g).cellMem = s.cellMem := rfl
@[simp] theorem modPort_rgns (c p : Nat) (g : PortSt → PortSt) : (s.modPort c p g).rgns = s.rgns := rfl
@[simp] theorem modPort_rank (c p : Nat) (g : PortSt → PortSt) : (s.modPort c p g).rank = s.rank := rfl
@[simp] theorem modPort_image (c p : Nat) (g : PortSt → PortSt) : (s.modPort c p g).image = s.image := rfl
@[simp] theorem modPort_imageSet (c p : Nat) (g : PortSt → PortSt) : (s.modPort c p g).imageSet = s.imageSet := rfl
@[simp] theorem modPort_candidate (c p : Nat) (g : PortSt → PortSt) : (s.modPort c p g).candidate = s.candidate := rfl
@[simp] theorem modPort_imageNo (c p : Nat) (g : PortSt → PortSt) : (s.modPort c p g).imageNo = s.imageNo := rfl
@[simp] theorem modPort_mirror (c p : Nat) (g : PortSt → PortSt) : (s.modPort c p g).mirror = s.mirror := rfl
@[simp] theorem modPort_stn (c p : Nat) (g : PortSt → PortSt) : (s.modPort c p g).stn = s.stn := rfl
@[simp] theorem modPort_sec (c p : Nat) (g : PortSt → PortSt) : (s.modPort c p g).sec = s.sec := rfl
@[simp] theorem modPort_pending (c p : Nat) (g : PortSt → PortSt) : (s.modPort c p g).pending = s.pending := rfl
@[simp] theorem modLink_regs (c p : Nat) (g : LinkSt → LinkSt) : (s.modLink c p g).regs = s.regs := rfl
@[simp] theorem modLink_lastRead (c p : Nat) (g : LinkSt → LinkSt) : (s.modLink c p g).lastRead = s.lastRead := rfl
@[simp] theorem modLink_latch (c p : Nat) (g : LinkSt → LinkSt) : (s.modLink c p g).latch = s.latch := rfl
@[simp] theorem modLink_held (c p : Nat) (g : LinkSt → LinkSt) : (s.modLink c p g).held = s.held := rfl
@[simp] theorem modLink_free (c p : Nat) (g : LinkSt → LinkSt) : (s.modLink c p g).free = s.free := rfl
@[simp] theorem modLink_hwSet (c p : Nat) (g : LinkSt → LinkSt) : (s.modLink c p g).hwSet = s.hwSet := rfl
@[simp] theorem modLink_time (c p : Nat) (g : LinkSt → LinkSt) : (s.modLink c p g).time = s.time := rfl
@[simp] theorem modLink_colls (c p : Nat) (g : LinkSt → LinkSt) : (s.modLink c p g).colls = s.colls := rfl
@[simp] theorem modLink_evLost (c p : Nat) (g : LinkSt → LinkSt) : (s.modLink c p g).evLost = s.evLost := rfl
@[simp] theorem modLink_mode (c p : Nat) (g : LinkSt → LinkSt) : (s.modLink c p g).mode = s.mode := rfl
@[simp] theorem modLink_host (c p : Nat) (g : LinkSt → LinkSt) : (s.modLink c p g).host = s.host := rfl
@[simp] theorem modLink_clause (c p : Nat) (g : LinkSt → LinkSt) : (s.modLink c p g).clause = s.clause := rfl
@[simp] theorem modLink_trees (c p : Nat) (g : LinkSt → LinkSt) : (s.modLink c p g).trees = s.trees := rfl
@[simp] theorem modLink_arms (c p : Nat) (g : LinkSt → LinkSt) : (s.modLink c p g).arms = s.arms := rfl
@[simp] theorem modLink_disp (c p : Nat) (g : LinkSt → LinkSt) : (s.modLink c p g).disp = s.disp := rfl
@[simp] theorem modLink_sram (c p : Nat) (g : LinkSt → LinkSt) : (s.modLink c p g).sram = s.sram := rfl
@[simp] theorem modLink_cellMem (c p : Nat) (g : LinkSt → LinkSt) : (s.modLink c p g).cellMem = s.cellMem := rfl
@[simp] theorem modLink_rgns (c p : Nat) (g : LinkSt → LinkSt) : (s.modLink c p g).rgns = s.rgns := rfl
@[simp] theorem modLink_rank (c p : Nat) (g : LinkSt → LinkSt) : (s.modLink c p g).rank = s.rank := rfl
@[simp] theorem modLink_image (c p : Nat) (g : LinkSt → LinkSt) : (s.modLink c p g).image = s.image := rfl
@[simp] theorem modLink_imageSet (c p : Nat) (g : LinkSt → LinkSt) : (s.modLink c p g).imageSet = s.imageSet := rfl
@[simp] theorem modLink_candidate (c p : Nat) (g : LinkSt → LinkSt) : (s.modLink c p g).candidate = s.candidate := rfl
@[simp] theorem modLink_imageNo (c p : Nat) (g : LinkSt → LinkSt) : (s.modLink c p g).imageNo = s.imageNo := rfl
@[simp] theorem modLink_mirror (c p : Nat) (g : LinkSt → LinkSt) : (s.modLink c p g).mirror = s.mirror := rfl
@[simp] theorem modLink_stn (c p : Nat) (g : LinkSt → LinkSt) : (s.modLink c p g).stn = s.stn := rfl
@[simp] theorem modLink_sec (c p : Nat) (g : LinkSt → LinkSt) : (s.modLink c p g).sec = s.sec := rfl
@[simp] theorem modLink_pending (c p : Nat) (g : LinkSt → LinkSt) : (s.modLink c p g).pending = s.pending := rfl
@[simp] theorem modMat_regs (c p : Nat) (g : MatrixSt → MatrixSt) : (s.modMat c p g).regs = s.regs := rfl
@[simp] theorem modMat_lastRead (c p : Nat) (g : MatrixSt → MatrixSt) : (s.modMat c p g).lastRead = s.lastRead := rfl
@[simp] theorem modMat_latch (c p : Nat) (g : MatrixSt → MatrixSt) : (s.modMat c p g).latch = s.latch := rfl
@[simp] theorem modMat_held (c p : Nat) (g : MatrixSt → MatrixSt) : (s.modMat c p g).held = s.held := rfl
@[simp] theorem modMat_free (c p : Nat) (g : MatrixSt → MatrixSt) : (s.modMat c p g).free = s.free := rfl
@[simp] theorem modMat_hwSet (c p : Nat) (g : MatrixSt → MatrixSt) : (s.modMat c p g).hwSet = s.hwSet := rfl
@[simp] theorem modMat_time (c p : Nat) (g : MatrixSt → MatrixSt) : (s.modMat c p g).time = s.time := rfl
@[simp] theorem modMat_colls (c p : Nat) (g : MatrixSt → MatrixSt) : (s.modMat c p g).colls = s.colls := rfl
@[simp] theorem modMat_evLost (c p : Nat) (g : MatrixSt → MatrixSt) : (s.modMat c p g).evLost = s.evLost := rfl
@[simp] theorem modMat_mode (c p : Nat) (g : MatrixSt → MatrixSt) : (s.modMat c p g).mode = s.mode := rfl
@[simp] theorem modMat_host (c p : Nat) (g : MatrixSt → MatrixSt) : (s.modMat c p g).host = s.host := rfl
@[simp] theorem modMat_clause (c p : Nat) (g : MatrixSt → MatrixSt) : (s.modMat c p g).clause = s.clause := rfl
@[simp] theorem modMat_trees (c p : Nat) (g : MatrixSt → MatrixSt) : (s.modMat c p g).trees = s.trees := rfl
@[simp] theorem modMat_arms (c p : Nat) (g : MatrixSt → MatrixSt) : (s.modMat c p g).arms = s.arms := rfl
@[simp] theorem modMat_disp (c p : Nat) (g : MatrixSt → MatrixSt) : (s.modMat c p g).disp = s.disp := rfl
@[simp] theorem modMat_sram (c p : Nat) (g : MatrixSt → MatrixSt) : (s.modMat c p g).sram = s.sram := rfl
@[simp] theorem modMat_cellMem (c p : Nat) (g : MatrixSt → MatrixSt) : (s.modMat c p g).cellMem = s.cellMem := rfl
@[simp] theorem modMat_rgns (c p : Nat) (g : MatrixSt → MatrixSt) : (s.modMat c p g).rgns = s.rgns := rfl
@[simp] theorem modMat_rank (c p : Nat) (g : MatrixSt → MatrixSt) : (s.modMat c p g).rank = s.rank := rfl
@[simp] theorem modMat_image (c p : Nat) (g : MatrixSt → MatrixSt) : (s.modMat c p g).image = s.image := rfl
@[simp] theorem modMat_imageSet (c p : Nat) (g : MatrixSt → MatrixSt) : (s.modMat c p g).imageSet = s.imageSet := rfl
@[simp] theorem modMat_candidate (c p : Nat) (g : MatrixSt → MatrixSt) : (s.modMat c p g).candidate = s.candidate := rfl
@[simp] theorem modMat_imageNo (c p : Nat) (g : MatrixSt → MatrixSt) : (s.modMat c p g).imageNo = s.imageNo := rfl
@[simp] theorem modMat_mirror (c p : Nat) (g : MatrixSt → MatrixSt) : (s.modMat c p g).mirror = s.mirror := rfl
@[simp] theorem modMat_stn (c p : Nat) (g : MatrixSt → MatrixSt) : (s.modMat c p g).stn = s.stn := rfl
@[simp] theorem modMat_sec (c p : Nat) (g : MatrixSt → MatrixSt) : (s.modMat c p g).sec = s.sec := rfl
@[simp] theorem modMat_pending (c p : Nat) (g : MatrixSt → MatrixSt) : (s.modMat c p g).pending = s.pending := rfl
@[simp] theorem modSw_regs (c : Nat) (g : CellSw → CellSw) : (s.modSw c g).regs = s.regs := rfl
@[simp] theorem modSw_lastRead (c : Nat) (g : CellSw → CellSw) : (s.modSw c g).lastRead = s.lastRead := rfl
@[simp] theorem modSw_latch (c : Nat) (g : CellSw → CellSw) : (s.modSw c g).latch = s.latch := rfl
@[simp] theorem modSw_held (c : Nat) (g : CellSw → CellSw) : (s.modSw c g).held = s.held := rfl
@[simp] theorem modSw_free (c : Nat) (g : CellSw → CellSw) : (s.modSw c g).free = s.free := rfl
@[simp] theorem modSw_hwSet (c : Nat) (g : CellSw → CellSw) : (s.modSw c g).hwSet = s.hwSet := rfl
@[simp] theorem modSw_time (c : Nat) (g : CellSw → CellSw) : (s.modSw c g).time = s.time := rfl
@[simp] theorem modSw_colls (c : Nat) (g : CellSw → CellSw) : (s.modSw c g).colls = s.colls := rfl
@[simp] theorem modSw_evLost (c : Nat) (g : CellSw → CellSw) : (s.modSw c g).evLost = s.evLost := rfl
@[simp] theorem modSw_mode (c : Nat) (g : CellSw → CellSw) : (s.modSw c g).mode = s.mode := rfl
@[simp] theorem modSw_host (c : Nat) (g : CellSw → CellSw) : (s.modSw c g).host = s.host := rfl
@[simp] theorem modSw_clause (c : Nat) (g : CellSw → CellSw) : (s.modSw c g).clause = s.clause := rfl
@[simp] theorem modSw_trees (c : Nat) (g : CellSw → CellSw) : (s.modSw c g).trees = s.trees := rfl
@[simp] theorem modSw_arms (c : Nat) (g : CellSw → CellSw) : (s.modSw c g).arms = s.arms := rfl
@[simp] theorem modSw_disp (c : Nat) (g : CellSw → CellSw) : (s.modSw c g).disp = s.disp := rfl
@[simp] theorem modSw_sram (c : Nat) (g : CellSw → CellSw) : (s.modSw c g).sram = s.sram := rfl
@[simp] theorem modSw_cellMem (c : Nat) (g : CellSw → CellSw) : (s.modSw c g).cellMem = s.cellMem := rfl
@[simp] theorem modSw_rgns (c : Nat) (g : CellSw → CellSw) : (s.modSw c g).rgns = s.rgns := rfl
@[simp] theorem modSw_rank (c : Nat) (g : CellSw → CellSw) : (s.modSw c g).rank = s.rank := rfl
@[simp] theorem modSw_image (c : Nat) (g : CellSw → CellSw) : (s.modSw c g).image = s.image := rfl
@[simp] theorem modSw_imageSet (c : Nat) (g : CellSw → CellSw) : (s.modSw c g).imageSet = s.imageSet := rfl
@[simp] theorem modSw_candidate (c : Nat) (g : CellSw → CellSw) : (s.modSw c g).candidate = s.candidate := rfl
@[simp] theorem modSw_imageNo (c : Nat) (g : CellSw → CellSw) : (s.modSw c g).imageNo = s.imageNo := rfl
@[simp] theorem modSw_mirror (c : Nat) (g : CellSw → CellSw) : (s.modSw c g).mirror = s.mirror := rfl
@[simp] theorem modSw_stn (c : Nat) (g : CellSw → CellSw) : (s.modSw c g).stn = s.stn := rfl
@[simp] theorem modSw_sec (c : Nat) (g : CellSw → CellSw) : (s.modSw c g).sec = s.sec := rfl
@[simp] theorem modSw_pending (c : Nat) (g : CellSw → CellSw) : (s.modSw c g).pending = s.pending := rfl
@[simp] theorem modProt_regs (c : Nat) (g : CellProt → CellProt) : (s.modProt c g).regs = s.regs := rfl
@[simp] theorem modProt_lastRead (c : Nat) (g : CellProt → CellProt) : (s.modProt c g).lastRead = s.lastRead := rfl
@[simp] theorem modProt_latch (c : Nat) (g : CellProt → CellProt) : (s.modProt c g).latch = s.latch := rfl
@[simp] theorem modProt_held (c : Nat) (g : CellProt → CellProt) : (s.modProt c g).held = s.held := rfl
@[simp] theorem modProt_free (c : Nat) (g : CellProt → CellProt) : (s.modProt c g).free = s.free := rfl
@[simp] theorem modProt_hwSet (c : Nat) (g : CellProt → CellProt) : (s.modProt c g).hwSet = s.hwSet := rfl
@[simp] theorem modProt_time (c : Nat) (g : CellProt → CellProt) : (s.modProt c g).time = s.time := rfl
@[simp] theorem modProt_colls (c : Nat) (g : CellProt → CellProt) : (s.modProt c g).colls = s.colls := rfl
@[simp] theorem modProt_evLost (c : Nat) (g : CellProt → CellProt) : (s.modProt c g).evLost = s.evLost := rfl
@[simp] theorem modProt_mode (c : Nat) (g : CellProt → CellProt) : (s.modProt c g).mode = s.mode := rfl
@[simp] theorem modProt_host (c : Nat) (g : CellProt → CellProt) : (s.modProt c g).host = s.host := rfl
@[simp] theorem modProt_clause (c : Nat) (g : CellProt → CellProt) : (s.modProt c g).clause = s.clause := rfl
@[simp] theorem modProt_trees (c : Nat) (g : CellProt → CellProt) : (s.modProt c g).trees = s.trees := rfl
@[simp] theorem modProt_arms (c : Nat) (g : CellProt → CellProt) : (s.modProt c g).arms = s.arms := rfl
@[simp] theorem modProt_disp (c : Nat) (g : CellProt → CellProt) : (s.modProt c g).disp = s.disp := rfl
@[simp] theorem modProt_sram (c : Nat) (g : CellProt → CellProt) : (s.modProt c g).sram = s.sram := rfl
@[simp] theorem modProt_cellMem (c : Nat) (g : CellProt → CellProt) : (s.modProt c g).cellMem = s.cellMem := rfl
@[simp] theorem modProt_rgns (c : Nat) (g : CellProt → CellProt) : (s.modProt c g).rgns = s.rgns := rfl
@[simp] theorem modProt_rank (c : Nat) (g : CellProt → CellProt) : (s.modProt c g).rank = s.rank := rfl
@[simp] theorem modProt_image (c : Nat) (g : CellProt → CellProt) : (s.modProt c g).image = s.image := rfl
@[simp] theorem modProt_imageSet (c : Nat) (g : CellProt → CellProt) : (s.modProt c g).imageSet = s.imageSet := rfl
@[simp] theorem modProt_candidate (c : Nat) (g : CellProt → CellProt) : (s.modProt c g).candidate = s.candidate := rfl
@[simp] theorem modProt_imageNo (c : Nat) (g : CellProt → CellProt) : (s.modProt c g).imageNo = s.imageNo := rfl
@[simp] theorem modProt_mirror (c : Nat) (g : CellProt → CellProt) : (s.modProt c g).mirror = s.mirror := rfl
@[simp] theorem modProt_stn (c : Nat) (g : CellProt → CellProt) : (s.modProt c g).stn = s.stn := rfl
@[simp] theorem modProt_sec (c : Nat) (g : CellProt → CellProt) : (s.modProt c g).sec = s.sec := rfl
@[simp] theorem modProt_pending (c : Nat) (g : CellProt → CellProt) : (s.modProt c g).pending = s.pending := rfl
@[simp] theorem modTime_regs (c : Nat) (g : CellTime → CellTime) : (s.modTime c g).regs = s.regs := rfl
@[simp] theorem modTime_lastRead (c : Nat) (g : CellTime → CellTime) : (s.modTime c g).lastRead = s.lastRead := rfl
@[simp] theorem modTime_latch (c : Nat) (g : CellTime → CellTime) : (s.modTime c g).latch = s.latch := rfl
@[simp] theorem modTime_held (c : Nat) (g : CellTime → CellTime) : (s.modTime c g).held = s.held := rfl
@[simp] theorem modTime_free (c : Nat) (g : CellTime → CellTime) : (s.modTime c g).free = s.free := rfl
@[simp] theorem modTime_hwSet (c : Nat) (g : CellTime → CellTime) : (s.modTime c g).hwSet = s.hwSet := rfl
@[simp] theorem modTime_time (c : Nat) (g : CellTime → CellTime) : (s.modTime c g).time = s.time := rfl
@[simp] theorem modTime_colls (c : Nat) (g : CellTime → CellTime) : (s.modTime c g).colls = s.colls := rfl
@[simp] theorem modTime_evLost (c : Nat) (g : CellTime → CellTime) : (s.modTime c g).evLost = s.evLost := rfl
@[simp] theorem modTime_mode (c : Nat) (g : CellTime → CellTime) : (s.modTime c g).mode = s.mode := rfl
@[simp] theorem modTime_host (c : Nat) (g : CellTime → CellTime) : (s.modTime c g).host = s.host := rfl
@[simp] theorem modTime_clause (c : Nat) (g : CellTime → CellTime) : (s.modTime c g).clause = s.clause := rfl
@[simp] theorem modTime_trees (c : Nat) (g : CellTime → CellTime) : (s.modTime c g).trees = s.trees := rfl
@[simp] theorem modTime_arms (c : Nat) (g : CellTime → CellTime) : (s.modTime c g).arms = s.arms := rfl
@[simp] theorem modTime_disp (c : Nat) (g : CellTime → CellTime) : (s.modTime c g).disp = s.disp := rfl
@[simp] theorem modTime_sram (c : Nat) (g : CellTime → CellTime) : (s.modTime c g).sram = s.sram := rfl
@[simp] theorem modTime_cellMem (c : Nat) (g : CellTime → CellTime) : (s.modTime c g).cellMem = s.cellMem := rfl
@[simp] theorem modTime_rgns (c : Nat) (g : CellTime → CellTime) : (s.modTime c g).rgns = s.rgns := rfl
@[simp] theorem modTime_rank (c : Nat) (g : CellTime → CellTime) : (s.modTime c g).rank = s.rank := rfl
@[simp] theorem modTime_image (c : Nat) (g : CellTime → CellTime) : (s.modTime c g).image = s.image := rfl
@[simp] theorem modTime_imageSet (c : Nat) (g : CellTime → CellTime) : (s.modTime c g).imageSet = s.imageSet := rfl
@[simp] theorem modTime_candidate (c : Nat) (g : CellTime → CellTime) : (s.modTime c g).candidate = s.candidate := rfl
@[simp] theorem modTime_imageNo (c : Nat) (g : CellTime → CellTime) : (s.modTime c g).imageNo = s.imageNo := rfl
@[simp] theorem modTime_mirror (c : Nat) (g : CellTime → CellTime) : (s.modTime c g).mirror = s.mirror := rfl
@[simp] theorem modTime_stn (c : Nat) (g : CellTime → CellTime) : (s.modTime c g).stn = s.stn := rfl
@[simp] theorem modTime_sec (c : Nat) (g : CellTime → CellTime) : (s.modTime c g).sec = s.sec := rfl
@[simp] theorem modTime_pending (c : Nat) (g : CellTime → CellTime) : (s.modTime c g).pending = s.pending := rfl
@[simp] theorem modAuth_regs (c : Nat) (g : CellAuth → CellAuth) : (s.modAuth c g).regs = s.regs := rfl
@[simp] theorem modAuth_lastRead (c : Nat) (g : CellAuth → CellAuth) : (s.modAuth c g).lastRead = s.lastRead := rfl
@[simp] theorem modAuth_latch (c : Nat) (g : CellAuth → CellAuth) : (s.modAuth c g).latch = s.latch := rfl
@[simp] theorem modAuth_held (c : Nat) (g : CellAuth → CellAuth) : (s.modAuth c g).held = s.held := rfl
@[simp] theorem modAuth_free (c : Nat) (g : CellAuth → CellAuth) : (s.modAuth c g).free = s.free := rfl
@[simp] theorem modAuth_hwSet (c : Nat) (g : CellAuth → CellAuth) : (s.modAuth c g).hwSet = s.hwSet := rfl
@[simp] theorem modAuth_time (c : Nat) (g : CellAuth → CellAuth) : (s.modAuth c g).time = s.time := rfl
@[simp] theorem modAuth_colls (c : Nat) (g : CellAuth → CellAuth) : (s.modAuth c g).colls = s.colls := rfl
@[simp] theorem modAuth_evLost (c : Nat) (g : CellAuth → CellAuth) : (s.modAuth c g).evLost = s.evLost := rfl
@[simp] theorem modAuth_mode (c : Nat) (g : CellAuth → CellAuth) : (s.modAuth c g).mode = s.mode := rfl
@[simp] theorem modAuth_host (c : Nat) (g : CellAuth → CellAuth) : (s.modAuth c g).host = s.host := rfl
@[simp] theorem modAuth_clause (c : Nat) (g : CellAuth → CellAuth) : (s.modAuth c g).clause = s.clause := rfl
@[simp] theorem modAuth_trees (c : Nat) (g : CellAuth → CellAuth) : (s.modAuth c g).trees = s.trees := rfl
@[simp] theorem modAuth_arms (c : Nat) (g : CellAuth → CellAuth) : (s.modAuth c g).arms = s.arms := rfl
@[simp] theorem modAuth_disp (c : Nat) (g : CellAuth → CellAuth) : (s.modAuth c g).disp = s.disp := rfl
@[simp] theorem modAuth_sram (c : Nat) (g : CellAuth → CellAuth) : (s.modAuth c g).sram = s.sram := rfl
@[simp] theorem modAuth_cellMem (c : Nat) (g : CellAuth → CellAuth) : (s.modAuth c g).cellMem = s.cellMem := rfl
@[simp] theorem modAuth_rgns (c : Nat) (g : CellAuth → CellAuth) : (s.modAuth c g).rgns = s.rgns := rfl
@[simp] theorem modAuth_rank (c : Nat) (g : CellAuth → CellAuth) : (s.modAuth c g).rank = s.rank := rfl
@[simp] theorem modAuth_image (c : Nat) (g : CellAuth → CellAuth) : (s.modAuth c g).image = s.image := rfl
@[simp] theorem modAuth_imageSet (c : Nat) (g : CellAuth → CellAuth) : (s.modAuth c g).imageSet = s.imageSet := rfl
@[simp] theorem modAuth_candidate (c : Nat) (g : CellAuth → CellAuth) : (s.modAuth c g).candidate = s.candidate := rfl
@[simp] theorem modAuth_imageNo (c : Nat) (g : CellAuth → CellAuth) : (s.modAuth c g).imageNo = s.imageNo := rfl
@[simp] theorem modAuth_mirror (c : Nat) (g : CellAuth → CellAuth) : (s.modAuth c g).mirror = s.mirror := rfl
@[simp] theorem modAuth_stn (c : Nat) (g : CellAuth → CellAuth) : (s.modAuth c g).stn = s.stn := rfl
@[simp] theorem modAuth_sec (c : Nat) (g : CellAuth → CellAuth) : (s.modAuth c g).sec = s.sec := rfl
@[simp] theorem modAuth_pending (c : Nat) (g : CellAuth → CellAuth) : (s.modAuth c g).pending = s.pending := rfl
@[simp] theorem modFlt_regs (c : Nat) (g : CellFlt → CellFlt) : (s.modFlt c g).regs = s.regs := rfl
@[simp] theorem modFlt_lastRead (c : Nat) (g : CellFlt → CellFlt) : (s.modFlt c g).lastRead = s.lastRead := rfl
@[simp] theorem modFlt_latch (c : Nat) (g : CellFlt → CellFlt) : (s.modFlt c g).latch = s.latch := rfl
@[simp] theorem modFlt_held (c : Nat) (g : CellFlt → CellFlt) : (s.modFlt c g).held = s.held := rfl
@[simp] theorem modFlt_free (c : Nat) (g : CellFlt → CellFlt) : (s.modFlt c g).free = s.free := rfl
@[simp] theorem modFlt_hwSet (c : Nat) (g : CellFlt → CellFlt) : (s.modFlt c g).hwSet = s.hwSet := rfl
@[simp] theorem modFlt_time (c : Nat) (g : CellFlt → CellFlt) : (s.modFlt c g).time = s.time := rfl
@[simp] theorem modFlt_colls (c : Nat) (g : CellFlt → CellFlt) : (s.modFlt c g).colls = s.colls := rfl
@[simp] theorem modFlt_evLost (c : Nat) (g : CellFlt → CellFlt) : (s.modFlt c g).evLost = s.evLost := rfl
@[simp] theorem modFlt_mode (c : Nat) (g : CellFlt → CellFlt) : (s.modFlt c g).mode = s.mode := rfl
@[simp] theorem modFlt_host (c : Nat) (g : CellFlt → CellFlt) : (s.modFlt c g).host = s.host := rfl
@[simp] theorem modFlt_clause (c : Nat) (g : CellFlt → CellFlt) : (s.modFlt c g).clause = s.clause := rfl
@[simp] theorem modFlt_trees (c : Nat) (g : CellFlt → CellFlt) : (s.modFlt c g).trees = s.trees := rfl
@[simp] theorem modFlt_arms (c : Nat) (g : CellFlt → CellFlt) : (s.modFlt c g).arms = s.arms := rfl
@[simp] theorem modFlt_disp (c : Nat) (g : CellFlt → CellFlt) : (s.modFlt c g).disp = s.disp := rfl
@[simp] theorem modFlt_sram (c : Nat) (g : CellFlt → CellFlt) : (s.modFlt c g).sram = s.sram := rfl
@[simp] theorem modFlt_cellMem (c : Nat) (g : CellFlt → CellFlt) : (s.modFlt c g).cellMem = s.cellMem := rfl
@[simp] theorem modFlt_rgns (c : Nat) (g : CellFlt → CellFlt) : (s.modFlt c g).rgns = s.rgns := rfl
@[simp] theorem modFlt_rank (c : Nat) (g : CellFlt → CellFlt) : (s.modFlt c g).rank = s.rank := rfl
@[simp] theorem modFlt_image (c : Nat) (g : CellFlt → CellFlt) : (s.modFlt c g).image = s.image := rfl
@[simp] theorem modFlt_imageSet (c : Nat) (g : CellFlt → CellFlt) : (s.modFlt c g).imageSet = s.imageSet := rfl
@[simp] theorem modFlt_candidate (c : Nat) (g : CellFlt → CellFlt) : (s.modFlt c g).candidate = s.candidate := rfl
@[simp] theorem modFlt_imageNo (c : Nat) (g : CellFlt → CellFlt) : (s.modFlt c g).imageNo = s.imageNo := rfl
@[simp] theorem modFlt_mirror (c : Nat) (g : CellFlt → CellFlt) : (s.modFlt c g).mirror = s.mirror := rfl
@[simp] theorem modFlt_stn (c : Nat) (g : CellFlt → CellFlt) : (s.modFlt c g).stn = s.stn := rfl
@[simp] theorem modFlt_sec (c : Nat) (g : CellFlt → CellFlt) : (s.modFlt c g).sec = s.sec := rfl
@[simp] theorem modFlt_pending (c : Nat) (g : CellFlt → CellFlt) : (s.modFlt c g).pending = s.pending := rfl
@[simp] theorem modCv_regs (c : Nat) (g : CvSt → CvSt) : (s.modCv c g).regs = s.regs := rfl
@[simp] theorem modCv_lastRead (c : Nat) (g : CvSt → CvSt) : (s.modCv c g).lastRead = s.lastRead := rfl
@[simp] theorem modCv_latch (c : Nat) (g : CvSt → CvSt) : (s.modCv c g).latch = s.latch := rfl
@[simp] theorem modCv_held (c : Nat) (g : CvSt → CvSt) : (s.modCv c g).held = s.held := rfl
@[simp] theorem modCv_free (c : Nat) (g : CvSt → CvSt) : (s.modCv c g).free = s.free := rfl
@[simp] theorem modCv_hwSet (c : Nat) (g : CvSt → CvSt) : (s.modCv c g).hwSet = s.hwSet := rfl
@[simp] theorem modCv_time (c : Nat) (g : CvSt → CvSt) : (s.modCv c g).time = s.time := rfl
@[simp] theorem modCv_colls (c : Nat) (g : CvSt → CvSt) : (s.modCv c g).colls = s.colls := rfl
@[simp] theorem modCv_evLost (c : Nat) (g : CvSt → CvSt) : (s.modCv c g).evLost = s.evLost := rfl
@[simp] theorem modCv_mode (c : Nat) (g : CvSt → CvSt) : (s.modCv c g).mode = s.mode := rfl
@[simp] theorem modCv_host (c : Nat) (g : CvSt → CvSt) : (s.modCv c g).host = s.host := rfl
@[simp] theorem modCv_clause (c : Nat) (g : CvSt → CvSt) : (s.modCv c g).clause = s.clause := rfl
@[simp] theorem modCv_trees (c : Nat) (g : CvSt → CvSt) : (s.modCv c g).trees = s.trees := rfl
@[simp] theorem modCv_arms (c : Nat) (g : CvSt → CvSt) : (s.modCv c g).arms = s.arms := rfl
@[simp] theorem modCv_disp (c : Nat) (g : CvSt → CvSt) : (s.modCv c g).disp = s.disp := rfl
@[simp] theorem modCv_sram (c : Nat) (g : CvSt → CvSt) : (s.modCv c g).sram = s.sram := rfl
@[simp] theorem modCv_cellMem (c : Nat) (g : CvSt → CvSt) : (s.modCv c g).cellMem = s.cellMem := rfl
@[simp] theorem modCv_rgns (c : Nat) (g : CvSt → CvSt) : (s.modCv c g).rgns = s.rgns := rfl
@[simp] theorem modCv_rank (c : Nat) (g : CvSt → CvSt) : (s.modCv c g).rank = s.rank := rfl
@[simp] theorem modCv_image (c : Nat) (g : CvSt → CvSt) : (s.modCv c g).image = s.image := rfl
@[simp] theorem modCv_imageSet (c : Nat) (g : CvSt → CvSt) : (s.modCv c g).imageSet = s.imageSet := rfl
@[simp] theorem modCv_candidate (c : Nat) (g : CvSt → CvSt) : (s.modCv c g).candidate = s.candidate := rfl
@[simp] theorem modCv_imageNo (c : Nat) (g : CvSt → CvSt) : (s.modCv c g).imageNo = s.imageNo := rfl
@[simp] theorem modCv_mirror (c : Nat) (g : CvSt → CvSt) : (s.modCv c g).mirror = s.mirror := rfl
@[simp] theorem modCv_stn (c : Nat) (g : CvSt → CvSt) : (s.modCv c g).stn = s.stn := rfl
@[simp] theorem modCv_sec (c : Nat) (g : CvSt → CvSt) : (s.modCv c g).sec = s.sec := rfl
@[simp] theorem modCv_pending (c : Nat) (g : CvSt → CvSt) : (s.modCv c g).pending = s.pending := rfl
@[simp] theorem modAux_regs (c : Nat) (g : AuxSt → AuxSt) : (s.modAux c g).regs = s.regs := rfl
@[simp] theorem modAux_lastRead (c : Nat) (g : AuxSt → AuxSt) : (s.modAux c g).lastRead = s.lastRead := rfl
@[simp] theorem modAux_latch (c : Nat) (g : AuxSt → AuxSt) : (s.modAux c g).latch = s.latch := rfl
@[simp] theorem modAux_held (c : Nat) (g : AuxSt → AuxSt) : (s.modAux c g).held = s.held := rfl
@[simp] theorem modAux_free (c : Nat) (g : AuxSt → AuxSt) : (s.modAux c g).free = s.free := rfl
@[simp] theorem modAux_hwSet (c : Nat) (g : AuxSt → AuxSt) : (s.modAux c g).hwSet = s.hwSet := rfl
@[simp] theorem modAux_time (c : Nat) (g : AuxSt → AuxSt) : (s.modAux c g).time = s.time := rfl
@[simp] theorem modAux_colls (c : Nat) (g : AuxSt → AuxSt) : (s.modAux c g).colls = s.colls := rfl
@[simp] theorem modAux_evLost (c : Nat) (g : AuxSt → AuxSt) : (s.modAux c g).evLost = s.evLost := rfl
@[simp] theorem modAux_mode (c : Nat) (g : AuxSt → AuxSt) : (s.modAux c g).mode = s.mode := rfl
@[simp] theorem modAux_host (c : Nat) (g : AuxSt → AuxSt) : (s.modAux c g).host = s.host := rfl
@[simp] theorem modAux_clause (c : Nat) (g : AuxSt → AuxSt) : (s.modAux c g).clause = s.clause := rfl
@[simp] theorem modAux_trees (c : Nat) (g : AuxSt → AuxSt) : (s.modAux c g).trees = s.trees := rfl
@[simp] theorem modAux_arms (c : Nat) (g : AuxSt → AuxSt) : (s.modAux c g).arms = s.arms := rfl
@[simp] theorem modAux_disp (c : Nat) (g : AuxSt → AuxSt) : (s.modAux c g).disp = s.disp := rfl
@[simp] theorem modAux_sram (c : Nat) (g : AuxSt → AuxSt) : (s.modAux c g).sram = s.sram := rfl
@[simp] theorem modAux_cellMem (c : Nat) (g : AuxSt → AuxSt) : (s.modAux c g).cellMem = s.cellMem := rfl
@[simp] theorem modAux_rgns (c : Nat) (g : AuxSt → AuxSt) : (s.modAux c g).rgns = s.rgns := rfl
@[simp] theorem modAux_rank (c : Nat) (g : AuxSt → AuxSt) : (s.modAux c g).rank = s.rank := rfl
@[simp] theorem modAux_image (c : Nat) (g : AuxSt → AuxSt) : (s.modAux c g).image = s.image := rfl
@[simp] theorem modAux_imageSet (c : Nat) (g : AuxSt → AuxSt) : (s.modAux c g).imageSet = s.imageSet := rfl
@[simp] theorem modAux_candidate (c : Nat) (g : AuxSt → AuxSt) : (s.modAux c g).candidate = s.candidate := rfl
@[simp] theorem modAux_imageNo (c : Nat) (g : AuxSt → AuxSt) : (s.modAux c g).imageNo = s.imageNo := rfl
@[simp] theorem modAux_mirror (c : Nat) (g : AuxSt → AuxSt) : (s.modAux c g).mirror = s.mirror := rfl
@[simp] theorem modAux_stn (c : Nat) (g : AuxSt → AuxSt) : (s.modAux c g).stn = s.stn := rfl
@[simp] theorem modAux_sec (c : Nat) (g : AuxSt → AuxSt) : (s.modAux c g).sec = s.sec := rfl
@[simp] theorem modAux_pending (c : Nat) (g : AuxSt → AuxSt) : (s.modAux c g).pending = s.pending := rfl
@[simp] theorem modGlim_regs (c : Nat) (g : GlimSt → GlimSt) : (s.modGlim c g).regs = s.regs := rfl
@[simp] theorem modGlim_lastRead (c : Nat) (g : GlimSt → GlimSt) : (s.modGlim c g).lastRead = s.lastRead := rfl
@[simp] theorem modGlim_latch (c : Nat) (g : GlimSt → GlimSt) : (s.modGlim c g).latch = s.latch := rfl
@[simp] theorem modGlim_held (c : Nat) (g : GlimSt → GlimSt) : (s.modGlim c g).held = s.held := rfl
@[simp] theorem modGlim_free (c : Nat) (g : GlimSt → GlimSt) : (s.modGlim c g).free = s.free := rfl
@[simp] theorem modGlim_hwSet (c : Nat) (g : GlimSt → GlimSt) : (s.modGlim c g).hwSet = s.hwSet := rfl
@[simp] theorem modGlim_time (c : Nat) (g : GlimSt → GlimSt) : (s.modGlim c g).time = s.time := rfl
@[simp] theorem modGlim_colls (c : Nat) (g : GlimSt → GlimSt) : (s.modGlim c g).colls = s.colls := rfl
@[simp] theorem modGlim_evLost (c : Nat) (g : GlimSt → GlimSt) : (s.modGlim c g).evLost = s.evLost := rfl
@[simp] theorem modGlim_mode (c : Nat) (g : GlimSt → GlimSt) : (s.modGlim c g).mode = s.mode := rfl
@[simp] theorem modGlim_host (c : Nat) (g : GlimSt → GlimSt) : (s.modGlim c g).host = s.host := rfl
@[simp] theorem modGlim_clause (c : Nat) (g : GlimSt → GlimSt) : (s.modGlim c g).clause = s.clause := rfl
@[simp] theorem modGlim_trees (c : Nat) (g : GlimSt → GlimSt) : (s.modGlim c g).trees = s.trees := rfl
@[simp] theorem modGlim_arms (c : Nat) (g : GlimSt → GlimSt) : (s.modGlim c g).arms = s.arms := rfl
@[simp] theorem modGlim_disp (c : Nat) (g : GlimSt → GlimSt) : (s.modGlim c g).disp = s.disp := rfl
@[simp] theorem modGlim_sram (c : Nat) (g : GlimSt → GlimSt) : (s.modGlim c g).sram = s.sram := rfl
@[simp] theorem modGlim_cellMem (c : Nat) (g : GlimSt → GlimSt) : (s.modGlim c g).cellMem = s.cellMem := rfl
@[simp] theorem modGlim_rgns (c : Nat) (g : GlimSt → GlimSt) : (s.modGlim c g).rgns = s.rgns := rfl
@[simp] theorem modGlim_rank (c : Nat) (g : GlimSt → GlimSt) : (s.modGlim c g).rank = s.rank := rfl
@[simp] theorem modGlim_image (c : Nat) (g : GlimSt → GlimSt) : (s.modGlim c g).image = s.image := rfl
@[simp] theorem modGlim_imageSet (c : Nat) (g : GlimSt → GlimSt) : (s.modGlim c g).imageSet = s.imageSet := rfl
@[simp] theorem modGlim_candidate (c : Nat) (g : GlimSt → GlimSt) : (s.modGlim c g).candidate = s.candidate := rfl
@[simp] theorem modGlim_imageNo (c : Nat) (g : GlimSt → GlimSt) : (s.modGlim c g).imageNo = s.imageNo := rfl
@[simp] theorem modGlim_mirror (c : Nat) (g : GlimSt → GlimSt) : (s.modGlim c g).mirror = s.mirror := rfl
@[simp] theorem modGlim_stn (c : Nat) (g : GlimSt → GlimSt) : (s.modGlim c g).stn = s.stn := rfl
@[simp] theorem modGlim_sec (c : Nat) (g : GlimSt → GlimSt) : (s.modGlim c g).sec = s.sec := rfl
@[simp] theorem modGlim_pending (c : Nat) (g : GlimSt → GlimSt) : (s.modGlim c g).pending = s.pending := rfl
@[simp] theorem modPair_regs (c k : Nat) (g : PairSt → PairSt) : (s.modPair c k g).regs = s.regs := rfl
@[simp] theorem modPair_lastRead (c k : Nat) (g : PairSt → PairSt) : (s.modPair c k g).lastRead = s.lastRead := rfl
@[simp] theorem modPair_latch (c k : Nat) (g : PairSt → PairSt) : (s.modPair c k g).latch = s.latch := rfl
@[simp] theorem modPair_held (c k : Nat) (g : PairSt → PairSt) : (s.modPair c k g).held = s.held := rfl
@[simp] theorem modPair_free (c k : Nat) (g : PairSt → PairSt) : (s.modPair c k g).free = s.free := rfl
@[simp] theorem modPair_hwSet (c k : Nat) (g : PairSt → PairSt) : (s.modPair c k g).hwSet = s.hwSet := rfl
@[simp] theorem modPair_time (c k : Nat) (g : PairSt → PairSt) : (s.modPair c k g).time = s.time := rfl
@[simp] theorem modPair_colls (c k : Nat) (g : PairSt → PairSt) : (s.modPair c k g).colls = s.colls := rfl
@[simp] theorem modPair_evLost (c k : Nat) (g : PairSt → PairSt) : (s.modPair c k g).evLost = s.evLost := rfl
@[simp] theorem modPair_mode (c k : Nat) (g : PairSt → PairSt) : (s.modPair c k g).mode = s.mode := rfl
@[simp] theorem modPair_host (c k : Nat) (g : PairSt → PairSt) : (s.modPair c k g).host = s.host := rfl
@[simp] theorem modPair_clause (c k : Nat) (g : PairSt → PairSt) : (s.modPair c k g).clause = s.clause := rfl
@[simp] theorem modPair_trees (c k : Nat) (g : PairSt → PairSt) : (s.modPair c k g).trees = s.trees := rfl
@[simp] theorem modPair_arms (c k : Nat) (g : PairSt → PairSt) : (s.modPair c k g).arms = s.arms := rfl
@[simp] theorem modPair_disp (c k : Nat) (g : PairSt → PairSt) : (s.modPair c k g).disp = s.disp := rfl
@[simp] theorem modPair_sram (c k : Nat) (g : PairSt → PairSt) : (s.modPair c k g).sram = s.sram := rfl
@[simp] theorem modPair_cellMem (c k : Nat) (g : PairSt → PairSt) : (s.modPair c k g).cellMem = s.cellMem := rfl
@[simp] theorem modPair_rgns (c k : Nat) (g : PairSt → PairSt) : (s.modPair c k g).rgns = s.rgns := rfl
@[simp] theorem modPair_rank (c k : Nat) (g : PairSt → PairSt) : (s.modPair c k g).rank = s.rank := rfl
@[simp] theorem modPair_image (c k : Nat) (g : PairSt → PairSt) : (s.modPair c k g).image = s.image := rfl
@[simp] theorem modPair_imageSet (c k : Nat) (g : PairSt → PairSt) : (s.modPair c k g).imageSet = s.imageSet := rfl
@[simp] theorem modPair_candidate (c k : Nat) (g : PairSt → PairSt) : (s.modPair c k g).candidate = s.candidate := rfl
@[simp] theorem modPair_imageNo (c k : Nat) (g : PairSt → PairSt) : (s.modPair c k g).imageNo = s.imageNo := rfl
@[simp] theorem modPair_mirror (c k : Nat) (g : PairSt → PairSt) : (s.modPair c k g).mirror = s.mirror := rfl
@[simp] theorem modPair_stn (c k : Nat) (g : PairSt → PairSt) : (s.modPair c k g).stn = s.stn := rfl
@[simp] theorem modPair_sec (c k : Nat) (g : PairSt → PairSt) : (s.modPair c k g).sec = s.sec := rfl
@[simp] theorem modPair_pending (c k : Nat) (g : PairSt → PairSt) : (s.modPair c k g).pending = s.pending := rfl
@[simp] theorem modDisp_regs (r : Nat) (g : DispSt → DispSt) : (s.modDisp r g).regs = s.regs := rfl
@[simp] theorem modDisp_lastRead (r : Nat) (g : DispSt → DispSt) : (s.modDisp r g).lastRead = s.lastRead := rfl
@[simp] theorem modDisp_latch (r : Nat) (g : DispSt → DispSt) : (s.modDisp r g).latch = s.latch := rfl
@[simp] theorem modDisp_held (r : Nat) (g : DispSt → DispSt) : (s.modDisp r g).held = s.held := rfl
@[simp] theorem modDisp_free (r : Nat) (g : DispSt → DispSt) : (s.modDisp r g).free = s.free := rfl
@[simp] theorem modDisp_hwSet (r : Nat) (g : DispSt → DispSt) : (s.modDisp r g).hwSet = s.hwSet := rfl
@[simp] theorem modDisp_time (r : Nat) (g : DispSt → DispSt) : (s.modDisp r g).time = s.time := rfl
@[simp] theorem modDisp_colls (r : Nat) (g : DispSt → DispSt) : (s.modDisp r g).colls = s.colls := rfl
@[simp] theorem modDisp_evLost (r : Nat) (g : DispSt → DispSt) : (s.modDisp r g).evLost = s.evLost := rfl
@[simp] theorem modDisp_mode (r : Nat) (g : DispSt → DispSt) : (s.modDisp r g).mode = s.mode := rfl
@[simp] theorem modDisp_host (r : Nat) (g : DispSt → DispSt) : (s.modDisp r g).host = s.host := rfl
@[simp] theorem modDisp_clause (r : Nat) (g : DispSt → DispSt) : (s.modDisp r g).clause = s.clause := rfl
@[simp] theorem modDisp_trees (r : Nat) (g : DispSt → DispSt) : (s.modDisp r g).trees = s.trees := rfl
@[simp] theorem modDisp_arms (r : Nat) (g : DispSt → DispSt) : (s.modDisp r g).arms = s.arms := rfl
@[simp] theorem modDisp_sram (r : Nat) (g : DispSt → DispSt) : (s.modDisp r g).sram = s.sram := rfl
@[simp] theorem modDisp_cellMem (r : Nat) (g : DispSt → DispSt) : (s.modDisp r g).cellMem = s.cellMem := rfl
@[simp] theorem modDisp_rgns (r : Nat) (g : DispSt → DispSt) : (s.modDisp r g).rgns = s.rgns := rfl
@[simp] theorem modDisp_rank (r : Nat) (g : DispSt → DispSt) : (s.modDisp r g).rank = s.rank := rfl
@[simp] theorem modDisp_image (r : Nat) (g : DispSt → DispSt) : (s.modDisp r g).image = s.image := rfl
@[simp] theorem modDisp_imageSet (r : Nat) (g : DispSt → DispSt) : (s.modDisp r g).imageSet = s.imageSet := rfl
@[simp] theorem modDisp_candidate (r : Nat) (g : DispSt → DispSt) : (s.modDisp r g).candidate = s.candidate := rfl
@[simp] theorem modDisp_imageNo (r : Nat) (g : DispSt → DispSt) : (s.modDisp r g).imageNo = s.imageNo := rfl
@[simp] theorem modDisp_mirror (r : Nat) (g : DispSt → DispSt) : (s.modDisp r g).mirror = s.mirror := rfl
@[simp] theorem modDisp_stn (r : Nat) (g : DispSt → DispSt) : (s.modDisp r g).stn = s.stn := rfl
@[simp] theorem modDisp_cells (r : Nat) (g : DispSt → DispSt) : (s.modDisp r g).cells = s.cells := rfl
@[simp] theorem modDisp_sec (r : Nat) (g : DispSt → DispSt) : (s.modDisp r g).sec = s.sec := rfl
@[simp] theorem modDisp_pending (r : Nat) (g : DispSt → DispSt) : (s.modDisp r g).pending = s.pending := rfl
@[simp] theorem modEng_regs (r e : Nat) (g : Eng → Eng) : (s.modEng r e g).regs = s.regs := rfl
@[simp] theorem modEng_lastRead (r e : Nat) (g : Eng → Eng) : (s.modEng r e g).lastRead = s.lastRead := rfl
@[simp] theorem modEng_latch (r e : Nat) (g : Eng → Eng) : (s.modEng r e g).latch = s.latch := rfl
@[simp] theorem modEng_held (r e : Nat) (g : Eng → Eng) : (s.modEng r e g).held = s.held := rfl
@[simp] theorem modEng_free (r e : Nat) (g : Eng → Eng) : (s.modEng r e g).free = s.free := rfl
@[simp] theorem modEng_hwSet (r e : Nat) (g : Eng → Eng) : (s.modEng r e g).hwSet = s.hwSet := rfl
@[simp] theorem modEng_time (r e : Nat) (g : Eng → Eng) : (s.modEng r e g).time = s.time := rfl
@[simp] theorem modEng_colls (r e : Nat) (g : Eng → Eng) : (s.modEng r e g).colls = s.colls := rfl
@[simp] theorem modEng_evLost (r e : Nat) (g : Eng → Eng) : (s.modEng r e g).evLost = s.evLost := rfl
@[simp] theorem modEng_mode (r e : Nat) (g : Eng → Eng) : (s.modEng r e g).mode = s.mode := rfl
@[simp] theorem modEng_host (r e : Nat) (g : Eng → Eng) : (s.modEng r e g).host = s.host := rfl
@[simp] theorem modEng_clause (r e : Nat) (g : Eng → Eng) : (s.modEng r e g).clause = s.clause := rfl
@[simp] theorem modEng_trees (r e : Nat) (g : Eng → Eng) : (s.modEng r e g).trees = s.trees := rfl
@[simp] theorem modEng_arms (r e : Nat) (g : Eng → Eng) : (s.modEng r e g).arms = s.arms := rfl
@[simp] theorem modEng_sram (r e : Nat) (g : Eng → Eng) : (s.modEng r e g).sram = s.sram := rfl
@[simp] theorem modEng_cellMem (r e : Nat) (g : Eng → Eng) : (s.modEng r e g).cellMem = s.cellMem := rfl
@[simp] theorem modEng_rgns (r e : Nat) (g : Eng → Eng) : (s.modEng r e g).rgns = s.rgns := rfl
@[simp] theorem modEng_rank (r e : Nat) (g : Eng → Eng) : (s.modEng r e g).rank = s.rank := rfl
@[simp] theorem modEng_image (r e : Nat) (g : Eng → Eng) : (s.modEng r e g).image = s.image := rfl
@[simp] theorem modEng_imageSet (r e : Nat) (g : Eng → Eng) : (s.modEng r e g).imageSet = s.imageSet := rfl
@[simp] theorem modEng_candidate (r e : Nat) (g : Eng → Eng) : (s.modEng r e g).candidate = s.candidate := rfl
@[simp] theorem modEng_imageNo (r e : Nat) (g : Eng → Eng) : (s.modEng r e g).imageNo = s.imageNo := rfl
@[simp] theorem modEng_mirror (r e : Nat) (g : Eng → Eng) : (s.modEng r e g).mirror = s.mirror := rfl
@[simp] theorem modEng_stn (r e : Nat) (g : Eng → Eng) : (s.modEng r e g).stn = s.stn := rfl
@[simp] theorem modEng_cells (r e : Nat) (g : Eng → Eng) : (s.modEng r e g).cells = s.cells := rfl
@[simp] theorem modEng_sec (r e : Nat) (g : Eng → Eng) : (s.modEng r e g).sec = s.sec := rfl
@[simp] theorem modEng_pending (r e : Nat) (g : Eng → Eng) : (s.modEng r e g).pending = s.pending := rfl
@[simp] theorem modRank_regs (c : Nat) (g : RankCell → RankCell) : (s.modRank c g).regs = s.regs := rfl
@[simp] theorem modRank_lastRead (c : Nat) (g : RankCell → RankCell) : (s.modRank c g).lastRead = s.lastRead := rfl
@[simp] theorem modRank_latch (c : Nat) (g : RankCell → RankCell) : (s.modRank c g).latch = s.latch := rfl
@[simp] theorem modRank_held (c : Nat) (g : RankCell → RankCell) : (s.modRank c g).held = s.held := rfl
@[simp] theorem modRank_free (c : Nat) (g : RankCell → RankCell) : (s.modRank c g).free = s.free := rfl
@[simp] theorem modRank_hwSet (c : Nat) (g : RankCell → RankCell) : (s.modRank c g).hwSet = s.hwSet := rfl
@[simp] theorem modRank_time (c : Nat) (g : RankCell → RankCell) : (s.modRank c g).time = s.time := rfl
@[simp] theorem modRank_colls (c : Nat) (g : RankCell → RankCell) : (s.modRank c g).colls = s.colls := rfl
@[simp] theorem modRank_evLost (c : Nat) (g : RankCell → RankCell) : (s.modRank c g).evLost = s.evLost := rfl
@[simp] theorem modRank_mode (c : Nat) (g : RankCell → RankCell) : (s.modRank c g).mode = s.mode := rfl
@[simp] theorem modRank_host (c : Nat) (g : RankCell → RankCell) : (s.modRank c g).host = s.host := rfl
@[simp] theorem modRank_clause (c : Nat) (g : RankCell → RankCell) : (s.modRank c g).clause = s.clause := rfl
@[simp] theorem modRank_trees (c : Nat) (g : RankCell → RankCell) : (s.modRank c g).trees = s.trees := rfl
@[simp] theorem modRank_arms (c : Nat) (g : RankCell → RankCell) : (s.modRank c g).arms = s.arms := rfl
@[simp] theorem modRank_disp (c : Nat) (g : RankCell → RankCell) : (s.modRank c g).disp = s.disp := rfl
@[simp] theorem modRank_sram (c : Nat) (g : RankCell → RankCell) : (s.modRank c g).sram = s.sram := rfl
@[simp] theorem modRank_cellMem (c : Nat) (g : RankCell → RankCell) : (s.modRank c g).cellMem = s.cellMem := rfl
@[simp] theorem modRank_rgns (c : Nat) (g : RankCell → RankCell) : (s.modRank c g).rgns = s.rgns := rfl
@[simp] theorem modRank_image (c : Nat) (g : RankCell → RankCell) : (s.modRank c g).image = s.image := rfl
@[simp] theorem modRank_imageSet (c : Nat) (g : RankCell → RankCell) : (s.modRank c g).imageSet = s.imageSet := rfl
@[simp] theorem modRank_candidate (c : Nat) (g : RankCell → RankCell) : (s.modRank c g).candidate = s.candidate := rfl
@[simp] theorem modRank_imageNo (c : Nat) (g : RankCell → RankCell) : (s.modRank c g).imageNo = s.imageNo := rfl
@[simp] theorem modRank_mirror (c : Nat) (g : RankCell → RankCell) : (s.modRank c g).mirror = s.mirror := rfl
@[simp] theorem modRank_stn (c : Nat) (g : RankCell → RankCell) : (s.modRank c g).stn = s.stn := rfl
@[simp] theorem modRank_cells (c : Nat) (g : RankCell → RankCell) : (s.modRank c g).cells = s.cells := rfl
@[simp] theorem modRank_sec (c : Nat) (g : RankCell → RankCell) : (s.modRank c g).sec = s.sec := rfl
@[simp] theorem modRank_pending (c : Nat) (g : RankCell → RankCell) : (s.modRank c g).pending = s.pending := rfl
@[simp] theorem modArm_regs (r a : Nat) (g : ArmSt → ArmSt) : (s.modArm r a g).regs = s.regs := rfl
@[simp] theorem modArm_lastRead (r a : Nat) (g : ArmSt → ArmSt) : (s.modArm r a g).lastRead = s.lastRead := rfl
@[simp] theorem modArm_latch (r a : Nat) (g : ArmSt → ArmSt) : (s.modArm r a g).latch = s.latch := rfl
@[simp] theorem modArm_held (r a : Nat) (g : ArmSt → ArmSt) : (s.modArm r a g).held = s.held := rfl
@[simp] theorem modArm_free (r a : Nat) (g : ArmSt → ArmSt) : (s.modArm r a g).free = s.free := rfl
@[simp] theorem modArm_hwSet (r a : Nat) (g : ArmSt → ArmSt) : (s.modArm r a g).hwSet = s.hwSet := rfl
@[simp] theorem modArm_time (r a : Nat) (g : ArmSt → ArmSt) : (s.modArm r a g).time = s.time := rfl
@[simp] theorem modArm_colls (r a : Nat) (g : ArmSt → ArmSt) : (s.modArm r a g).colls = s.colls := rfl
@[simp] theorem modArm_evLost (r a : Nat) (g : ArmSt → ArmSt) : (s.modArm r a g).evLost = s.evLost := rfl
@[simp] theorem modArm_mode (r a : Nat) (g : ArmSt → ArmSt) : (s.modArm r a g).mode = s.mode := rfl
@[simp] theorem modArm_host (r a : Nat) (g : ArmSt → ArmSt) : (s.modArm r a g).host = s.host := rfl
@[simp] theorem modArm_clause (r a : Nat) (g : ArmSt → ArmSt) : (s.modArm r a g).clause = s.clause := rfl
@[simp] theorem modArm_trees (r a : Nat) (g : ArmSt → ArmSt) : (s.modArm r a g).trees = s.trees := rfl
@[simp] theorem modArm_disp (r a : Nat) (g : ArmSt → ArmSt) : (s.modArm r a g).disp = s.disp := rfl
@[simp] theorem modArm_sram (r a : Nat) (g : ArmSt → ArmSt) : (s.modArm r a g).sram = s.sram := rfl
@[simp] theorem modArm_cellMem (r a : Nat) (g : ArmSt → ArmSt) : (s.modArm r a g).cellMem = s.cellMem := rfl
@[simp] theorem modArm_rgns (r a : Nat) (g : ArmSt → ArmSt) : (s.modArm r a g).rgns = s.rgns := rfl
@[simp] theorem modArm_rank (r a : Nat) (g : ArmSt → ArmSt) : (s.modArm r a g).rank = s.rank := rfl
@[simp] theorem modArm_image (r a : Nat) (g : ArmSt → ArmSt) : (s.modArm r a g).image = s.image := rfl
@[simp] theorem modArm_imageSet (r a : Nat) (g : ArmSt → ArmSt) : (s.modArm r a g).imageSet = s.imageSet := rfl
@[simp] theorem modArm_candidate (r a : Nat) (g : ArmSt → ArmSt) : (s.modArm r a g).candidate = s.candidate := rfl
@[simp] theorem modArm_imageNo (r a : Nat) (g : ArmSt → ArmSt) : (s.modArm r a g).imageNo = s.imageNo := rfl
@[simp] theorem modArm_mirror (r a : Nat) (g : ArmSt → ArmSt) : (s.modArm r a g).mirror = s.mirror := rfl
@[simp] theorem modArm_stn (r a : Nat) (g : ArmSt → ArmSt) : (s.modArm r a g).stn = s.stn := rfl
@[simp] theorem modArm_cells (r a : Nat) (g : ArmSt → ArmSt) : (s.modArm r a g).cells = s.cells := rfl
@[simp] theorem modArm_sec (r a : Nat) (g : ArmSt → ArmSt) : (s.modArm r a g).sec = s.sec := rfl
@[simp] theorem modArm_pending (r a : Nat) (g : ArmSt → ArmSt) : (s.modArm r a g).pending = s.pending := rfl
@[simp] theorem modRgn_regs (r : Nat) (g : RgnSt → RgnSt) : (s.modRgn r g).regs = s.regs := rfl
@[simp] theorem modRgn_lastRead (r : Nat) (g : RgnSt → RgnSt) : (s.modRgn r g).lastRead = s.lastRead := rfl
@[simp] theorem modRgn_latch (r : Nat) (g : RgnSt → RgnSt) : (s.modRgn r g).latch = s.latch := rfl
@[simp] theorem modRgn_held (r : Nat) (g : RgnSt → RgnSt) : (s.modRgn r g).held = s.held := rfl
@[simp] theorem modRgn_free (r : Nat) (g : RgnSt → RgnSt) : (s.modRgn r g).free = s.free := rfl
@[simp] theorem modRgn_hwSet (r : Nat) (g : RgnSt → RgnSt) : (s.modRgn r g).hwSet = s.hwSet := rfl
@[simp] theorem modRgn_time (r : Nat) (g : RgnSt → RgnSt) : (s.modRgn r g).time = s.time := rfl
@[simp] theorem modRgn_colls (r : Nat) (g : RgnSt → RgnSt) : (s.modRgn r g).colls = s.colls := rfl
@[simp] theorem modRgn_evLost (r : Nat) (g : RgnSt → RgnSt) : (s.modRgn r g).evLost = s.evLost := rfl
@[simp] theorem modRgn_mode (r : Nat) (g : RgnSt → RgnSt) : (s.modRgn r g).mode = s.mode := rfl
@[simp] theorem modRgn_host (r : Nat) (g : RgnSt → RgnSt) : (s.modRgn r g).host = s.host := rfl
@[simp] theorem modRgn_clause (r : Nat) (g : RgnSt → RgnSt) : (s.modRgn r g).clause = s.clause := rfl
@[simp] theorem modRgn_trees (r : Nat) (g : RgnSt → RgnSt) : (s.modRgn r g).trees = s.trees := rfl
@[simp] theorem modRgn_arms (r : Nat) (g : RgnSt → RgnSt) : (s.modRgn r g).arms = s.arms := rfl
@[simp] theorem modRgn_disp (r : Nat) (g : RgnSt → RgnSt) : (s.modRgn r g).disp = s.disp := rfl
@[simp] theorem modRgn_sram (r : Nat) (g : RgnSt → RgnSt) : (s.modRgn r g).sram = s.sram := rfl
@[simp] theorem modRgn_cellMem (r : Nat) (g : RgnSt → RgnSt) : (s.modRgn r g).cellMem = s.cellMem := rfl
@[simp] theorem modRgn_rank (r : Nat) (g : RgnSt → RgnSt) : (s.modRgn r g).rank = s.rank := rfl
@[simp] theorem modRgn_image (r : Nat) (g : RgnSt → RgnSt) : (s.modRgn r g).image = s.image := rfl
@[simp] theorem modRgn_imageSet (r : Nat) (g : RgnSt → RgnSt) : (s.modRgn r g).imageSet = s.imageSet := rfl
@[simp] theorem modRgn_candidate (r : Nat) (g : RgnSt → RgnSt) : (s.modRgn r g).candidate = s.candidate := rfl
@[simp] theorem modRgn_imageNo (r : Nat) (g : RgnSt → RgnSt) : (s.modRgn r g).imageNo = s.imageNo := rfl
@[simp] theorem modRgn_mirror (r : Nat) (g : RgnSt → RgnSt) : (s.modRgn r g).mirror = s.mirror := rfl
@[simp] theorem modRgn_stn (r : Nat) (g : RgnSt → RgnSt) : (s.modRgn r g).stn = s.stn := rfl
@[simp] theorem modRgn_cells (r : Nat) (g : RgnSt → RgnSt) : (s.modRgn r g).cells = s.cells := rfl
@[simp] theorem modRgn_sec (r : Nat) (g : RgnSt → RgnSt) : (s.modRgn r g).sec = s.sec := rfl
@[simp] theorem modRgn_pending (r : Nat) (g : RgnSt → RgnSt) : (s.modRgn r g).pending = s.pending := rfl
@[simp] theorem modMirror_regs (g : MirrorSt → MirrorSt) : (s.modMirror g).regs = s.regs := rfl
@[simp] theorem modMirror_lastRead (g : MirrorSt → MirrorSt) : (s.modMirror g).lastRead = s.lastRead := rfl
@[simp] theorem modMirror_latch (g : MirrorSt → MirrorSt) : (s.modMirror g).latch = s.latch := rfl
@[simp] theorem modMirror_held (g : MirrorSt → MirrorSt) : (s.modMirror g).held = s.held := rfl
@[simp] theorem modMirror_free (g : MirrorSt → MirrorSt) : (s.modMirror g).free = s.free := rfl
@[simp] theorem modMirror_hwSet (g : MirrorSt → MirrorSt) : (s.modMirror g).hwSet = s.hwSet := rfl
@[simp] theorem modMirror_time (g : MirrorSt → MirrorSt) : (s.modMirror g).time = s.time := rfl
@[simp] theorem modMirror_colls (g : MirrorSt → MirrorSt) : (s.modMirror g).colls = s.colls := rfl
@[simp] theorem modMirror_evLost (g : MirrorSt → MirrorSt) : (s.modMirror g).evLost = s.evLost := rfl
@[simp] theorem modMirror_mode (g : MirrorSt → MirrorSt) : (s.modMirror g).mode = s.mode := rfl
@[simp] theorem modMirror_host (g : MirrorSt → MirrorSt) : (s.modMirror g).host = s.host := rfl
@[simp] theorem modMirror_clause (g : MirrorSt → MirrorSt) : (s.modMirror g).clause = s.clause := rfl
@[simp] theorem modMirror_trees (g : MirrorSt → MirrorSt) : (s.modMirror g).trees = s.trees := rfl
@[simp] theorem modMirror_arms (g : MirrorSt → MirrorSt) : (s.modMirror g).arms = s.arms := rfl
@[simp] theorem modMirror_disp (g : MirrorSt → MirrorSt) : (s.modMirror g).disp = s.disp := rfl
@[simp] theorem modMirror_sram (g : MirrorSt → MirrorSt) : (s.modMirror g).sram = s.sram := rfl
@[simp] theorem modMirror_cellMem (g : MirrorSt → MirrorSt) : (s.modMirror g).cellMem = s.cellMem := rfl
@[simp] theorem modMirror_rgns (g : MirrorSt → MirrorSt) : (s.modMirror g).rgns = s.rgns := rfl
@[simp] theorem modMirror_rank (g : MirrorSt → MirrorSt) : (s.modMirror g).rank = s.rank := rfl
@[simp] theorem modMirror_image (g : MirrorSt → MirrorSt) : (s.modMirror g).image = s.image := rfl
@[simp] theorem modMirror_imageSet (g : MirrorSt → MirrorSt) : (s.modMirror g).imageSet = s.imageSet := rfl
@[simp] theorem modMirror_candidate (g : MirrorSt → MirrorSt) : (s.modMirror g).candidate = s.candidate := rfl
@[simp] theorem modMirror_imageNo (g : MirrorSt → MirrorSt) : (s.modMirror g).imageNo = s.imageNo := rfl
@[simp] theorem modMirror_stn (g : MirrorSt → MirrorSt) : (s.modMirror g).stn = s.stn := rfl
@[simp] theorem modMirror_cells (g : MirrorSt → MirrorSt) : (s.modMirror g).cells = s.cells := rfl
@[simp] theorem modMirror_sec (g : MirrorSt → MirrorSt) : (s.modMirror g).sec = s.sec := rfl
@[simp] theorem modMirror_pending (g : MirrorSt → MirrorSt) : (s.modMirror g).pending = s.pending := rfl
@[simp] theorem rgnWrite_regs (r a : Nat) (l : List Byte) : (s.rgnWrite r a l).regs = s.regs := rfl
@[simp] theorem rgnWrite_lastRead (r a : Nat) (l : List Byte) : (s.rgnWrite r a l).lastRead = s.lastRead := rfl
@[simp] theorem rgnWrite_latch (r a : Nat) (l : List Byte) : (s.rgnWrite r a l).latch = s.latch := rfl
@[simp] theorem rgnWrite_held (r a : Nat) (l : List Byte) : (s.rgnWrite r a l).held = s.held := rfl
@[simp] theorem rgnWrite_free (r a : Nat) (l : List Byte) : (s.rgnWrite r a l).free = s.free := rfl
@[simp] theorem rgnWrite_hwSet (r a : Nat) (l : List Byte) : (s.rgnWrite r a l).hwSet = s.hwSet := rfl
@[simp] theorem rgnWrite_time (r a : Nat) (l : List Byte) : (s.rgnWrite r a l).time = s.time := rfl
@[simp] theorem rgnWrite_colls (r a : Nat) (l : List Byte) : (s.rgnWrite r a l).colls = s.colls := rfl
@[simp] theorem rgnWrite_evLost (r a : Nat) (l : List Byte) : (s.rgnWrite r a l).evLost = s.evLost := rfl
@[simp] theorem rgnWrite_mode (r a : Nat) (l : List Byte) : (s.rgnWrite r a l).mode = s.mode := rfl
@[simp] theorem rgnWrite_host (r a : Nat) (l : List Byte) : (s.rgnWrite r a l).host = s.host := rfl
@[simp] theorem rgnWrite_clause (r a : Nat) (l : List Byte) : (s.rgnWrite r a l).clause = s.clause := rfl
@[simp] theorem rgnWrite_trees (r a : Nat) (l : List Byte) : (s.rgnWrite r a l).trees = s.trees := rfl
@[simp] theorem rgnWrite_arms (r a : Nat) (l : List Byte) : (s.rgnWrite r a l).arms = s.arms := rfl
@[simp] theorem rgnWrite_disp (r a : Nat) (l : List Byte) : (s.rgnWrite r a l).disp = s.disp := rfl
@[simp] theorem rgnWrite_cellMem (r a : Nat) (l : List Byte) : (s.rgnWrite r a l).cellMem = s.cellMem := rfl
@[simp] theorem rgnWrite_rgns (r a : Nat) (l : List Byte) : (s.rgnWrite r a l).rgns = s.rgns := rfl
@[simp] theorem rgnWrite_rank (r a : Nat) (l : List Byte) : (s.rgnWrite r a l).rank = s.rank := rfl
@[simp] theorem rgnWrite_image (r a : Nat) (l : List Byte) : (s.rgnWrite r a l).image = s.image := rfl
@[simp] theorem rgnWrite_imageSet (r a : Nat) (l : List Byte) : (s.rgnWrite r a l).imageSet = s.imageSet := rfl
@[simp] theorem rgnWrite_candidate (r a : Nat) (l : List Byte) : (s.rgnWrite r a l).candidate = s.candidate := rfl
@[simp] theorem rgnWrite_imageNo (r a : Nat) (l : List Byte) : (s.rgnWrite r a l).imageNo = s.imageNo := rfl
@[simp] theorem rgnWrite_mirror (r a : Nat) (l : List Byte) : (s.rgnWrite r a l).mirror = s.mirror := rfl
@[simp] theorem rgnWrite_stn (r a : Nat) (l : List Byte) : (s.rgnWrite r a l).stn = s.stn := rfl
@[simp] theorem rgnWrite_cells (r a : Nat) (l : List Byte) : (s.rgnWrite r a l).cells = s.cells := rfl
@[simp] theorem rgnWrite_sec (r a : Nat) (l : List Byte) : (s.rgnWrite r a l).sec = s.sec := rfl
@[simp] theorem rgnWrite_pending (r a : Nat) (l : List Byte) : (s.rgnWrite r a l).pending = s.pending := rfl
@[simp] theorem setWord_regs (r a : Nat) (w : W32) : (s.setWord r a w).regs = s.regs := rfl
@[simp] theorem setWord_lastRead (r a : Nat) (w : W32) : (s.setWord r a w).lastRead = s.lastRead := rfl
@[simp] theorem setWord_latch (r a : Nat) (w : W32) : (s.setWord r a w).latch = s.latch := rfl
@[simp] theorem setWord_held (r a : Nat) (w : W32) : (s.setWord r a w).held = s.held := rfl
@[simp] theorem setWord_free (r a : Nat) (w : W32) : (s.setWord r a w).free = s.free := rfl
@[simp] theorem setWord_hwSet (r a : Nat) (w : W32) : (s.setWord r a w).hwSet = s.hwSet := rfl
@[simp] theorem setWord_time (r a : Nat) (w : W32) : (s.setWord r a w).time = s.time := rfl
@[simp] theorem setWord_colls (r a : Nat) (w : W32) : (s.setWord r a w).colls = s.colls := rfl
@[simp] theorem setWord_evLost (r a : Nat) (w : W32) : (s.setWord r a w).evLost = s.evLost := rfl
@[simp] theorem setWord_mode (r a : Nat) (w : W32) : (s.setWord r a w).mode = s.mode := rfl
@[simp] theorem setWord_host (r a : Nat) (w : W32) : (s.setWord r a w).host = s.host := rfl
@[simp] theorem setWord_clause (r a : Nat) (w : W32) : (s.setWord r a w).clause = s.clause := rfl
@[simp] theorem setWord_trees (r a : Nat) (w : W32) : (s.setWord r a w).trees = s.trees := rfl
@[simp] theorem setWord_arms (r a : Nat) (w : W32) : (s.setWord r a w).arms = s.arms := rfl
@[simp] theorem setWord_disp (r a : Nat) (w : W32) : (s.setWord r a w).disp = s.disp := rfl
@[simp] theorem setWord_cellMem (r a : Nat) (w : W32) : (s.setWord r a w).cellMem = s.cellMem := rfl
@[simp] theorem setWord_rgns (r a : Nat) (w : W32) : (s.setWord r a w).rgns = s.rgns := rfl
@[simp] theorem setWord_rank (r a : Nat) (w : W32) : (s.setWord r a w).rank = s.rank := rfl
@[simp] theorem setWord_image (r a : Nat) (w : W32) : (s.setWord r a w).image = s.image := rfl
@[simp] theorem setWord_imageSet (r a : Nat) (w : W32) : (s.setWord r a w).imageSet = s.imageSet := rfl
@[simp] theorem setWord_candidate (r a : Nat) (w : W32) : (s.setWord r a w).candidate = s.candidate := rfl
@[simp] theorem setWord_imageNo (r a : Nat) (w : W32) : (s.setWord r a w).imageNo = s.imageNo := rfl
@[simp] theorem setWord_mirror (r a : Nat) (w : W32) : (s.setWord r a w).mirror = s.mirror := rfl
@[simp] theorem setWord_stn (r a : Nat) (w : W32) : (s.setWord r a w).stn = s.stn := rfl
@[simp] theorem setWord_cells (r a : Nat) (w : W32) : (s.setWord r a w).cells = s.cells := rfl
@[simp] theorem setWord_sec (r a : Nat) (w : W32) : (s.setWord r a w).sec = s.sec := rfl
@[simp] theorem setWord_pending (r a : Nat) (w : W32) : (s.setWord r a w).pending = s.pending := rfl
@[simp] theorem cellWrite_regs (c a : Nat) (l : List Byte) : (s.cellWrite c a l).regs = s.regs := rfl
@[simp] theorem cellWrite_lastRead (c a : Nat) (l : List Byte) : (s.cellWrite c a l).lastRead = s.lastRead := rfl
@[simp] theorem cellWrite_latch (c a : Nat) (l : List Byte) : (s.cellWrite c a l).latch = s.latch := rfl
@[simp] theorem cellWrite_held (c a : Nat) (l : List Byte) : (s.cellWrite c a l).held = s.held := rfl
@[simp] theorem cellWrite_free (c a : Nat) (l : List Byte) : (s.cellWrite c a l).free = s.free := rfl
@[simp] theorem cellWrite_hwSet (c a : Nat) (l : List Byte) : (s.cellWrite c a l).hwSet = s.hwSet := rfl
@[simp] theorem cellWrite_time (c a : Nat) (l : List Byte) : (s.cellWrite c a l).time = s.time := rfl
@[simp] theorem cellWrite_colls (c a : Nat) (l : List Byte) : (s.cellWrite c a l).colls = s.colls := rfl
@[simp] theorem cellWrite_evLost (c a : Nat) (l : List Byte) : (s.cellWrite c a l).evLost = s.evLost := rfl
@[simp] theorem cellWrite_mode (c a : Nat) (l : List Byte) : (s.cellWrite c a l).mode = s.mode := rfl
@[simp] theorem cellWrite_host (c a : Nat) (l : List Byte) : (s.cellWrite c a l).host = s.host := rfl
@[simp] theorem cellWrite_clause (c a : Nat) (l : List Byte) : (s.cellWrite c a l).clause = s.clause := rfl
@[simp] theorem cellWrite_trees (c a : Nat) (l : List Byte) : (s.cellWrite c a l).trees = s.trees := rfl
@[simp] theorem cellWrite_arms (c a : Nat) (l : List Byte) : (s.cellWrite c a l).arms = s.arms := rfl
@[simp] theorem cellWrite_disp (c a : Nat) (l : List Byte) : (s.cellWrite c a l).disp = s.disp := rfl
@[simp] theorem cellWrite_sram (c a : Nat) (l : List Byte) : (s.cellWrite c a l).sram = s.sram := rfl
@[simp] theorem cellWrite_rgns (c a : Nat) (l : List Byte) : (s.cellWrite c a l).rgns = s.rgns := rfl
@[simp] theorem cellWrite_rank (c a : Nat) (l : List Byte) : (s.cellWrite c a l).rank = s.rank := rfl
@[simp] theorem cellWrite_image (c a : Nat) (l : List Byte) : (s.cellWrite c a l).image = s.image := rfl
@[simp] theorem cellWrite_imageSet (c a : Nat) (l : List Byte) : (s.cellWrite c a l).imageSet = s.imageSet := rfl
@[simp] theorem cellWrite_candidate (c a : Nat) (l : List Byte) : (s.cellWrite c a l).candidate = s.candidate := rfl
@[simp] theorem cellWrite_imageNo (c a : Nat) (l : List Byte) : (s.cellWrite c a l).imageNo = s.imageNo := rfl
@[simp] theorem cellWrite_mirror (c a : Nat) (l : List Byte) : (s.cellWrite c a l).mirror = s.mirror := rfl
@[simp] theorem cellWrite_stn (c a : Nat) (l : List Byte) : (s.cellWrite c a l).stn = s.stn := rfl
@[simp] theorem cellWrite_cells (c a : Nat) (l : List Byte) : (s.cellWrite c a l).cells = s.cells := rfl
@[simp] theorem cellWrite_sec (c a : Nat) (l : List Byte) : (s.cellWrite c a l).sec = s.sec := rfl
@[simp] theorem cellWrite_pending (c a : Nat) (l : List Byte) : (s.cellWrite c a l).pending = s.pending := rfl
@[simp] theorem cput_regs (c a n v : Nat) : (s.cput c a n v).regs = s.regs := rfl
@[simp] theorem cput_lastRead (c a n v : Nat) : (s.cput c a n v).lastRead = s.lastRead := rfl
@[simp] theorem cput_latch (c a n v : Nat) : (s.cput c a n v).latch = s.latch := rfl
@[simp] theorem cput_held (c a n v : Nat) : (s.cput c a n v).held = s.held := rfl
@[simp] theorem cput_free (c a n v : Nat) : (s.cput c a n v).free = s.free := rfl
@[simp] theorem cput_hwSet (c a n v : Nat) : (s.cput c a n v).hwSet = s.hwSet := rfl
@[simp] theorem cput_time (c a n v : Nat) : (s.cput c a n v).time = s.time := rfl
@[simp] theorem cput_colls (c a n v : Nat) : (s.cput c a n v).colls = s.colls := rfl
@[simp] theorem cput_evLost (c a n v : Nat) : (s.cput c a n v).evLost = s.evLost := rfl
@[simp] theorem cput_mode (c a n v : Nat) : (s.cput c a n v).mode = s.mode := rfl
@[simp] theorem cput_host (c a n v : Nat) : (s.cput c a n v).host = s.host := rfl
@[simp] theorem cput_clause (c a n v : Nat) : (s.cput c a n v).clause = s.clause := rfl
@[simp] theorem cput_trees (c a n v : Nat) : (s.cput c a n v).trees = s.trees := rfl
@[simp] theorem cput_arms (c a n v : Nat) : (s.cput c a n v).arms = s.arms := rfl
@[simp] theorem cput_disp (c a n v : Nat) : (s.cput c a n v).disp = s.disp := rfl
@[simp] theorem cput_sram (c a n v : Nat) : (s.cput c a n v).sram = s.sram := rfl
@[simp] theorem cput_rgns (c a n v : Nat) : (s.cput c a n v).rgns = s.rgns := rfl
@[simp] theorem cput_rank (c a n v : Nat) : (s.cput c a n v).rank = s.rank := rfl
@[simp] theorem cput_image (c a n v : Nat) : (s.cput c a n v).image = s.image := rfl
@[simp] theorem cput_imageSet (c a n v : Nat) : (s.cput c a n v).imageSet = s.imageSet := rfl
@[simp] theorem cput_candidate (c a n v : Nat) : (s.cput c a n v).candidate = s.candidate := rfl
@[simp] theorem cput_imageNo (c a n v : Nat) : (s.cput c a n v).imageNo = s.imageNo := rfl
@[simp] theorem cput_mirror (c a n v : Nat) : (s.cput c a n v).mirror = s.mirror := rfl
@[simp] theorem cput_stn (c a n v : Nat) : (s.cput c a n v).stn = s.stn := rfl
@[simp] theorem cput_cells (c a n v : Nat) : (s.cput c a n v).cells = s.cells := rfl
@[simp] theorem cput_sec (c a n v : Nat) : (s.cput c a n v).sec = s.sec := rfl
@[simp] theorem cput_pending (c a n v : Nat) : (s.cput c a n v).pending = s.pending := rfl
@[simp] theorem queueMram_regs : (s.queueMram).regs = s.regs := rfl
@[simp] theorem queueMram_lastRead : (s.queueMram).lastRead = s.lastRead := rfl
@[simp] theorem queueMram_latch : (s.queueMram).latch = s.latch := rfl
@[simp] theorem queueMram_held : (s.queueMram).held = s.held := rfl
@[simp] theorem queueMram_free : (s.queueMram).free = s.free := rfl
@[simp] theorem queueMram_hwSet : (s.queueMram).hwSet = s.hwSet := rfl
@[simp] theorem queueMram_time : (s.queueMram).time = s.time := rfl
@[simp] theorem queueMram_colls : (s.queueMram).colls = s.colls := rfl
@[simp] theorem queueMram_evLost : (s.queueMram).evLost = s.evLost := rfl
@[simp] theorem queueMram_host : (s.queueMram).host = s.host := rfl
@[simp] theorem queueMram_clause : (s.queueMram).clause = s.clause := rfl
@[simp] theorem queueMram_trees : (s.queueMram).trees = s.trees := rfl
@[simp] theorem queueMram_arms : (s.queueMram).arms = s.arms := rfl
@[simp] theorem queueMram_disp : (s.queueMram).disp = s.disp := rfl
@[simp] theorem queueMram_sram : (s.queueMram).sram = s.sram := rfl
@[simp] theorem queueMram_cellMem : (s.queueMram).cellMem = s.cellMem := rfl
@[simp] theorem queueMram_rgns : (s.queueMram).rgns = s.rgns := rfl
@[simp] theorem queueMram_rank : (s.queueMram).rank = s.rank := rfl
@[simp] theorem queueMram_image : (s.queueMram).image = s.image := rfl
@[simp] theorem queueMram_imageSet : (s.queueMram).imageSet = s.imageSet := rfl
@[simp] theorem queueMram_candidate : (s.queueMram).candidate = s.candidate := rfl
@[simp] theorem queueMram_imageNo : (s.queueMram).imageNo = s.imageNo := rfl
@[simp] theorem queueMram_mirror : (s.queueMram).mirror = s.mirror := rfl
@[simp] theorem queueMram_stn : (s.queueMram).stn = s.stn := rfl
@[simp] theorem queueMram_cells : (s.queueMram).cells = s.cells := rfl
@[simp] theorem queueMram_sec : (s.queueMram).sec = s.sec := rfl
@[simp] theorem queueMram_pending : (s.queueMram).pending = s.pending := rfl
@[simp] theorem noteWake_regs (n : Nat) : (s.noteWake n).regs = s.regs := rfl
@[simp] theorem noteWake_lastRead (n : Nat) : (s.noteWake n).lastRead = s.lastRead := rfl
@[simp] theorem noteWake_latch (n : Nat) : (s.noteWake n).latch = s.latch := rfl
@[simp] theorem noteWake_held (n : Nat) : (s.noteWake n).held = s.held := rfl
@[simp] theorem noteWake_free (n : Nat) : (s.noteWake n).free = s.free := rfl
@[simp] theorem noteWake_hwSet (n : Nat) : (s.noteWake n).hwSet = s.hwSet := rfl
@[simp] theorem noteWake_time (n : Nat) : (s.noteWake n).time = s.time := rfl
@[simp] theorem noteWake_colls (n : Nat) : (s.noteWake n).colls = s.colls := rfl
@[simp] theorem noteWake_evLost (n : Nat) : (s.noteWake n).evLost = s.evLost := rfl
@[simp] theorem noteWake_host (n : Nat) : (s.noteWake n).host = s.host := rfl
@[simp] theorem noteWake_clause (n : Nat) : (s.noteWake n).clause = s.clause := rfl
@[simp] theorem noteWake_trees (n : Nat) : (s.noteWake n).trees = s.trees := rfl
@[simp] theorem noteWake_arms (n : Nat) : (s.noteWake n).arms = s.arms := rfl
@[simp] theorem noteWake_disp (n : Nat) : (s.noteWake n).disp = s.disp := rfl
@[simp] theorem noteWake_sram (n : Nat) : (s.noteWake n).sram = s.sram := rfl
@[simp] theorem noteWake_cellMem (n : Nat) : (s.noteWake n).cellMem = s.cellMem := rfl
@[simp] theorem noteWake_rgns (n : Nat) : (s.noteWake n).rgns = s.rgns := rfl
@[simp] theorem noteWake_rank (n : Nat) : (s.noteWake n).rank = s.rank := rfl
@[simp] theorem noteWake_image (n : Nat) : (s.noteWake n).image = s.image := rfl
@[simp] theorem noteWake_imageSet (n : Nat) : (s.noteWake n).imageSet = s.imageSet := rfl
@[simp] theorem noteWake_candidate (n : Nat) : (s.noteWake n).candidate = s.candidate := rfl
@[simp] theorem noteWake_imageNo (n : Nat) : (s.noteWake n).imageNo = s.imageNo := rfl
@[simp] theorem noteWake_mirror (n : Nat) : (s.noteWake n).mirror = s.mirror := rfl
@[simp] theorem noteWake_stn (n : Nat) : (s.noteWake n).stn = s.stn := rfl
@[simp] theorem noteWake_cells (n : Nat) : (s.noteWake n).cells = s.cells := rfl
@[simp] theorem noteWake_sec (n : Nat) : (s.noteWake n).sec = s.sec := rfl
@[simp] theorem noteWake_pending (n : Nat) : (s.noteWake n).pending = s.pending := rfl
@[simp] theorem cellTo_regs (c n : Nat) : (s.cellTo c n).regs = s.regs := by unfold State.cellTo; split <;> rfl
@[simp] theorem cellTo_lastRead (c n : Nat) : (s.cellTo c n).lastRead = s.lastRead := by unfold State.cellTo; split <;> rfl
@[simp] theorem cellTo_latch (c n : Nat) : (s.cellTo c n).latch = s.latch := by unfold State.cellTo; split <;> rfl
@[simp] theorem cellTo_held (c n : Nat) : (s.cellTo c n).held = s.held := by unfold State.cellTo; split <;> rfl
@[simp] theorem cellTo_free (c n : Nat) : (s.cellTo c n).free = s.free := by unfold State.cellTo; split <;> rfl
@[simp] theorem cellTo_hwSet (c n : Nat) : (s.cellTo c n).hwSet = s.hwSet := by unfold State.cellTo; split <;> rfl
@[simp] theorem cellTo_time (c n : Nat) : (s.cellTo c n).time = s.time := by unfold State.cellTo; split <;> rfl
@[simp] theorem cellTo_colls (c n : Nat) : (s.cellTo c n).colls = s.colls := by unfold State.cellTo; split <;> rfl
@[simp] theorem cellTo_evLost (c n : Nat) : (s.cellTo c n).evLost = s.evLost := by unfold State.cellTo; split <;> rfl
@[simp] theorem cellTo_mode (c n : Nat) : (s.cellTo c n).mode = s.mode := by unfold State.cellTo; split <;> rfl
@[simp] theorem cellTo_host (c n : Nat) : (s.cellTo c n).host = s.host := by unfold State.cellTo; split <;> rfl
@[simp] theorem cellTo_clause (c n : Nat) : (s.cellTo c n).clause = s.clause := by unfold State.cellTo; split <;> rfl
@[simp] theorem cellTo_trees (c n : Nat) : (s.cellTo c n).trees = s.trees := by unfold State.cellTo; split <;> rfl
@[simp] theorem cellTo_arms (c n : Nat) : (s.cellTo c n).arms = s.arms := by unfold State.cellTo; split <;> rfl
@[simp] theorem cellTo_disp (c n : Nat) : (s.cellTo c n).disp = s.disp := by unfold State.cellTo; split <;> rfl
@[simp] theorem cellTo_sram (c n : Nat) : (s.cellTo c n).sram = s.sram := by unfold State.cellTo; split <;> rfl
@[simp] theorem cellTo_cellMem (c n : Nat) : (s.cellTo c n).cellMem = s.cellMem := by unfold State.cellTo; split <;> rfl
@[simp] theorem cellTo_rgns (c n : Nat) : (s.cellTo c n).rgns = s.rgns := by unfold State.cellTo; split <;> rfl
@[simp] theorem cellTo_rank (c n : Nat) : (s.cellTo c n).rank = s.rank := by unfold State.cellTo; split <;> rfl
@[simp] theorem cellTo_image (c n : Nat) : (s.cellTo c n).image = s.image := by unfold State.cellTo; split <;> rfl
@[simp] theorem cellTo_imageSet (c n : Nat) : (s.cellTo c n).imageSet = s.imageSet := by unfold State.cellTo; split <;> rfl
@[simp] theorem cellTo_candidate (c n : Nat) : (s.cellTo c n).candidate = s.candidate := by unfold State.cellTo; split <;> rfl
@[simp] theorem cellTo_imageNo (c n : Nat) : (s.cellTo c n).imageNo = s.imageNo := by unfold State.cellTo; split <;> rfl
@[simp] theorem cellTo_mirror (c n : Nat) : (s.cellTo c n).mirror = s.mirror := by unfold State.cellTo; split <;> rfl
@[simp] theorem cellTo_stn (c n : Nat) : (s.cellTo c n).stn = s.stn := by unfold State.cellTo; split <;> rfl
@[simp] theorem cellTo_sec (c n : Nat) : (s.cellTo c n).sec = s.sec := by unfold State.cellTo; split <;> rfl
@[simp] theorem cellTo_pending (c n : Nat) : (s.cellTo c n).pending = s.pending := by unfold State.cellTo; split <;> rfl

/-! ### The counter running on (R56, R63): in M0 to M4 a step on the way may change TIME_STAT, MIRR_STAT and the Mirror state, and nothing else -/

@[simp] theorem counterAt_regs (n : Nat) : (s.counterAt n).regs = s.regs := by
  unfold State.counterAt; split <;> rfl
@[simp] theorem counterAt_lastRead (n : Nat) : (s.counterAt n).lastRead = s.lastRead := by
  unfold State.counterAt; split <;> rfl
@[simp] theorem counterAt_latch (n : Nat) : (s.counterAt n).latch = s.latch := by
  unfold State.counterAt; split <;> rfl
@[simp] theorem counterAt_held (n : Nat) : (s.counterAt n).held = s.held := by
  unfold State.counterAt; split <;> rfl
@[simp] theorem counterAt_free (n : Nat) : (s.counterAt n).free = s.free := by
  unfold State.counterAt; split <;> rfl
@[simp] theorem counterAt_hwSet (n : Nat) : (s.counterAt n).hwSet = s.hwSet := by
  unfold State.counterAt; split <;> rfl
@[simp] theorem counterAt_colls (n : Nat) : (s.counterAt n).colls = s.colls := by
  unfold State.counterAt; split <;> rfl
@[simp] theorem counterAt_evLost (n : Nat) : (s.counterAt n).evLost = s.evLost := by
  unfold State.counterAt; split <;> rfl
@[simp] theorem counterAt_mode (n : Nat) : (s.counterAt n).mode = s.mode := by
  unfold State.counterAt; split <;> rfl
@[simp] theorem counterAt_host (n : Nat) : (s.counterAt n).host = s.host := by
  unfold State.counterAt; split <;> rfl
@[simp] theorem counterAt_clause (n : Nat) : (s.counterAt n).clause = s.clause := by
  unfold State.counterAt; split <;> rfl
@[simp] theorem counterAt_trees (n : Nat) : (s.counterAt n).trees = s.trees := by
  unfold State.counterAt; split <;> rfl
@[simp] theorem counterAt_arms (n : Nat) : (s.counterAt n).arms = s.arms := by
  unfold State.counterAt; split <;> rfl
@[simp] theorem counterAt_disp (n : Nat) : (s.counterAt n).disp = s.disp := by
  unfold State.counterAt; split <;> rfl
@[simp] theorem counterAt_sram (n : Nat) : (s.counterAt n).sram = s.sram := by
  unfold State.counterAt; split <;> rfl
@[simp] theorem counterAt_cellMem (n : Nat) : (s.counterAt n).cellMem = s.cellMem := by
  unfold State.counterAt; split <;> rfl
@[simp] theorem counterAt_rgns (n : Nat) : (s.counterAt n).rgns = s.rgns := by
  unfold State.counterAt; split <;> rfl
@[simp] theorem counterAt_rank (n : Nat) : (s.counterAt n).rank = s.rank := by
  unfold State.counterAt; split <;> rfl
@[simp] theorem counterAt_image (n : Nat) : (s.counterAt n).image = s.image := by
  unfold State.counterAt; split <;> rfl
@[simp] theorem counterAt_imageSet (n : Nat) : (s.counterAt n).imageSet = s.imageSet := by
  unfold State.counterAt; split <;> rfl
@[simp] theorem counterAt_candidate (n : Nat) : (s.counterAt n).candidate = s.candidate := by
  unfold State.counterAt; split <;> rfl
@[simp] theorem counterAt_imageNo (n : Nat) : (s.counterAt n).imageNo = s.imageNo := by
  unfold State.counterAt; split <;> rfl
@[simp] theorem counterAt_mirror (n : Nat) : (s.counterAt n).mirror = s.mirror := by
  unfold State.counterAt; split <;> rfl
@[simp] theorem counterAt_stn (n : Nat) : (s.counterAt n).stn = s.stn := by
  unfold State.counterAt; split <;> rfl
@[simp] theorem counterAt_cells (n : Nat) : (s.counterAt n).cells = s.cells := by
  unfold State.counterAt; split <;> rfl
@[simp] theorem counterAt_sec (n : Nat) : (s.counterAt n).sec = s.sec := by
  unfold State.counterAt; split <;> rfl
@[simp] theorem counterAt_pending (n : Nat) : (s.counterAt n).pending = s.pending := by
  unfold State.counterAt; split <;> rfl
@[simp] theorem showArmed_lastRead : (s.showArmed).lastRead = s.lastRead := by
  rfl
@[simp] theorem showArmed_latch : (s.showArmed).latch = s.latch := by
  rfl
@[simp] theorem showArmed_held : (s.showArmed).held = s.held := by
  rfl
@[simp] theorem showArmed_free : (s.showArmed).free = s.free := by
  rfl
@[simp] theorem showArmed_colls : (s.showArmed).colls = s.colls := by
  rfl
@[simp] theorem showArmed_evLost : (s.showArmed).evLost = s.evLost := by
  rfl
@[simp] theorem showArmed_mode : (s.showArmed).mode = s.mode := by
  rfl
@[simp] theorem showArmed_host : (s.showArmed).host = s.host := by
  rfl
@[simp] theorem showArmed_clause : (s.showArmed).clause = s.clause := by
  rfl
@[simp] theorem showArmed_trees : (s.showArmed).trees = s.trees := by
  rfl
@[simp] theorem showArmed_arms : (s.showArmed).arms = s.arms := by
  rfl
@[simp] theorem showArmed_disp : (s.showArmed).disp = s.disp := by
  rfl
@[simp] theorem showArmed_sram : (s.showArmed).sram = s.sram := by
  rfl
@[simp] theorem showArmed_cellMem : (s.showArmed).cellMem = s.cellMem := by
  rfl
@[simp] theorem showArmed_rgns : (s.showArmed).rgns = s.rgns := by
  rfl
@[simp] theorem showArmed_rank : (s.showArmed).rank = s.rank := by
  rfl
@[simp] theorem showArmed_image : (s.showArmed).image = s.image := by
  rfl
@[simp] theorem showArmed_imageSet : (s.showArmed).imageSet = s.imageSet := by
  rfl
@[simp] theorem showArmed_candidate : (s.showArmed).candidate = s.candidate := by
  rfl
@[simp] theorem showArmed_imageNo : (s.showArmed).imageNo = s.imageNo := by
  rfl
@[simp] theorem showArmed_stn : (s.showArmed).stn = s.stn := by
  rfl
@[simp] theorem showArmed_cells : (s.showArmed).cells = s.cells := by
  rfl
@[simp] theorem showArmed_sec : (s.showArmed).sec = s.sec := by
  rfl
@[simp] theorem showArmed_pending : (s.showArmed).pending = s.pending := by
  rfl
@[simp] theorem stepBy_lastRead (v : W64) : (s.stepBy v).lastRead = s.lastRead := by
  unfold State.stepBy; dsimp only; split <;> split <;> rfl
@[simp] theorem stepBy_latch (v : W64) : (s.stepBy v).latch = s.latch := by
  unfold State.stepBy; dsimp only; split <;> split <;> rfl
@[simp] theorem stepBy_held (v : W64) : (s.stepBy v).held = s.held := by
  unfold State.stepBy; dsimp only; split <;> split <;> rfl
@[simp] theorem stepBy_free (v : W64) : (s.stepBy v).free = s.free := by
  unfold State.stepBy; dsimp only; split <;> split <;> rfl
@[simp] theorem stepBy_colls (v : W64) : (s.stepBy v).colls = s.colls := by
  unfold State.stepBy; dsimp only; split <;> split <;> rfl
@[simp] theorem stepBy_evLost (v : W64) : (s.stepBy v).evLost = s.evLost := by
  unfold State.stepBy; dsimp only; split <;> split <;> rfl
@[simp] theorem stepBy_mode (v : W64) : (s.stepBy v).mode = s.mode := by
  unfold State.stepBy; dsimp only; split <;> split <;> rfl
@[simp] theorem stepBy_host (v : W64) : (s.stepBy v).host = s.host := by
  unfold State.stepBy; dsimp only; split <;> split <;> rfl
@[simp] theorem stepBy_clause (v : W64) : (s.stepBy v).clause = s.clause := by
  unfold State.stepBy; dsimp only; split <;> split <;> rfl
@[simp] theorem stepBy_trees (v : W64) : (s.stepBy v).trees = s.trees := by
  unfold State.stepBy; dsimp only; split <;> split <;> rfl
@[simp] theorem stepBy_arms (v : W64) : (s.stepBy v).arms = s.arms := by
  unfold State.stepBy; dsimp only; split <;> split <;> rfl
@[simp] theorem stepBy_disp (v : W64) : (s.stepBy v).disp = s.disp := by
  unfold State.stepBy; dsimp only; split <;> split <;> rfl
@[simp] theorem stepBy_sram (v : W64) : (s.stepBy v).sram = s.sram := by
  unfold State.stepBy; dsimp only; split <;> split <;> rfl
@[simp] theorem stepBy_cellMem (v : W64) : (s.stepBy v).cellMem = s.cellMem := by
  unfold State.stepBy; dsimp only; split <;> split <;> rfl
@[simp] theorem stepBy_rgns (v : W64) : (s.stepBy v).rgns = s.rgns := by
  unfold State.stepBy; dsimp only; split <;> split <;> rfl
@[simp] theorem stepBy_rank (v : W64) : (s.stepBy v).rank = s.rank := by
  unfold State.stepBy; dsimp only; split <;> split <;> rfl
@[simp] theorem stepBy_image (v : W64) : (s.stepBy v).image = s.image := by
  unfold State.stepBy; dsimp only; split <;> split <;> rfl
@[simp] theorem stepBy_imageSet (v : W64) : (s.stepBy v).imageSet = s.imageSet := by
  unfold State.stepBy; dsimp only; split <;> split <;> rfl
@[simp] theorem stepBy_candidate (v : W64) : (s.stepBy v).candidate = s.candidate := by
  unfold State.stepBy; dsimp only; split <;> split <;> rfl
@[simp] theorem stepBy_imageNo (v : W64) : (s.stepBy v).imageNo = s.imageNo := by
  unfold State.stepBy; dsimp only; split <;> split <;> rfl
@[simp] theorem stepBy_stn (v : W64) : (s.stepBy v).stn = s.stn := by
  unfold State.stepBy; dsimp only; split <;> split <;> rfl
@[simp] theorem stepBy_cells (v : W64) : (s.stepBy v).cells = s.cells := by
  unfold State.stepBy; dsimp only; split <;> split <;> rfl
@[simp] theorem stepBy_sec (v : W64) : (s.stepBy v).sec = s.sec := by
  unfold State.stepBy; dsimp only; split <;> split <;> rfl
@[simp] theorem stepBy_pending (v : W64) : (s.stepBy v).pending = s.pending := by
  unfold State.stepBy; dsimp only; split <;> split <;> rfl
@[simp] theorem stepDue_lastRead : (s.stepDue).lastRead = s.lastRead := by
  unfold State.stepDue
  split
  · split
    · simp only [showArmed_lastRead, stepBy_lastRead]
    · rfl
  · rfl
@[simp] theorem stepDue_latch : (s.stepDue).latch = s.latch := by
  unfold State.stepDue
  split
  · split
    · simp only [showArmed_latch, stepBy_latch]
    · rfl
  · rfl
@[simp] theorem stepDue_held : (s.stepDue).held = s.held := by
  unfold State.stepDue
  split
  · split
    · simp only [showArmed_held, stepBy_held]
    · rfl
  · rfl
@[simp] theorem stepDue_free : (s.stepDue).free = s.free := by
  unfold State.stepDue
  split
  · split
    · simp only [showArmed_free, stepBy_free]
    · rfl
  · rfl
@[simp] theorem stepDue_colls : (s.stepDue).colls = s.colls := by
  unfold State.stepDue
  split
  · split
    · simp only [showArmed_colls, stepBy_colls]
    · rfl
  · rfl
@[simp] theorem stepDue_evLost : (s.stepDue).evLost = s.evLost := by
  unfold State.stepDue
  split
  · split
    · simp only [showArmed_evLost, stepBy_evLost]
    · rfl
  · rfl
@[simp] theorem stepDue_mode : (s.stepDue).mode = s.mode := by
  unfold State.stepDue
  split
  · split
    · simp only [showArmed_mode, stepBy_mode]
    · rfl
  · rfl
@[simp] theorem stepDue_host : (s.stepDue).host = s.host := by
  unfold State.stepDue
  split
  · split
    · simp only [showArmed_host, stepBy_host]
    · rfl
  · rfl
@[simp] theorem stepDue_clause : (s.stepDue).clause = s.clause := by
  unfold State.stepDue
  split
  · split
    · simp only [showArmed_clause, stepBy_clause]
    · rfl
  · rfl
@[simp] theorem stepDue_trees : (s.stepDue).trees = s.trees := by
  unfold State.stepDue
  split
  · split
    · simp only [showArmed_trees, stepBy_trees]
    · rfl
  · rfl
@[simp] theorem stepDue_arms : (s.stepDue).arms = s.arms := by
  unfold State.stepDue
  split
  · split
    · simp only [showArmed_arms, stepBy_arms]
    · rfl
  · rfl
@[simp] theorem stepDue_disp : (s.stepDue).disp = s.disp := by
  unfold State.stepDue
  split
  · split
    · simp only [showArmed_disp, stepBy_disp]
    · rfl
  · rfl
@[simp] theorem stepDue_sram : (s.stepDue).sram = s.sram := by
  unfold State.stepDue
  split
  · split
    · simp only [showArmed_sram, stepBy_sram]
    · rfl
  · rfl
@[simp] theorem stepDue_cellMem : (s.stepDue).cellMem = s.cellMem := by
  unfold State.stepDue
  split
  · split
    · simp only [showArmed_cellMem, stepBy_cellMem]
    · rfl
  · rfl
@[simp] theorem stepDue_rgns : (s.stepDue).rgns = s.rgns := by
  unfold State.stepDue
  split
  · split
    · simp only [showArmed_rgns, stepBy_rgns]
    · rfl
  · rfl
@[simp] theorem stepDue_rank : (s.stepDue).rank = s.rank := by
  unfold State.stepDue
  split
  · split
    · simp only [showArmed_rank, stepBy_rank]
    · rfl
  · rfl
@[simp] theorem stepDue_image : (s.stepDue).image = s.image := by
  unfold State.stepDue
  split
  · split
    · simp only [showArmed_image, stepBy_image]
    · rfl
  · rfl
@[simp] theorem stepDue_imageSet : (s.stepDue).imageSet = s.imageSet := by
  unfold State.stepDue
  split
  · split
    · simp only [showArmed_imageSet, stepBy_imageSet]
    · rfl
  · rfl
@[simp] theorem stepDue_candidate : (s.stepDue).candidate = s.candidate := by
  unfold State.stepDue
  split
  · split
    · simp only [showArmed_candidate, stepBy_candidate]
    · rfl
  · rfl
@[simp] theorem stepDue_imageNo : (s.stepDue).imageNo = s.imageNo := by
  unfold State.stepDue
  split
  · split
    · simp only [showArmed_imageNo, stepBy_imageNo]
    · rfl
  · rfl
@[simp] theorem stepDue_stn : (s.stepDue).stn = s.stn := by
  unfold State.stepDue
  split
  · split
    · simp only [showArmed_stn, stepBy_stn]
    · rfl
  · rfl
@[simp] theorem stepDue_cells : (s.stepDue).cells = s.cells := by
  unfold State.stepDue
  split
  · split
    · simp only [showArmed_cells, stepBy_cells]
    · rfl
  · rfl
@[simp] theorem stepDue_sec : (s.stepDue).sec = s.sec := by
  unfold State.stepDue
  split
  · split
    · simp only [showArmed_sec, stepBy_sec]
    · rfl
  · rfl
@[simp] theorem stepDue_pending : (s.stepDue).pending = s.pending := by
  unfold State.stepDue
  split
  · split
    · simp only [showArmed_pending, stepBy_pending]
    · rfl
  · rfl
@[simp] theorem armedDue_lastRead : (s.armedDue).lastRead = s.lastRead := by
  unfold State.armedDue
  split
  · split
    · simp only [showArmed_lastRead, stepBy_lastRead]
    · rfl
  · rfl
@[simp] theorem armedDue_latch : (s.armedDue).latch = s.latch := by
  unfold State.armedDue
  split
  · split
    · simp only [showArmed_latch, stepBy_latch]
    · rfl
  · rfl
@[simp] theorem armedDue_held : (s.armedDue).held = s.held := by
  unfold State.armedDue
  split
  · split
    · simp only [showArmed_held, stepBy_held]
    · rfl
  · rfl
@[simp] theorem armedDue_free : (s.armedDue).free = s.free := by
  unfold State.armedDue
  split
  · split
    · simp only [showArmed_free, stepBy_free]
    · rfl
  · rfl
@[simp] theorem armedDue_colls : (s.armedDue).colls = s.colls := by
  unfold State.armedDue
  split
  · split
    · simp only [showArmed_colls, stepBy_colls]
    · rfl
  · rfl
@[simp] theorem armedDue_evLost : (s.armedDue).evLost = s.evLost := by
  unfold State.armedDue
  split
  · split
    · simp only [showArmed_evLost, stepBy_evLost]
    · rfl
  · rfl
@[simp] theorem armedDue_mode : (s.armedDue).mode = s.mode := by
  unfold State.armedDue
  split
  · split
    · simp only [showArmed_mode, stepBy_mode]
    · rfl
  · rfl
@[simp] theorem armedDue_host : (s.armedDue).host = s.host := by
  unfold State.armedDue
  split
  · split
    · simp only [showArmed_host, stepBy_host]
    · rfl
  · rfl
@[simp] theorem armedDue_clause : (s.armedDue).clause = s.clause := by
  unfold State.armedDue
  split
  · split
    · simp only [showArmed_clause, stepBy_clause]
    · rfl
  · rfl
@[simp] theorem armedDue_trees : (s.armedDue).trees = s.trees := by
  unfold State.armedDue
  split
  · split
    · simp only [showArmed_trees, stepBy_trees]
    · rfl
  · rfl
@[simp] theorem armedDue_arms : (s.armedDue).arms = s.arms := by
  unfold State.armedDue
  split
  · split
    · simp only [showArmed_arms, stepBy_arms]
    · rfl
  · rfl
@[simp] theorem armedDue_disp : (s.armedDue).disp = s.disp := by
  unfold State.armedDue
  split
  · split
    · simp only [showArmed_disp, stepBy_disp]
    · rfl
  · rfl
@[simp] theorem armedDue_sram : (s.armedDue).sram = s.sram := by
  unfold State.armedDue
  split
  · split
    · simp only [showArmed_sram, stepBy_sram]
    · rfl
  · rfl
@[simp] theorem armedDue_cellMem : (s.armedDue).cellMem = s.cellMem := by
  unfold State.armedDue
  split
  · split
    · simp only [showArmed_cellMem, stepBy_cellMem]
    · rfl
  · rfl
@[simp] theorem armedDue_rgns : (s.armedDue).rgns = s.rgns := by
  unfold State.armedDue
  split
  · split
    · simp only [showArmed_rgns, stepBy_rgns]
    · rfl
  · rfl
@[simp] theorem armedDue_rank : (s.armedDue).rank = s.rank := by
  unfold State.armedDue
  split
  · split
    · simp only [showArmed_rank, stepBy_rank]
    · rfl
  · rfl
@[simp] theorem armedDue_image : (s.armedDue).image = s.image := by
  unfold State.armedDue
  split
  · split
    · simp only [showArmed_image, stepBy_image]
    · rfl
  · rfl
@[simp] theorem armedDue_imageSet : (s.armedDue).imageSet = s.imageSet := by
  unfold State.armedDue
  split
  · split
    · simp only [showArmed_imageSet, stepBy_imageSet]
    · rfl
  · rfl
@[simp] theorem armedDue_candidate : (s.armedDue).candidate = s.candidate := by
  unfold State.armedDue
  split
  · split
    · simp only [showArmed_candidate, stepBy_candidate]
    · rfl
  · rfl
@[simp] theorem armedDue_imageNo : (s.armedDue).imageNo = s.imageNo := by
  unfold State.armedDue
  split
  · split
    · simp only [showArmed_imageNo, stepBy_imageNo]
    · rfl
  · rfl
@[simp] theorem armedDue_stn : (s.armedDue).stn = s.stn := by
  unfold State.armedDue
  split
  · split
    · simp only [showArmed_stn, stepBy_stn]
    · rfl
  · rfl
@[simp] theorem armedDue_cells : (s.armedDue).cells = s.cells := by
  unfold State.armedDue
  split
  · split
    · simp only [showArmed_cells, stepBy_cells]
    · rfl
  · rfl
@[simp] theorem armedDue_sec : (s.armedDue).sec = s.sec := by
  unfold State.armedDue
  split
  · split
    · simp only [showArmed_sec, stepBy_sec]
    · rfl
  · rfl
@[simp] theorem armedDue_pending : (s.armedDue).pending = s.pending := by
  unfold State.armedDue
  split
  · split
    · simp only [showArmed_pending, stepBy_pending]
    · rfl
  · rfl
@[simp] theorem stepNow_lastRead (e : Nat) : (s.stepNow e).lastRead = s.lastRead := by
  unfold State.stepNow; dsimp only; split <;> simp only [stepDue_lastRead, armedDue_lastRead, counterAt_lastRead]
@[simp] theorem stepNow_latch (e : Nat) : (s.stepNow e).latch = s.latch := by
  unfold State.stepNow; dsimp only; split <;> simp only [stepDue_latch, armedDue_latch, counterAt_latch]
@[simp] theorem stepNow_held (e : Nat) : (s.stepNow e).held = s.held := by
  unfold State.stepNow; dsimp only; split <;> simp only [stepDue_held, armedDue_held, counterAt_held]
@[simp] theorem stepNow_free (e : Nat) : (s.stepNow e).free = s.free := by
  unfold State.stepNow; dsimp only; split <;> simp only [stepDue_free, armedDue_free, counterAt_free]
@[simp] theorem stepNow_colls (e : Nat) : (s.stepNow e).colls = s.colls := by
  unfold State.stepNow; dsimp only; split <;> simp only [stepDue_colls, armedDue_colls, counterAt_colls]
@[simp] theorem stepNow_evLost (e : Nat) : (s.stepNow e).evLost = s.evLost := by
  unfold State.stepNow; dsimp only; split <;> simp only [stepDue_evLost, armedDue_evLost, counterAt_evLost]
@[simp] theorem stepNow_mode (e : Nat) : (s.stepNow e).mode = s.mode := by
  unfold State.stepNow; dsimp only; split <;> simp only [stepDue_mode, armedDue_mode, counterAt_mode]
@[simp] theorem stepNow_host (e : Nat) : (s.stepNow e).host = s.host := by
  unfold State.stepNow; dsimp only; split <;> simp only [stepDue_host, armedDue_host, counterAt_host]
@[simp] theorem stepNow_clause (e : Nat) : (s.stepNow e).clause = s.clause := by
  unfold State.stepNow; dsimp only; split <;> simp only [stepDue_clause, armedDue_clause, counterAt_clause]
@[simp] theorem stepNow_trees (e : Nat) : (s.stepNow e).trees = s.trees := by
  unfold State.stepNow; dsimp only; split <;> simp only [stepDue_trees, armedDue_trees, counterAt_trees]
@[simp] theorem stepNow_arms (e : Nat) : (s.stepNow e).arms = s.arms := by
  unfold State.stepNow; dsimp only; split <;> simp only [stepDue_arms, armedDue_arms, counterAt_arms]
@[simp] theorem stepNow_disp (e : Nat) : (s.stepNow e).disp = s.disp := by
  unfold State.stepNow; dsimp only; split <;> simp only [stepDue_disp, armedDue_disp, counterAt_disp]
@[simp] theorem stepNow_sram (e : Nat) : (s.stepNow e).sram = s.sram := by
  unfold State.stepNow; dsimp only; split <;> simp only [stepDue_sram, armedDue_sram, counterAt_sram]
@[simp] theorem stepNow_cellMem (e : Nat) : (s.stepNow e).cellMem = s.cellMem := by
  unfold State.stepNow; dsimp only; split <;> simp only [stepDue_cellMem, armedDue_cellMem, counterAt_cellMem]
@[simp] theorem stepNow_rgns (e : Nat) : (s.stepNow e).rgns = s.rgns := by
  unfold State.stepNow; dsimp only; split <;> simp only [stepDue_rgns, armedDue_rgns, counterAt_rgns]
@[simp] theorem stepNow_rank (e : Nat) : (s.stepNow e).rank = s.rank := by
  unfold State.stepNow; dsimp only; split <;> simp only [stepDue_rank, armedDue_rank, counterAt_rank]
@[simp] theorem stepNow_image (e : Nat) : (s.stepNow e).image = s.image := by
  unfold State.stepNow; dsimp only; split <;> simp only [stepDue_image, armedDue_image, counterAt_image]
@[simp] theorem stepNow_imageSet (e : Nat) : (s.stepNow e).imageSet = s.imageSet := by
  unfold State.stepNow; dsimp only; split <;> simp only [stepDue_imageSet, armedDue_imageSet, counterAt_imageSet]
@[simp] theorem stepNow_candidate (e : Nat) : (s.stepNow e).candidate = s.candidate := by
  unfold State.stepNow; dsimp only; split <;> simp only [stepDue_candidate, armedDue_candidate, counterAt_candidate]
@[simp] theorem stepNow_imageNo (e : Nat) : (s.stepNow e).imageNo = s.imageNo := by
  unfold State.stepNow; dsimp only; split <;> simp only [stepDue_imageNo, armedDue_imageNo, counterAt_imageNo]
@[simp] theorem stepNow_stn (e : Nat) : (s.stepNow e).stn = s.stn := by
  unfold State.stepNow; dsimp only; split <;> simp only [stepDue_stn, armedDue_stn, counterAt_stn]
@[simp] theorem stepNow_cells (e : Nat) : (s.stepNow e).cells = s.cells := by
  unfold State.stepNow; dsimp only; split <;> simp only [stepDue_cells, armedDue_cells, counterAt_cells]
@[simp] theorem stepNow_sec (e : Nat) : (s.stepNow e).sec = s.sec := by
  unfold State.stepNow; dsimp only; split <;> simp only [stepDue_sec, armedDue_sec, counterAt_sec]
@[simp] theorem stepNow_pending (e : Nat) : (s.stepNow e).pending = s.pending := by
  unfold State.stepNow; dsimp only; split <;> simp only [stepDue_pending, armedDue_pending, counterAt_pending]
theorem advance_lastRead (rel : Bool) (k : Nat) (s : State) (n : Nat) : (State.advance rel k s n).lastRead = s.lastRead := by
  induction k generalizing s n with
  | zero => exact counterAt_lastRead ..
  | succ k ih =>
    unfold State.advance
    split
    · split
      · rw [ih, stepNow_lastRead]
      · exact counterAt_lastRead ..
    · exact counterAt_lastRead ..
theorem advance_latch (rel : Bool) (k : Nat) (s : State) (n : Nat) : (State.advance rel k s n).latch = s.latch := by
  induction k generalizing s n with
  | zero => exact counterAt_latch ..
  | succ k ih =>
    unfold State.advance
    split
    · split
      · rw [ih, stepNow_latch]
      · exact counterAt_latch ..
    · exact counterAt_latch ..
theorem advance_held (rel : Bool) (k : Nat) (s : State) (n : Nat) : (State.advance rel k s n).held = s.held := by
  induction k generalizing s n with
  | zero => exact counterAt_held ..
  | succ k ih =>
    unfold State.advance
    split
    · split
      · rw [ih, stepNow_held]
      · exact counterAt_held ..
    · exact counterAt_held ..
theorem advance_free (rel : Bool) (k : Nat) (s : State) (n : Nat) : (State.advance rel k s n).free = s.free := by
  induction k generalizing s n with
  | zero => exact counterAt_free ..
  | succ k ih =>
    unfold State.advance
    split
    · split
      · rw [ih, stepNow_free]
      · exact counterAt_free ..
    · exact counterAt_free ..
theorem advance_colls (rel : Bool) (k : Nat) (s : State) (n : Nat) : (State.advance rel k s n).colls = s.colls := by
  induction k generalizing s n with
  | zero => exact counterAt_colls ..
  | succ k ih =>
    unfold State.advance
    split
    · split
      · rw [ih, stepNow_colls]
      · exact counterAt_colls ..
    · exact counterAt_colls ..
theorem advance_evLost (rel : Bool) (k : Nat) (s : State) (n : Nat) : (State.advance rel k s n).evLost = s.evLost := by
  induction k generalizing s n with
  | zero => exact counterAt_evLost ..
  | succ k ih =>
    unfold State.advance
    split
    · split
      · rw [ih, stepNow_evLost]
      · exact counterAt_evLost ..
    · exact counterAt_evLost ..
theorem advance_mode (rel : Bool) (k : Nat) (s : State) (n : Nat) : (State.advance rel k s n).mode = s.mode := by
  induction k generalizing s n with
  | zero => exact counterAt_mode ..
  | succ k ih =>
    unfold State.advance
    split
    · split
      · rw [ih, stepNow_mode]
      · exact counterAt_mode ..
    · exact counterAt_mode ..
theorem advance_host (rel : Bool) (k : Nat) (s : State) (n : Nat) : (State.advance rel k s n).host = s.host := by
  induction k generalizing s n with
  | zero => exact counterAt_host ..
  | succ k ih =>
    unfold State.advance
    split
    · split
      · rw [ih, stepNow_host]
      · exact counterAt_host ..
    · exact counterAt_host ..
theorem advance_clause (rel : Bool) (k : Nat) (s : State) (n : Nat) : (State.advance rel k s n).clause = s.clause := by
  induction k generalizing s n with
  | zero => exact counterAt_clause ..
  | succ k ih =>
    unfold State.advance
    split
    · split
      · rw [ih, stepNow_clause]
      · exact counterAt_clause ..
    · exact counterAt_clause ..
theorem advance_trees (rel : Bool) (k : Nat) (s : State) (n : Nat) : (State.advance rel k s n).trees = s.trees := by
  induction k generalizing s n with
  | zero => exact counterAt_trees ..
  | succ k ih =>
    unfold State.advance
    split
    · split
      · rw [ih, stepNow_trees]
      · exact counterAt_trees ..
    · exact counterAt_trees ..
theorem advance_arms (rel : Bool) (k : Nat) (s : State) (n : Nat) : (State.advance rel k s n).arms = s.arms := by
  induction k generalizing s n with
  | zero => exact counterAt_arms ..
  | succ k ih =>
    unfold State.advance
    split
    · split
      · rw [ih, stepNow_arms]
      · exact counterAt_arms ..
    · exact counterAt_arms ..
theorem advance_disp (rel : Bool) (k : Nat) (s : State) (n : Nat) : (State.advance rel k s n).disp = s.disp := by
  induction k generalizing s n with
  | zero => exact counterAt_disp ..
  | succ k ih =>
    unfold State.advance
    split
    · split
      · rw [ih, stepNow_disp]
      · exact counterAt_disp ..
    · exact counterAt_disp ..
theorem advance_sram (rel : Bool) (k : Nat) (s : State) (n : Nat) : (State.advance rel k s n).sram = s.sram := by
  induction k generalizing s n with
  | zero => exact counterAt_sram ..
  | succ k ih =>
    unfold State.advance
    split
    · split
      · rw [ih, stepNow_sram]
      · exact counterAt_sram ..
    · exact counterAt_sram ..
theorem advance_cellMem (rel : Bool) (k : Nat) (s : State) (n : Nat) : (State.advance rel k s n).cellMem = s.cellMem := by
  induction k generalizing s n with
  | zero => exact counterAt_cellMem ..
  | succ k ih =>
    unfold State.advance
    split
    · split
      · rw [ih, stepNow_cellMem]
      · exact counterAt_cellMem ..
    · exact counterAt_cellMem ..
theorem advance_rgns (rel : Bool) (k : Nat) (s : State) (n : Nat) : (State.advance rel k s n).rgns = s.rgns := by
  induction k generalizing s n with
  | zero => exact counterAt_rgns ..
  | succ k ih =>
    unfold State.advance
    split
    · split
      · rw [ih, stepNow_rgns]
      · exact counterAt_rgns ..
    · exact counterAt_rgns ..
theorem advance_rank (rel : Bool) (k : Nat) (s : State) (n : Nat) : (State.advance rel k s n).rank = s.rank := by
  induction k generalizing s n with
  | zero => exact counterAt_rank ..
  | succ k ih =>
    unfold State.advance
    split
    · split
      · rw [ih, stepNow_rank]
      · exact counterAt_rank ..
    · exact counterAt_rank ..
theorem advance_image (rel : Bool) (k : Nat) (s : State) (n : Nat) : (State.advance rel k s n).image = s.image := by
  induction k generalizing s n with
  | zero => exact counterAt_image ..
  | succ k ih =>
    unfold State.advance
    split
    · split
      · rw [ih, stepNow_image]
      · exact counterAt_image ..
    · exact counterAt_image ..
theorem advance_imageSet (rel : Bool) (k : Nat) (s : State) (n : Nat) : (State.advance rel k s n).imageSet = s.imageSet := by
  induction k generalizing s n with
  | zero => exact counterAt_imageSet ..
  | succ k ih =>
    unfold State.advance
    split
    · split
      · rw [ih, stepNow_imageSet]
      · exact counterAt_imageSet ..
    · exact counterAt_imageSet ..
theorem advance_candidate (rel : Bool) (k : Nat) (s : State) (n : Nat) : (State.advance rel k s n).candidate = s.candidate := by
  induction k generalizing s n with
  | zero => exact counterAt_candidate ..
  | succ k ih =>
    unfold State.advance
    split
    · split
      · rw [ih, stepNow_candidate]
      · exact counterAt_candidate ..
    · exact counterAt_candidate ..
theorem advance_imageNo (rel : Bool) (k : Nat) (s : State) (n : Nat) : (State.advance rel k s n).imageNo = s.imageNo := by
  induction k generalizing s n with
  | zero => exact counterAt_imageNo ..
  | succ k ih =>
    unfold State.advance
    split
    · split
      · rw [ih, stepNow_imageNo]
      · exact counterAt_imageNo ..
    · exact counterAt_imageNo ..
theorem advance_stn (rel : Bool) (k : Nat) (s : State) (n : Nat) : (State.advance rel k s n).stn = s.stn := by
  induction k generalizing s n with
  | zero => exact counterAt_stn ..
  | succ k ih =>
    unfold State.advance
    split
    · split
      · rw [ih, stepNow_stn]
      · exact counterAt_stn ..
    · exact counterAt_stn ..
theorem advance_cells (rel : Bool) (k : Nat) (s : State) (n : Nat) : (State.advance rel k s n).cells = s.cells := by
  induction k generalizing s n with
  | zero => exact counterAt_cells ..
  | succ k ih =>
    unfold State.advance
    split
    · split
      · rw [ih, stepNow_cells]
      · exact counterAt_cells ..
    · exact counterAt_cells ..
theorem advance_sec (rel : Bool) (k : Nat) (s : State) (n : Nat) : (State.advance rel k s n).sec = s.sec := by
  induction k generalizing s n with
  | zero => exact counterAt_sec ..
  | succ k ih =>
    unfold State.advance
    split
    · split
      · rw [ih, stepNow_sec]
      · exact counterAt_sec ..
    · exact counterAt_sec ..
theorem advance_pending (rel : Bool) (k : Nat) (s : State) (n : Nat) : (State.advance rel k s n).pending = s.pending := by
  induction k generalizing s n with
  | zero => exact counterAt_pending ..
  | succ k ih =>
    unfold State.advance
    split
    · split
      · rw [ih, stepNow_pending]
      · exact counterAt_pending ..
    · exact counterAt_pending ..
@[simp] theorem runTo_lastRead (n : Nat) : (s.runTo n).lastRead = s.lastRead := by
  unfold State.runTo
  split
  · exact advance_lastRead ..
  · rfl
@[simp] theorem runTo_latch (n : Nat) : (s.runTo n).latch = s.latch := by
  unfold State.runTo
  split
  · exact advance_latch ..
  · rfl
@[simp] theorem runTo_held (n : Nat) : (s.runTo n).held = s.held := by
  unfold State.runTo
  split
  · exact advance_held ..
  · rfl
@[simp] theorem runTo_free (n : Nat) : (s.runTo n).free = s.free := by
  unfold State.runTo
  split
  · exact advance_free ..
  · rfl
@[simp] theorem runTo_colls (n : Nat) : (s.runTo n).colls = s.colls := by
  unfold State.runTo
  split
  · exact advance_colls ..
  · rfl
@[simp] theorem runTo_evLost (n : Nat) : (s.runTo n).evLost = s.evLost := by
  unfold State.runTo
  split
  · exact advance_evLost ..
  · rfl
@[simp] theorem runTo_mode (n : Nat) : (s.runTo n).mode = s.mode := by
  unfold State.runTo
  split
  · exact advance_mode ..
  · rfl
@[simp] theorem runTo_host (n : Nat) : (s.runTo n).host = s.host := by
  unfold State.runTo
  split
  · exact advance_host ..
  · rfl
@[simp] theorem runTo_clause (n : Nat) : (s.runTo n).clause = s.clause := by
  unfold State.runTo
  split
  · exact advance_clause ..
  · rfl
@[simp] theorem runTo_trees (n : Nat) : (s.runTo n).trees = s.trees := by
  unfold State.runTo
  split
  · exact advance_trees ..
  · rfl
@[simp] theorem runTo_arms (n : Nat) : (s.runTo n).arms = s.arms := by
  unfold State.runTo
  split
  · exact advance_arms ..
  · rfl
@[simp] theorem runTo_disp (n : Nat) : (s.runTo n).disp = s.disp := by
  unfold State.runTo
  split
  · exact advance_disp ..
  · rfl
@[simp] theorem runTo_sram (n : Nat) : (s.runTo n).sram = s.sram := by
  unfold State.runTo
  split
  · exact advance_sram ..
  · rfl
@[simp] theorem runTo_cellMem (n : Nat) : (s.runTo n).cellMem = s.cellMem := by
  unfold State.runTo
  split
  · exact advance_cellMem ..
  · rfl
@[simp] theorem runTo_rgns (n : Nat) : (s.runTo n).rgns = s.rgns := by
  unfold State.runTo
  split
  · exact advance_rgns ..
  · rfl
@[simp] theorem runTo_rank (n : Nat) : (s.runTo n).rank = s.rank := by
  unfold State.runTo
  split
  · exact advance_rank ..
  · rfl
@[simp] theorem runTo_image (n : Nat) : (s.runTo n).image = s.image := by
  unfold State.runTo
  split
  · exact advance_image ..
  · rfl
@[simp] theorem runTo_imageSet (n : Nat) : (s.runTo n).imageSet = s.imageSet := by
  unfold State.runTo
  split
  · exact advance_imageSet ..
  · rfl
@[simp] theorem runTo_candidate (n : Nat) : (s.runTo n).candidate = s.candidate := by
  unfold State.runTo
  split
  · exact advance_candidate ..
  · rfl
@[simp] theorem runTo_imageNo (n : Nat) : (s.runTo n).imageNo = s.imageNo := by
  unfold State.runTo
  split
  · exact advance_imageNo ..
  · rfl
@[simp] theorem runTo_stn (n : Nat) : (s.runTo n).stn = s.stn := by
  unfold State.runTo
  split
  · exact advance_stn ..
  · rfl
@[simp] theorem runTo_cells (n : Nat) : (s.runTo n).cells = s.cells := by
  unfold State.runTo
  split
  · exact advance_cells ..
  · rfl
@[simp] theorem runTo_sec (n : Nat) : (s.runTo n).sec = s.sec := by
  unfold State.runTo
  split
  · exact advance_sec ..
  · rfl
@[simp] theorem runTo_pending (n : Nat) : (s.runTo n).pending = s.pending := by
  unfold State.runTo
  split
  · exact advance_pending ..
  · rfl
@[simp] theorem runBy_lastRead (q : Nat) : (s.runBy q).lastRead = s.lastRead := by
  unfold State.runBy
  split
  · exact advance_lastRead ..
  · rfl
@[simp] theorem runBy_latch (q : Nat) : (s.runBy q).latch = s.latch := by
  unfold State.runBy
  split
  · exact advance_latch ..
  · rfl
@[simp] theorem runBy_held (q : Nat) : (s.runBy q).held = s.held := by
  unfold State.runBy
  split
  · exact advance_held ..
  · rfl
@[simp] theorem runBy_free (q : Nat) : (s.runBy q).free = s.free := by
  unfold State.runBy
  split
  · exact advance_free ..
  · rfl
@[simp] theorem runBy_colls (q : Nat) : (s.runBy q).colls = s.colls := by
  unfold State.runBy
  split
  · exact advance_colls ..
  · rfl
@[simp] theorem runBy_evLost (q : Nat) : (s.runBy q).evLost = s.evLost := by
  unfold State.runBy
  split
  · exact advance_evLost ..
  · rfl
@[simp] theorem runBy_mode (q : Nat) : (s.runBy q).mode = s.mode := by
  unfold State.runBy
  split
  · exact advance_mode ..
  · rfl
@[simp] theorem runBy_host (q : Nat) : (s.runBy q).host = s.host := by
  unfold State.runBy
  split
  · exact advance_host ..
  · rfl
@[simp] theorem runBy_clause (q : Nat) : (s.runBy q).clause = s.clause := by
  unfold State.runBy
  split
  · exact advance_clause ..
  · rfl
@[simp] theorem runBy_trees (q : Nat) : (s.runBy q).trees = s.trees := by
  unfold State.runBy
  split
  · exact advance_trees ..
  · rfl
@[simp] theorem runBy_arms (q : Nat) : (s.runBy q).arms = s.arms := by
  unfold State.runBy
  split
  · exact advance_arms ..
  · rfl
@[simp] theorem runBy_disp (q : Nat) : (s.runBy q).disp = s.disp := by
  unfold State.runBy
  split
  · exact advance_disp ..
  · rfl
@[simp] theorem runBy_sram (q : Nat) : (s.runBy q).sram = s.sram := by
  unfold State.runBy
  split
  · exact advance_sram ..
  · rfl
@[simp] theorem runBy_cellMem (q : Nat) : (s.runBy q).cellMem = s.cellMem := by
  unfold State.runBy
  split
  · exact advance_cellMem ..
  · rfl
@[simp] theorem runBy_rgns (q : Nat) : (s.runBy q).rgns = s.rgns := by
  unfold State.runBy
  split
  · exact advance_rgns ..
  · rfl
@[simp] theorem runBy_rank (q : Nat) : (s.runBy q).rank = s.rank := by
  unfold State.runBy
  split
  · exact advance_rank ..
  · rfl
@[simp] theorem runBy_image (q : Nat) : (s.runBy q).image = s.image := by
  unfold State.runBy
  split
  · exact advance_image ..
  · rfl
@[simp] theorem runBy_imageSet (q : Nat) : (s.runBy q).imageSet = s.imageSet := by
  unfold State.runBy
  split
  · exact advance_imageSet ..
  · rfl
@[simp] theorem runBy_candidate (q : Nat) : (s.runBy q).candidate = s.candidate := by
  unfold State.runBy
  split
  · exact advance_candidate ..
  · rfl
@[simp] theorem runBy_imageNo (q : Nat) : (s.runBy q).imageNo = s.imageNo := by
  unfold State.runBy
  split
  · exact advance_imageNo ..
  · rfl
@[simp] theorem runBy_stn (q : Nat) : (s.runBy q).stn = s.stn := by
  unfold State.runBy
  split
  · exact advance_stn ..
  · rfl
@[simp] theorem runBy_cells (q : Nat) : (s.runBy q).cells = s.cells := by
  unfold State.runBy
  split
  · exact advance_cells ..
  · rfl
@[simp] theorem runBy_sec (q : Nat) : (s.runBy q).sec = s.sec := by
  unfold State.runBy
  split
  · exact advance_sec ..
  · rfl
@[simp] theorem runBy_pending (q : Nat) : (s.runBy q).pending = s.pending := by
  unfold State.runBy
  split
  · exact advance_pending ..
  · rfl
@[simp] theorem runToQ_lastRead (n : Nat) : (s.runToQ n).lastRead = s.lastRead := by
  unfold State.runToQ
  split
  · exact advance_lastRead ..
  · rfl
@[simp] theorem runToQ_latch (n : Nat) : (s.runToQ n).latch = s.latch := by
  unfold State.runToQ
  split
  · exact advance_latch ..
  · rfl
@[simp] theorem runToQ_held (n : Nat) : (s.runToQ n).held = s.held := by
  unfold State.runToQ
  split
  · exact advance_held ..
  · rfl
@[simp] theorem runToQ_free (n : Nat) : (s.runToQ n).free = s.free := by
  unfold State.runToQ
  split
  · exact advance_free ..
  · rfl
@[simp] theorem runToQ_colls (n : Nat) : (s.runToQ n).colls = s.colls := by
  unfold State.runToQ
  split
  · exact advance_colls ..
  · rfl
@[simp] theorem runToQ_evLost (n : Nat) : (s.runToQ n).evLost = s.evLost := by
  unfold State.runToQ
  split
  · exact advance_evLost ..
  · rfl
@[simp] theorem runToQ_mode (n : Nat) : (s.runToQ n).mode = s.mode := by
  unfold State.runToQ
  split
  · exact advance_mode ..
  · rfl
@[simp] theorem runToQ_host (n : Nat) : (s.runToQ n).host = s.host := by
  unfold State.runToQ
  split
  · exact advance_host ..
  · rfl
@[simp] theorem runToQ_clause (n : Nat) : (s.runToQ n).clause = s.clause := by
  unfold State.runToQ
  split
  · exact advance_clause ..
  · rfl
@[simp] theorem runToQ_trees (n : Nat) : (s.runToQ n).trees = s.trees := by
  unfold State.runToQ
  split
  · exact advance_trees ..
  · rfl
@[simp] theorem runToQ_arms (n : Nat) : (s.runToQ n).arms = s.arms := by
  unfold State.runToQ
  split
  · exact advance_arms ..
  · rfl
@[simp] theorem runToQ_disp (n : Nat) : (s.runToQ n).disp = s.disp := by
  unfold State.runToQ
  split
  · exact advance_disp ..
  · rfl
@[simp] theorem runToQ_sram (n : Nat) : (s.runToQ n).sram = s.sram := by
  unfold State.runToQ
  split
  · exact advance_sram ..
  · rfl
@[simp] theorem runToQ_cellMem (n : Nat) : (s.runToQ n).cellMem = s.cellMem := by
  unfold State.runToQ
  split
  · exact advance_cellMem ..
  · rfl
@[simp] theorem runToQ_rgns (n : Nat) : (s.runToQ n).rgns = s.rgns := by
  unfold State.runToQ
  split
  · exact advance_rgns ..
  · rfl
@[simp] theorem runToQ_rank (n : Nat) : (s.runToQ n).rank = s.rank := by
  unfold State.runToQ
  split
  · exact advance_rank ..
  · rfl
@[simp] theorem runToQ_image (n : Nat) : (s.runToQ n).image = s.image := by
  unfold State.runToQ
  split
  · exact advance_image ..
  · rfl
@[simp] theorem runToQ_imageSet (n : Nat) : (s.runToQ n).imageSet = s.imageSet := by
  unfold State.runToQ
  split
  · exact advance_imageSet ..
  · rfl
@[simp] theorem runToQ_candidate (n : Nat) : (s.runToQ n).candidate = s.candidate := by
  unfold State.runToQ
  split
  · exact advance_candidate ..
  · rfl
@[simp] theorem runToQ_imageNo (n : Nat) : (s.runToQ n).imageNo = s.imageNo := by
  unfold State.runToQ
  split
  · exact advance_imageNo ..
  · rfl
@[simp] theorem runToQ_stn (n : Nat) : (s.runToQ n).stn = s.stn := by
  unfold State.runToQ
  split
  · exact advance_stn ..
  · rfl
@[simp] theorem runToQ_cells (n : Nat) : (s.runToQ n).cells = s.cells := by
  unfold State.runToQ
  split
  · exact advance_cells ..
  · rfl
@[simp] theorem runToQ_sec (n : Nat) : (s.runToQ n).sec = s.sec := by
  unfold State.runToQ
  split
  · exact advance_sec ..
  · rfl
@[simp] theorem runToQ_pending (n : Nat) : (s.runToQ n).pending = s.pending := by
  unfold State.runToQ
  split
  · exact advance_pending ..
  · rfl

/-- In M5 to M11, and where no step is armed or committed, the counter runs on and nothing else happens. -/
theorem advance_plain (rel : Bool) (k : Nat) (n : Nat) (h : (if s.epochs then none else s.stepAt) = none) :
    State.advance rel k s n = s.counterAt n := by
  cases k with
  | zero => rfl
  | succ k => unfold State.advance; rw [h]

theorem runTo_regs_plain (n : Nat) (h : (if s.epochs then none else s.stepAt) = none) : (s.runTo n).regs = s.regs := by
  unfold State.runTo
  split
  · rw [advance_plain _ _ _ _ h]; exact counterAt_regs ..
  · rfl
theorem runBy_regs_plain (q : Nat) (h : (if s.epochs then none else s.stepAt) = none) : (s.runBy q).regs = s.regs := by
  unfold State.runBy
  split
  · rw [advance_plain _ _ _ _ h]; exact counterAt_regs ..
  · rfl
theorem runToQ_regs_plain (n : Nat) (h : (if s.epochs then none else s.stepAt) = none) : (s.runToQ n).regs = s.regs := by
  unfold State.runToQ
  split
  · rw [advance_plain _ _ _ _ h]; exact counterAt_regs ..
  · rfl
theorem runTo_hwSet_plain (n : Nat) (h : (if s.epochs then none else s.stepAt) = none) : (s.runTo n).hwSet = s.hwSet := by
  unfold State.runTo
  split
  · rw [advance_plain _ _ _ _ h]; exact counterAt_hwSet ..
  · rfl
theorem runBy_hwSet_plain (q : Nat) (h : (if s.epochs then none else s.stepAt) = none) : (s.runBy q).hwSet = s.hwSet := by
  unfold State.runBy
  split
  · rw [advance_plain _ _ _ _ h]; exact counterAt_hwSet ..
  · rfl
theorem runToQ_hwSet_plain (n : Nat) (h : (if s.epochs then none else s.stepAt) = none) : (s.runToQ n).hwSet = s.hwSet := by
  unfold State.runToQ
  split
  · rw [advance_plain _ _ _ _ h]; exact counterAt_hwSet ..
  · rfl
theorem runTo_mirror_plain (n : Nat) (h : (if s.epochs then none else s.stepAt) = none) : (s.runTo n).mirror = s.mirror := by
  unfold State.runTo
  split
  · rw [advance_plain _ _ _ _ h]; exact counterAt_mirror ..
  · rfl
theorem runBy_mirror_plain (q : Nat) (h : (if s.epochs then none else s.stepAt) = none) : (s.runBy q).mirror = s.mirror := by
  unfold State.runBy
  split
  · rw [advance_plain _ _ _ _ h]; exact counterAt_mirror ..
  · rfl
theorem runToQ_mirror_plain (n : Nat) (h : (if s.epochs then none else s.stepAt) = none) : (s.runToQ n).mirror = s.mirror := by
  unfold State.runToQ
  split
  · rw [advance_plain _ _ _ _ h]; exact counterAt_mirror ..
  · rfl

/-! ### What a write leaves where it writes -/

@[simp] theorem wr_regs (f : Fld) (v : Nat) : (s.wr f v).regs = s.regs.wr f v := rfl
theorem rd_wr (f : Fld) (v : Nat) : (s.wr f v).rd f = v % 2 ^ f.width := rd_wr_same _ _ _
theorem rd_wr_other (f g : Fld) (v : Nat) (h : g.lsb ≠ f.lsb) : (s.wr f v).rd g = s.rd g := rd_wr_ne _ _ _ _ h
theorem on_wr_one (f : Fld) (h : f.width = 1) : (s.wr f 1).on f = true := by simp [State.on, rd_wr, h]
theorem on_wr_zero (f : Fld) : (s.wr f 0).on f = false := by simp [State.on, rd_wr]
@[simp] theorem tree_modTree (r t : Nat) (g : TreeSt → TreeSt) : (s.modTree r t g).tree r t = g (s.tree r t) := by simp [State.modTree, State.tree]
theorem tree_modTree_ne {r t r' t' : Nat} (g : TreeSt → TreeSt) (h : treeKey r' t' ≠ treeKey r t) : (s.modTree r t g).tree r' t' = s.tree r' t' := by
  simp [State.modTree, State.tree, fget_fmod_ne _ _ _ h]
@[simp] theorem slot_modSlot (r t j : Nat) (g : SlotSt → SlotSt) : (s.modSlot r t j g).slot r t j = g (s.slot r t j) := by
  simp [State.modSlot, State.slot, TreeSt.modSlot, TreeSt.slot]
@[simp] theorem ring_modRing (n : Nat) (g : RingSt → RingSt) : (s.modRing n g).ring n = g (s.ring n) := by simp [State.modRing, State.ring]
@[simp] theorem coll_modColl (c : Coll) (g : CollSt → CollSt) : (s.modColl c g).coll c = g (s.coll c) := by simp [State.modColl, State.coll]
@[simp] theorem cell_modCell (c : Nat) (g : CellSt → CellSt) : (s.modCell c g).cell c = g (s.cell c) := by simp [State.modCell, State.cell]
theorem cell_modCell_ne {c d : Nat} (g : CellSt → CellSt) (h : d ≠ c) : (s.modCell c g).cell d = s.cell d := by
  simp [State.modCell, State.cell, fget_fmod_ne _ _ _ h]
@[simp] theorem port_modPort (c p : Nat) (g : PortSt → PortSt) : (s.modPort c p g).port c p = g (s.port c p) := by
  simp [State.modPort, State.port, CellSt.port]
theorem crd_cwr (c : Nat) (f : Fld) (v : Nat) : (s.cwr c f v).crd c f = v % 2 ^ f.width := by
  simp [State.cwr, State.crd, CellSt.rd]
theorem crd_cwr_other (c : Nat) (f g : Fld) (v : Nat) (h : g.lsb ≠ f.lsb) : (s.cwr c f v).crd c g = s.crd c g := by
  simp [State.cwr, State.crd, CellSt.rd, rd_wr_ne _ _ _ _ h]
@[simp] theorem eng_modEng (r e : Nat) (g : Eng → Eng) : (s.modEng r e g).eng r e = g (s.eng r e) := by
  simp [State.modEng, State.eng, State.modDisp, State.dsp]
@[simp] theorem dsp_modDisp (r : Nat) (g : DispSt → DispSt) : (s.modDisp r g).dsp r = g (s.dsp r) := by simp [State.modDisp, State.dsp]
@[simp] theorem rank_modRank (c : Nat) (g : RankCell → RankCell) : (s.modRank c g).rankOf c = g (s.rankOf c) := by simp [State.modRank, State.rankOf]
@[simp] theorem arm_modArm (r a : Nat) (g : ArmSt → ArmSt) : (s.modArm r a g).armSt r a = g (s.armSt r a) := by simp [State.modArm, State.armSt]
@[simp] theorem rgn_modRgn (r : Nat) (g : RgnSt → RgnSt) : (s.modRgn r g).rgn r = g (s.rgn r) := by simp [State.modRgn, State.rgn]
@[simp] theorem mirror_modMirror (g : MirrorSt → MirrorSt) : (s.modMirror g).mirror = g s.mirror := rfl

end Sys2Proof.Laws
end

