-- ==== Sys2Proof/Machine/Balls.lean ====
section
/-! DEFINITION. The output balls that follow from the state and that no register shows (R384, R396, R519, R522), and the identity
in PCIe configuration space (R410). -/

namespace Sys2Proof.Machine

/-! ### Basath (R519) -/

/-- TREE_TXEN: the transmitters of all tree modules are enabled, but for M0 and M3. -/
def State.treeTxEn (s : State) : Bool := s.modeNo != 0 && s.modeNo != 3
/-- Whether an entry to M3 or M4 has stopped the station ports, or the unit is in such a mode (R396). -/
def State.stationStopped (s : State) : Bool :=
  s.modeNo == 3 || s.modeNo == 4 || (match s.mode.entry with | some e => e.stopped.contains 2 | none => false)
/-- STNp_TX_DIS, high to disable the transmitter, of either port. -/
def State.stnTxDis (s : State) : Bool := s.modeNo == 0 || s.stationStopped
/-- MIRR_TXDIS, high to disable the transmitters of the link. -/
def State.mirrTxDis (s : State) : Bool := s.modeNo == 0 || s.modeNo == 3 || s.modeNo == 4 || s.mirror.stopped

/-! ### PCIe (R410) -/

/-- What configuration space shows, which no command reads: vendor and device ID, class code, revision ID, and the two subsystem IDs, for which nothing
writes die-0 MRAM. -/
def State.pcieId (s : State) : List Nat := [0x1F6B, s.rd Reg.CHIP_ID_DEVICE, 0x118000, s.rd Reg.CHIP_ID_REV, 0, 0]

/-! ### Elsum (R522) -/

/-- How long what a port has launched lasts, in quarters: a burst of 742 UI, a marker of 24 ns (R106, R114). -/
def UpFrame.span : UpFrame → Nat
  | .marker => 96
  | _ => 116
/-- The instant of the first bit of what a port has launched: byte 0 of a burst follows 16 ns after it (R106, R108). -/
def UpFrame.first (f : UpFrame) (t : Nat) : Nat := match f with | .marker => t | _ => t - 64
/-- PORTA_TXEN and PORTB_TXEN at an instant of cell time, for the last launch: the edge leads the first bit by 6 ns. -/
def CellSt.portTxEn (x : CellSt) (p at_ : Nat) : Bool :=
  match (x.port p).sent with
  | some (t, f) => decide (f.first t ≤ at_ + 24) && decide (at_ < f.first t + f.span)
  | none => false
/-- AUX_EN: high from RESET_N high. -/
def CellSt.auxEn (x : CellSt) : Bool := x.prot.resetN
/-- TCXO_EN: high in every cell state. -/
def CellSt.tcxoEn (_ : CellSt) : Bool := true
/-- Whether DBG_TX and DBG_RX are active: only on an unlocked TAP. -/
def CellSt.dbgLive (x : CellSt) : Bool := x.on Els.SEC_STAT_UNLOCKED

end Sys2Proof.Machine
end

