-- ==== Sys2Proof/Machine/Gmac.lean ====
section
/-! DEFINITION. AES-256-GMAC (R103, R373): the tag over a byte string, with an empty plaintext. The algorithm itself is that of the standards the
manual names; a key, an IV and a tag are taken as byte strings whose byte 0 is the least significant (R17). -/

namespace Sys2Proof
open Machine

/-- The S-box of AES, 32 entries in each number, the first least significant. -/
def sboxTab : List Nat :=
  [0xc072a49cafa2d4adf04759fa7dc982ca76abd7fe2b670130c56f6bf27b777c63,
    0x75b227ebe28012079a059618c323c7041531d871f1e5a534ccf73f362693fdb7,
    0xcf584c4a39becb6a5bb1fc20ed00d153842fe329b3d63b52a05a6e1b1a2c8309,
    0xd2f3ff1021dab6bcf5389d928f40a351a89f3c507f02f94585334d43fbaaefd0,
    0xdb0b5ede14b8ee4688902a22dc4f816073195d643d7ea7c41744975fec130ccd,
    0x08ae7a65eaf4566ca94ed58d6d37c8e779e4959162acd3c25c2406490a3a32e0,
    0x9e1dc186b95735610ef6034866b53e708a8bbd4b1f74dde8c6b4a61c2e2578ba,
    0x16bb54b00f2d99416842e6bf0d89a18cdf2855cee9871e9b948ed9691198f8e1]
def sbox (b : Byte) : Byte := BitVec.ofNat 8 (sboxTab.getD (b.toNat / 32) 0 >>> (8 * (b.toNat % 32)))
/-- Multiplication by x in the field of AES. -/
def xtime (b : Byte) : Byte := (b <<< 1) ^^^ (if b.msb then 0x1B else 0)
/-- Two byte strings added bit by bit. -/
def xorBytes (a b : List Byte) : List Byte := List.zipWith (· ^^^ ·) a b

/-- The key schedule: `n` more words of four bytes, the newest first, `rcon` the next round constant. -/
def aesExpand : Nat → Nat → Byte → List (List Byte) → List (List Byte)
  | 0, _, _, w => w
  | n + 1, i, rcon, w =>
    let t := w.getD 0 []
    let rot := (t.drop 1 ++ t.take 1).map sbox
    let t := if i % 8 = 0 then xorBytes rot [rcon, 0, 0, 0] else if i % 8 = 4 then t.map sbox else t
    aesExpand n (i + 1) (if i % 8 = 0 then xtime rcon else rcon) (xorBytes (w.getD 7 []) t :: w)
/-- A byte string in pieces of `k` bytes. -/
def pieces (k : Nat) : Nat → List Byte → List (List Byte)
  | 0, _ => []
  | n + 1, l => if l.isEmpty then [] else l.take k :: pieces k n (l.drop k)
/-- The 15 round keys of a 32-byte key. -/
def aesKeys (key : List Byte) : List (List Byte) :=
  pieces 16 15 ((aesExpand 52 8 1 (pieces 4 8 key).reverse).reverse.flatten)

/-- SubBytes and ShiftRows of a 16-byte block. -/
def aesShift (b : List Byte) : List Byte := (List.range 16).map fun i => sbox (b.getD ((i + 4 * (i % 4)) % 16) 0)
/-- MixColumns. -/
def aesMix (b : List Byte) : List Byte :=
  (List.range 16).map fun i =>
    let at_ (k : Nat) : Byte := b.getD (i / 4 * 4 + (i + k) % 4) 0
    xtime (at_ 0) ^^^ xtime (at_ 1) ^^^ at_ 1 ^^^ at_ 2 ^^^ at_ 3
/-- The rounds after the first key. -/
def aesRounds : List (List Byte) → List Byte → List Byte
  | [], b => b
  | [k], b => xorBytes (aesShift b) k
  | k :: t, b => aesRounds t (xorBytes (aesMix (aesShift b)) k)
/-- AES-256 of one block. -/
def aes256 (key b : List Byte) : List Byte :=
  match aesKeys key with
  | k :: t => aesRounds t (xorBytes b k)
  | [] => []

/-- The number of a block, byte 0 the most significant. -/
def beNat (l : List Byte) : Nat := l.foldl (fun n b => n * 256 + b.toNat) 0
/-- The bytes of a 128-bit number, the most significant first. -/
def beBytes (n : Nat) : List Byte := (leBytes 16 n).reverse
/-- Multiplication in the field of GHASH: bit 127 is the coefficient of x^0. -/
def ghashMul (x y : Nat) : Nat :=
  ((List.range 128).foldl (fun (p : Nat × Nat) i =>
    (if x.testBit (127 - i) then p.1 ^^^ p.2 else p.1, if p.2.testBit 0 then (p.2 / 2) ^^^ 0xE1 * 2 ^ 120 else p.2 / 2)) (0, y)).1
/-- GHASH of additional data with an empty text. -/
def ghash (h : Nat) (aad : List Byte) : Nat :=
  let ps := (pieces 16 aad.length aad).map fun p => beNat (p ++ List.replicate (16 - p.length) 0)
  (ps ++ [8 * aad.length * 2 ^ 64]).foldl (fun y x => ghashMul (y ^^^ x) h) 0
/-- AES-256-GMAC: the 16-byte tag of `aad` under a 12-byte IV. -/
def gmac (key : Key) (iv aad : List Byte) : List Byte :=
  let k := leBytes 32 key.toNat
  let h := beNat (aes256 k (List.replicate 16 0))
  xorBytes (beBytes (ghash h aad)) (aes256 k (iv ++ [0, 0, 0, 1]))

/-- The 96-bit IV of a tag (R103). -/
def Mac.iv (m : Mac) : List Byte :=
  leBytes 8 m.ivPn.toNat ++ leBytes 1 m.ivKind.toNat ++ leBytes 1 m.ivSeq.toNat ++ leBytes 2 m.ivCell.toNat
/-- The tag a frame carries, by what it was computed with; of one that was damaged only that it is another (log entry 6, DESIGN CHOICE). -/
def Mac.tag (m : Mac) (body : List Byte) : List Byte :=
  let t := gmac m.key m.iv body
  if m.ok then t else t.map (· ^^^ 0xFF)

end Sys2Proof
end

