-- ==== Sys2Proof/Machine/Lane.lean ====
section
/-! DEFINITION. What a lane carries, as bytes and as 66-bit blocks: frames of a tree, Glints, markers and Mirror frames
(R97, R99 to R103, R106, R107, R114, R125, R128, R373, R374, R376, R377, R448). Everything here is a reading of typed frames that State holds. -/

namespace Sys2Proof
open Machine

/-! ### Bytes -/

/-- `n` bytes of a string, filled with 0. -/
def fillTo (n : Nat) (l : List Byte) : List Byte := l ++ List.replicate (n - l.length) 0

/-- The 128 bytes of a management segment (R125). -/
def Seg.bytes (g : Seg) : List Byte :=
  leBytes 1 (g.slot.toNat + 128 * b2n g.bcast) ++ leBytes 1 (g.kind.toNat + 16 * b2n g.first + 32 * b2n g.last)
    ++ leBytes 2 (g.segNo.toNat + 16 * g.txn.toNat) ++ leBytes 2 g.payload.length ++ leBytes 2 0 ++ fillTo 120 g.payload
/-- The segment of 128 bytes; reserved bits are ignored (R125). -/
def Seg.ofBytes (l : List Byte) : Seg :=
  { slot := BitVec.ofNat 7 (leAt l 0 1), bcast := (leAt l 0 1).testBit 7, kind := BitVec.ofNat 4 (leAt l 1 1)
    first := (leAt l 1 1).testBit 4, last := (leAt l 1 1).testBit 5
    txn := BitVec.ofNat 12 (leAt l 2 2 / 16), segNo := BitVec.ofNat 4 (leAt l 2 2), payload := (l.drop 8).take (leAt l 4 2) }
/-- A frame without a segment where its kind has room for one carries an idle one (R125). -/
def segBytes (g : Option Seg) : List Byte := match g with | some g => g.bytes | none => List.replicate 128 0

/-- The bytes of a downstream frame before its tag (R100, R101). -/
def DownFrame.body (f : DownFrame) : List Byte :=
  f.hdr.bytes ++ (if f.hdr.kind == 1 then f.recs.flatMap fun x => leBytes 8 x.word.toNat else [])
    ++ (if f.hdr.kind == 1 || f.hdr.kind == 3 || f.hdr.kind == 5 then segBytes f.seg else [])
/-- The bytes of a downstream frame: a Beacon and a management frame carry the whole tag (R103). -/
def DownFrame.bytes (f : DownFrame) : List Byte := f.body ++ f.mac.tag f.body

/-- The word of a reply fragment (R128). -/
def Frag.word (m : Frag) : Nat := m.data.toNat + 2 ^ 24 * m.num.toNat + 2 ^ 30 * m.typ.toNat
/-- The fragment of a word. -/
def Frag.ofWord (w : Nat) : Frag := ⟨BitVec.ofNat 2 (w / 2 ^ 30), BitVec.ofNat 6 (w / 2 ^ 24), BitVec.ofNat 24 w⟩
/-- The CV field of a Glint (R107). -/
def cvField (cv : BitVec 18) (valid : Bool) (tag : BitVec 3) : Nat := cv.toNat + 2 ^ 18 * b2n valid + 2 ^ 19 * tag.toNat
/-- HDR of a Glint (R107). -/
def glintHdr (kind : Nat) (port : Bool) : List Byte := leBytes 1 (16 * kind + 8 * b2n port)

/-- The 32 bytes of a report (R107). -/
def Glint.body (g : Glint) : List Byte :=
  glintHdr g.kind.toNat g.port ++ leBytes 1 g.slot.toNat ++ leBytes 2 g.samplePn.toNat ++ leBytes 3 (cvField g.cv g.valid g.tag)
    ++ leBytes 3 g.status.word ++ leBytes 2 g.temp0.toNat ++ leBytes 2 g.temp1.toNat ++ leBytes 2 g.temp2.toNat ++ leBytes 8 g.digest.toNat
    ++ leBytes 4 g.fault.word ++ leBytes 4 g.mgmt.word
/-- The 40 bytes of a Glint: its report and the leftmost 8 bytes of the tag (R103). -/
def Glint.bytes (g : Glint) : List Byte := g.body ++ (g.mac.tag g.body).take 8
/-- The report of 32 bytes, with what its tag was computed with; reserved bits are ignored (R107). -/
def Glint.ofBytes (l : List Byte) (mac : Mac) : Glint :=
  let v := leAt l 4 3
  let st := leAt l 7 3
  let f := leAt l 24 4
  { kind := BitVec.ofNat 4 (leAt l 0 1 / 16), port := (leAt l 0 1).testBit 3, slot := BitVec.ofNat 7 (leAt l 1 1)
    samplePn := BitVec.ofNat 16 (leAt l 2 2), cv := BitVec.ofNat 18 v, valid := v.testBit 18, tag := BitVec.ofNat 3 (v / 2 ^ 19)
    status := { state := BitVec.ofNat 4 st, owner := st.testBit 4, holding := st.testBit 5, fallback := st.testBit 6, bypassed := st.testBit 7
                reportLate := st.testBit 8, timeFrozen := st.testBit 9, calActive := st.testBit 10, holdPeriods := BitVec.ofNat 4 (st / 2 ^ 11) }
    temp0 := BitVec.ofNat 16 (leAt l 10 2), temp1 := BitVec.ofNat 16 (leAt l 12 2), temp2 := BitVec.ofNat 16 (leAt l 14 2)
    digest := BitVec.ofNat 64 (leAt l 16 8)
    fault := { source := BitVec.ofNat 6 f, severity := BitVec.ofNat 3 (f / 2 ^ 6), class0 := f.testBit 9, trip := f.testBit 10, fresh := f.testBit 11
               count := BitVec.ofNat 7 (f / 2 ^ 12) }
    mgmt := Frag.ofWord (leAt l 28 4), mac := mac }

/-- The 32 bytes of a discovery reply on a port (R448). -/
def DiscReply.body (d : DiscReply) (port : Bool) : List Byte :=
  glintHdr 3 port ++ leBytes 1 0x7F ++ leBytes 2 d.round.toNat ++ leBytes 8 d.serial.toNat ++ leBytes 3 (cvField d.cv d.valid 0)
    ++ leBytes 1 (d.state.toNat + 16 * b2n d.otherValid + 32 * b2n d.otherKeyed) ++ leBytes 2 d.otherIdx.toNat ++ leBytes 4 d.lastEpoch.toNat
    ++ leBytes 2 d.rev.toNat ++ List.replicate 8 0
/-- The 32 bytes of a key-exchange reply on a port, with the 24 bytes of its chunk (R448, R466). Chunk 3 is the result and ANCHOR_NEW; the keys, the
signature and the confirmation of the others are typed by what they show (log entry 6, DESIGN CHOICE). -/
def KxReply.body (k : KxReply) (port : Bool) (chunk : List Byte) : List Byte :=
  glintHdr 3 port ++ leBytes 1 (k.chunk.toNat + 128) ++ leBytes 2 (16 * k.txn.toNat)
    ++ fillTo 24 (if k.chunk == 3 then [BitVec.ofNat 8 k.result.toNat, BitVec.ofNat 8 (b2n k.anchorNew)] else chunk) ++ List.replicate 4 0

/-! ### Blocks (R97, R99) -/

/-- A 66-bit block: 8 data bytes, or a control block by its type, whose other 7 bytes are 0. -/
inductive Block where
  | data (l : List Byte)
  | ctrl (typ : Byte)
  deriving DecidableEq, Repr

/-- The sync header of clause 49, first bit first: 01 before data and 10 before control. -/
def Block.sync : Block → List Bool
  | .data _ => [false, true]
  | .ctrl _ => [true, false]
/-- The 64 bits that are scrambled, in the order in which they are sent: the least significant bit of a byte first. -/
def Block.payload : Block → List Bool
  | .data l => (fillTo 8 l).flatMap fun b => (List.range 8).map fun i => b.getLsbD i
  | .ctrl t => (fillTo 8 [t]).flatMap fun b => (List.range 8).map fun i => b.getLsbD i
/-- The scrambler x^58 + x^39 + 1 from a register value, the bit last sent at position 0. -/
def scramble : List Bool → BitVec 58 → List Bool × BitVec 58
  | [], g => ([], g)
  | b :: t, g =>
    let o := b != (g.getLsbD 38 != g.getLsbD 57)
    let r := scramble t ((g <<< 1) ||| (BitVec.ofBool o).zeroExtend 58)
    (o :: r.1, r.2)
/-- The receiver's inverse, which finds its register from the bits themselves. -/
def descramble : List Bool → BitVec 58 → List Bool
  | [], _ => []
  | o :: t, g => (o != (g.getLsbD 38 != g.getLsbD 57)) :: descramble t ((g <<< 1) ||| (BitVec.ofBool o).zeroExtend 58)
/-- The bits of blocks on a lane: sync headers as they are, payloads scrambled. -/
def laneBits : List Block → BitVec 58 → List Bool
  | [], _ => []
  | b :: t, g => let r := scramble b.payload g; b.sync ++ r.1 ++ laneBits t r.2

/-- The block between frames (R97). -/
def idleBlock : Block := .ctrl 0x1E
/-- The blocks of a downstream frame (R99), of which one that is aborted has sent `sent` data blocks. -/
def DownFrame.blocks (f : DownFrame) (sent : Nat) : List Block :=
  let ds := (pieces 8 f.bytes.length f.bytes).map Block.data
  .ctrl 0xC3 :: (if f.aborted then ds.take sent ++ [.ctrl 0xCA] else ds ++ [.ctrl 0xCC])
/-- The blocks of a Glint of 40 bytes: no terminate block (R99, R106). -/
def glintBlocks (l : List Byte) : List Block := .ctrl 0xC5 :: (pieces 8 5 (fillTo 40 l)).map Block.data
/-- The pattern 0b10 for `n` unit intervals. -/
def pattern10 (n : Nat) : List Bool := (List.range n).map fun i => i % 2 == 0
/-- A burst: 346 UI of the pattern, the start block, and five data blocks: 742 UI (R106). -/
def burst (l : List Byte) (g : BitVec 58) : List Bool := pattern10 346 ++ laneBits (glintBlocks l) g
/-- An alert marker: 24 ns of the pattern at 25.78125 GBd, in whole UI (R114). -/
def marker : List Bool := pattern10 618

/-! ### Mirror frames (R373, R374, R376, R377) -/

/-- The 32-byte header of a Mirror frame of a kind with `len` bytes of payload. -/
def MirrHdr.bytes (h : MirrHdr) (kind seg len : Nat) : List Byte :=
  leBytes 1 kind ++ leBytes 1 seg ++ leBytes 2 len ++ leBytes 8 h.pn.toNat ++ leBytes 4 h.authEpoch.toNat
    ++ leBytes 1 (h.mode.toNat + 16 * b2n h.healthy + 32 * b2n h.yield) ++ List.replicate 3 0 ++ leBytes 8 h.txTs.toNat ++ List.replicate 4 0
/-- SEG of a STATE frame. -/
def stateSeg (region seg : Nat) (last : Bool) : Nat := region % 8 + 8 * (seg % 8) + 64 * b2n last
/-- The payload of a LEASE frame (R377). -/
def Lease.payload (x : Lease) : List Byte :=
  leBytes 8 x.h.toNat ++ leBytes 4 x.acceptCnt.toNat ++ leBytes 4 x.holdCnt.toNat ++ leBytes 8 x.echoTs.toNat ++ List.replicate 8 0
/-- The header fields of a LEASE frame. -/
def Lease.hdr (x : Lease) (mac : Mac) : MirrHdr := ⟨x.pn, x.authEpoch, x.mode, x.healthy, x.yield, x.txTs, mac⟩
/-- Two map entries in a byte, the lower index in [3:0] (R374). -/
def mapBytes : List (BitVec 4) → List Byte
  | [] => []
  | [a] => [a.zeroExtend 8]
  | a :: b :: t => (a.zeroExtend 8 ||| (b.zeroExtend 8 <<< 4)) :: mapBytes t
/-- The 16 bytes of an arm's copy: N_INT, DUTY, polarity and DIR_PREV, and the arm-order index (R374). Their places in the 16 bytes are the model's (log
entry 24, DESIGN CHOICE). -/
def ArmCopy.bytes (a : ArmCopy) : List Byte :=
  leBytes 2 a.nInt.toNat ++ leBytes 2 a.duty.toNat ++ leBytes 1 (b2n a.neg) ++ leBytes 1 (b2n a.dirPrev) ++ leBytes 2 a.pwmIdx.toNat ++ List.replicate 8 0
/-- The payload of a STATE frame (R374). -/
def StateSeg.payload (x : StateSeg) : List Byte :=
  mapBytes x.map ++ x.arms.flatMap ArmCopy.bytes ++ x.words.flatMap fun w => leBytes 4 w.toNat
/-- A Mirror frame with its tag: header, payload, tag (R373). -/
def mirrFrame (hdr payload : List Byte) (mac : Mac) : List Byte := hdr ++ payload ++ mac.tag (hdr ++ payload)
/-- The blocks of a Mirror frame of bytes: a start and a terminate block around the data (R97, R376). -/
def mirrBlocks (l : List Byte) : List Block := .ctrl 0xC3 :: (pieces 8 l.length l).map Block.data ++ [.ctrl 0xCC]
/-- Block `n` of a frame goes to lane n mod 4 (R373). -/
def stripe (l : List Block) (lane : Nat) : List Block := (l.zipIdx.filter fun p => p.2 % 4 == lane).map Prod.fst

end Sys2Proof
end

