-- ==== Sys2Proof/Machine/TreeLane.lean ====
section
/-! DEFINITION. What the lanes of a tree carry in a state (R97, R99, R106, R114, R129). -/

namespace Sys2Proof.Machine

/-- Whether a tree's transmit lane is on (R97, R129, R396). -/
def State.laneLit (s : State) (r t : Nat) : Bool := (s.tree r t).laneOn
/-- The data blocks of an aborted frame that have left: all between its start block and the abort block (R27, R99). -/
def TreeSt.sentBlocks (x : TreeSt) : Nat := (x.laneFree - quarters x.lastTxAt) * 25 / 256 - 2
/-- The blocks on a tree's downstream lane: those of the frame in progress, an idle block between frames, none while the lane is off. -/
def State.laneNow (s : State) (r t : Nat) : List Block :=
  let x := s.tree r t
  let now := quarters s.time.ctr
  if !s.laneLit r t then []
  else match x.lastTx with
    | some f => if quarters x.lastTxAt ≤ now + 11 && decide (now < x.laneFree) then f.blocks x.sentBlocks else [idleBlock]
    | none => [idleBlock]
/-- The bits of the last frame of a tree on its lane. -/
def State.laneBitsOf (s : State) (r t : Nat) : List Bool :=
  let x := s.tree r t
  match x.lastTx with
  | some f => laneBits (f.blocks x.sentBlocks) (Config.scrambler (treeKey r t) x.txCount)
  | none => []

/-- The bytes of a frame that a cell has sent on a port; of a marker there are none. -/
def UpFrame.bytes (f : UpFrame) (p : Nat) : List Byte :=
  match f with
  | .report g => g.bytes
  | .discovery d => let b := d.body (p == 1); b ++ (d.mac.tag b).take 8
  | .keyExchange k => let b := k.body (p == 1) []; b ++ (k.mac.tag b).take 8
  | .marker => []
/-- The light of the last burst or marker of a port, bit by bit (R106, R114). -/
def State.upLight (s : State) (c p : Nat) : List Bool :=
  let y := s.port c p
  match y.sent with
  | some (_, .marker) => marker
  | some (_, f) => burst (f.bytes p) (Config.scrambler (256 + 2 * c + p) y.sentN)
  | none => []

end Sys2Proof.Machine
end

