-- ==== Sys2Proof/Tests/Slice0.lean ====
section
/-! SUPPORT. Small tests: ill-formed commands that the check refuses, worked figures of the manual, and for each statement a concrete
state and operands that meet its hypotheses together. -/

namespace Sys2Proof.Tests
open Sys2Proof.Machine Sys2Proof.Claims

set_option maxRecDepth 100000
set_option linter.unusedVariables false

/-! ### Small states -/

/-- A state with some register fields written. -/
def put (l : List (Fld × Nat)) (s : State) : State := l.foldl (fun s p => s.wr p.1 p.2) s
/-- Mode `m` in period 100, 3 µs after its epoch at 1 ms, with the counter running. -/
def inMode (m : Nat) : State :=
  { put [(Reg.MODE_STAT_MODE, m), (Reg.TIME_PN_PN, 100)] State.reset with time := { ctr := nsTime 1003000, epochAt := 1000000 } }
/-- The same with tree 0 of region 0, of 16 slots, in state `st`; slot 0 holds the cell of serial 7. -/
def treeIn (m st : Nat) : State :=
  (put [(tf 0 0 Tree.TREE_CFG_EN, 1), (tf 0 0 Tree.TREE_CFG_STATE, st), (tf 0 0 Tree.TREE_SLOTS_N, 16)] (inMode m)).rgnWrite 0 0x100000 [7]
/-- A tag under key 0. -/
def tag (pn kind seq cell : Nat) : Mac := ⟨0, BitVec.ofNat 64 pn, BitVec.ofNat 8 kind, BitVec.ofNat 8 seq, BitVec.ofNat 16 cell, true⟩


/-- An upstream tag under key 0. -/
def up (pn kind cell : Nat) : Mac := tag pn (2 * kind + 1) 0 cell
/-- Tree 0 in enumeration with a request of KIND `k` and transaction 5 on its lane. -/
def asking (k : Nat) (l : List Byte) : State :=
  (treeIn 6 2).modTree 0 0 fun x => { x with reqAt := nsTime 1003000, enumReq := some ⟨0, k == 7, BitVec.ofNat 4 k, true, true, 5, 0, l⟩ }
/-- A key exchange with slot 0 at chunk `n`. -/
def exchanging (n : Nat) : State := (asking 8 []).modSlot 0 0 0 fun y => { y with phase := 4, kxChunk := n }
/-- The Mirror link up under key 0. -/
def linked (m : Nat) : State := (put [(Reg.MIRR_STAT_LINK_UP, 1)] (inMode m)).modMirror fun x => { x with keyed := true, pnAligned := true }
/-- A LEASE frame of the partner in mode `m`. -/
def lease (m h : Nat) : Lease := ⟨100, 3, BitVec.ofNat 4 m, true, false, 77, BitVec.ofNat 64 h, 0, 0, 0⟩
/-- The header of another Mirror frame, of kind `k`, for the period of `pn`. -/
def mhdr (k pn : Nat) : MirrHdr := ⟨BitVec.ofNat 64 pn, 3, 7, true, false, 77, tag 77 k 0 0⟩
/-- An offer that verifies. -/
def offer : MirrOffer := ⟨9, 0, true, true, 5⟩
/-- A cell out of reset in state `st`, owned by port A, 3 µs after its epoch 100. -/
def cellSt (st : Nat) : CellSt :=
  { up := true, regs := Regs.wr (Regs.wr [] Els.GEN_STAT_STATE st) Els.AUTH_STAT_OWNER 0, prot := { resetN := true }, auth := { expired := false }
    time := { clock := 4 * 1003000, set := true, pn := 100, epochAt := 4 * 1000000 } }
/-- The unit in M7 with cell 0 in state `st`. -/
def cellIn (st : Nat) : State := { inMode 7 with cells := [(0, cellSt st)] }
/-- The same with the cell changed. -/
def withCell (st : Nat) (f : CellSt → CellSt) : State := { inMode 7 with cells := [(0, f (cellSt st))] }
/-- Mode `m` with ring 1 for commands, one of them waiting, completing on ring 2. -/
def ringed (m : Nat) : State :=
  (put [(ringF 1 Reg.RING_CFG_EN, 1), (ringF 1 Reg.RING_CFG_KIND, 1), (ringF 1 Reg.RING_CFG_LOG2, 4), (ringF 1 Reg.RING_CFG_CPL, 2),
    (ringF 2 Reg.RING_CFG_EN, 1), (ringF 2 Reg.RING_CFG_KIND, 2), (ringF 2 Reg.RING_CFG_LOG2, 4)] (treeIn m 3)).modRing 1 fun x => { x with waiting := 1 }
/-- A command of ring 1. -/
def hc : HostCmd := ⟨1, 77, false, true⟩
/-- An image that is trusted once the owner is set. -/
def owned (s : State) : State := put [(Reg.SEC_STAT_OWNER_SET, 1)] s
/-- A cell with register fields written. -/
def cput' (l : List (Fld × Nat)) (x : CellSt) : CellSt := { x with regs := l.foldl (fun m p => Regs.wr m p.1 p.2) x.regs }
/-- A healthy Beacon for epoch 101 with a record, from an owner of AUTH_EPOCH `e`. -/
def beaconFor (e : Nat) (r : CmdRec) : PortSt := { beacon := some { hdr := { pn := 101, authEpoch := BitVec.ofNat 32 e }, cmd := r } }
/-- A cell whose decision for epoch 101 is made, with a command or none for it. -/
def decided (r : Option CmdRec) : State :=
  withCell 3 fun x => { x with time := { x.time with decided := some 101 }, sw := { x.sw with next := r, gates := [(0, true)], cmd := ⟨3, false, 9, 0⟩ } }
/-- A cell whose port A has its slot and session key. -/
def slotted (st : Nat) : CellSt :=
  cput' [(pf 0 Port.PORT_ID_VALID, 1), (pf 0 Port.PORT_ID_SLOT, 2)] { cellSt st with ports := [(0, { keyed := true, key := 5, liveFrom := some 0 })] }
/-- The unit in M7 with one cell. -/
def one (x : CellSt) : State := { inMode 7 with cells := [(0, x)] }
/-- A completed transaction of a kind. -/
def otx (k : Nat) (l : List Byte) : OpenTx := { txn := 5, kind := k, next := 1, payload := l, complete := true }
/-- A cell with that transaction open on port A. -/
def asked (k : Nat) (l : List Byte) : State :=
  one { slotted 3 with ports := [(0, { keyed := true, key := 5, liveFrom := some 0, tx := some (otx k l) })] }
/-- The segment of a request Beacon. -/
def req (k : Nat) (l : List Byte) : Seg := ⟨2, false, BitVec.ofNat 4 k, true, true, 5, 0, l⟩
/-- A cell with that request on port `p`. -/
def requested (p k : Nat) (l : List Byte) (x : CellSt) : State :=
  one { x with ports := fset p { x.port p with req := some (req k l, 4 * 1003000) } x.ports }
/-- A frame of kind `k` under key `key`. -/
def frame (k key : Nat) : DownFrame :=
  let h : Hdr := { kind := BitVec.ofNat 4 k, pn := 101, timeNs := 1003000, mode := if k = 4 then 4 else 7, seq := 1 }
  { hdr := h, recs := [⟨1, false, 0, 0⟩, ⟨2, false, 0, 0⟩, ⟨3, false, 7, 0⟩], mac := downMac (BitVec.ofNat 256 key) h }
/-- One operation. -/
def rop (write : Bool) (a v : Nat) : RegOp := ⟨write, a, 0xFFFFFFFF, BitVec.ofNat 32 v⟩
/-- A set of one entry of address `a`, under identifier 7 for epoch 200. -/
def aset (a : Nat) : List Byte := [7, 0, 200, 0, 0, 0, 1, 0] ++ (⟨false, 0, BitVec.ofNat 16 a, 0xFFFFFFFF, 9⟩ : SetEntry).bytes
/-- Its entry. -/
def aent (a : Nat) : SetEntry := ⟨false, 0, BitVec.ofNat 16 a, 0xFFFFFFFF, 9⟩
/-- The unit in M7 with a command waiting and the Clause state given. -/
def clausing (k : ClauseSt) : State := { put [(af 0 0 Arm.ARM_RANK_K_Q, 1), (af 0 0 Arm.ARM_RANK_C_NOM, 1)] (ringed 7) with clause := k }
/-- A Clause of one parameter block, staged. -/
def stagedOne : Staged := { items := [.param 0 0x40000 [1, 2, 3, 4]] }
/-- One that has passed its check. -/
def checkedOne : Staged := { stagedOne with checked := true, checkPn := 99, est := 102 }
/-- An armed Clause for epoch `e`. -/
def armedFor (e : Nat) (items : List Item) : Armed := { items := items, id := 5, epoch := e, armedAt := 1002000 }
/-- Registers at the ends of their range. -/
def regsEng : Eng :=
  { d := [0x7FFFFFFF, 0x80000000, 0x40000000, 0xC0000000, 1, 0xFFFFFFFF, 0, 5, 0x12345678, 40, 0xFFFFFFF0, 0x80000001, 3, 0x600, 100, 7]
    a0 := 0x7FFFFFFFFFFFFFFFF0, a1 := 0x123456789ABCDEF012, p := [0x1000, 0x1004, 0x100E, 0x101C, 0x1010, 0, 0, 0], ofs := [4, 8, 0xFFFFF8, 0, 0, 0, 0, 0]
    cb := [0x1000, 0x2000, 0, 0], cl := [0x20, 0, 0, 0], run := some ⟨0, 4, 9, 0, false, false, 0⟩ }
/-- A Verb with constants for inputs. -/
def vd (opc : Nat) (ps : List Nat) : VerbDecl := { opc := opc, cost := 60, params := ps, inputs := [.const 1, .const 2, .const 3] }
/-- A Phrase of one Verb. -/
def ph (opc : Nat) (ps : List Nat) : Phrase :=
  { num := 4, region := 0, cls := 0, level := 0, home := 0, trig := .sample 1, verbs := [vd opc ps], windows := [⟨0x1000, 0x20, true⟩, ⟨0x2000, 0x20, false⟩, ⟨0x4000, 0x1000, true⟩] }
/-- Its activation, with entry words 1 to 11, and an ASDU of two members on subscription 3. -/
def ac : Act := { phrase := 4, num := 9, pn := 100, epochAt := 1000000, entry := [1, 2, 3, 4, 5, 6, 7, 8, 9, 10, 11], sv := [(3, [⟨1000400, [(77, true), (88, false)]⟩])], loops := 2 }
/-- The grant of the Verb. -/
def gr : Grant := ⟨0, 4, 9, 0, false, false, 0⟩
/-- Engine 0 of region 0 runs a Verb, over words 0x40000000, 7, 0x7FFFFFFF, 0x80000000 from 0x1000 on. -/
def verbing (opc : Nat) (ps : List Nat) (x : Eng) : State :=
  let s := (inMode 7).rgnWrite 0 0x1000 [0, 0, 0, 0x40, 7, 0, 0, 0, 0xFF, 0xFF, 0xFF, 0x7F, 0, 0, 0, 0x80]
  ({ s with image := { phrases := [ph opc ps] } }).modDisp 0 fun d => { d with engs := [(0, x)], acts := [ac] }
/-- A Phrase of class `c` and level `l` whose Verbs are these. -/
def phc (c l : Nat) (vs : List VerbDecl) : Phrase := { num := 4, region := 0, cls := c, level := l, home := 0, trig := .doorbell, verbs := vs, maxAct := 1 }
/-- Two Verbs of one Sentence, the second waiting for an output of the first. -/
def two : List VerbDecl := [{ opc := 7, cost := 2, sentence := some (1, 0), inputs := [.const 5] }, { opc := 8, cost := 2, sentence := some (1, 1), inputs := [.verb 0 0] }]
/-- The unit in M7 with one Phrase and a state of the dispatcher of die 0. -/
def posting (p : Phrase) (d : DispSt) : State := { inMode 7 with image := { phrases := [p] }, imageSet := true, disp := [(0, d)] }
/-- Its activation 9, with Verbs in these states. -/
def act9 (l : List Nat) : Act := { phrase := 4, num := 9, pn := 100, epochAt := 1000000, verbs := l.map fun k => { st := k } }
/-- A dispatcher with a Verb of that activation at the head of list `k`. -/
def ready1 (k v : Nat) (l : List Nat) (g : Eng) : DispSt := { engs := [(3, g)], acts := [act9 l], lists := [(k, [⟨4, 9, v⟩])], nextAct := 10 }
/-- An engine that runs Verb `v` of it. -/
def running (v : Nat) (x : Eng) : Eng := { x with run := some ⟨0, 4, 9, v, false, false, 1002000⟩ }
/-- Mode `m`, with a record staged for slot 0 of tree 0 and a class-1 activation that has not finished. -/
def closing (m : Nat) : State :=
  { ((treeIn m 3).modSlot 0 0 0 fun y => { y with staged := some ⟨1, true, 5, 9⟩, recNow := ⟨3, true, 7, 8⟩ }) with
    image := { phrases := [phc 1 0 two] }, imageSet := true, disp := [(0, ready1 0 0 [1, 0] {})] }
/-- A frame of a measurement lane, whose CRC is right. -/
def mframe (st : BitVec 8) (l : List (BitVec 24)) : MeasFrame :=
  { hdr := 3, status := st, codes := l, crc := BitVec.ofNat 16 (crc16 (measBytes { hdr := 3, status := st, codes := l, crc := 0 })) }
/-- Mode `m` with the table of the lanes at 0x3000, and frames on lane 0. -/
def measuring (m : Nat) (l : List LaneFrame) : State :=
  (put [(rf 0 Rgn.MEAS_TAB_BASE_BASE, 0x3000)] ((treeIn m 3).rgnWrite 0 0x3000 [0, 0, 0, 0x40, 2, 0, 0, 0, 5, 0, 0, 0])).modRgn 0 fun x => { x with lanes := [(0, l)] }
/-- A cell of a snapshot. -/
def snapCell (av inc due isol : Bool) : SnapCell := { cell := 0, vPred := 0x400000, vBase := 0x3F0000, age := 1, cEst := 100, avail := av, inc := inc, calib := false, isol := isol, excl := false, stale := false, noBase := false, calDue := due, temp := 50 }
/-- A snapshot of one arm of two cells. -/
def snapOf : SnapArm := { arm := 1, i := -5, dirPrev := true, cells := [snapCell true false true false, snapCell false true false true] }
/-- The unit in M7 with subscription 1 for sampled values of two members, GOOSE subscription 2 of two members, and the state given. -/
def station (m : Nat) (x : StnSt) : State :=
  { (put [(Reg.SV_CFG_EN.win 1, 1), (Reg.STN_TAB_BASE_BASE, 0x6000)] ((((inMode m).rgnWrite 0 0x6088 [2, 0, 3, 0, 0, 1]).rgnWrite 0 0x8A0C [2]).rgnWrite 0 0x7024 [0, 0, 0, 0x40, 1, 0, 0, 0, 9])) with stn := x }
/-- A frame of one ASDU of it. -/
def svFrame (l : List SvAsdu) : SvFrame := ⟨0, 0, [], l, nsTime 1003500⟩
/-- An ASDU. -/
def asdu (cnt : BitVec 16) (sy : BitVec 8) : SvAsdu := ⟨cnt, sy, [(5, 0), (0xFFFFFFFE, 1), (7, 0)]⟩
/-- A message of the GOOSE subscription. -/
def gmsg (n : W32) (l : List W32) : GooseMsg := ⟨0, 0, [], [], 0, n, 20, l, nsTime 1003500⟩
/-- Loop 3 of region 0 with its block at 0x4000, its words all ones, in a state of its requests. -/
def looping (l : List (Nat × Nat × Nat)) : State :=
  (put [(rf 0 Rgn.LOOP_BASE_BASE, 0x4000), (rf 0 Rgn.LOOP_STATE0_CLOSED, 0x15)] ((inMode 7).rgnWrite 0 0x43C0 (List.replicate 320 1))).modRgn 0 fun x => { x with loopReq := l }
/-- The same with a Clause armed that writes the last word of loop 3. -/
def loopingArmed : State := { looping [] with clause := { armed := some (armedFor 200 [.param 0 0x44EC [1, 2, 3, 4]]) } }
/-- The unit with one cell in OPERATE whose links are enabled; position 1 has this link and matrix, and 20 dies whose trims are 3, −2, 5. -/
def gating (l : LinkSt) (m : MatrixSt) (f : CellSt → CellSt) : State :=
  let x := f { cput' [(Els.GML_CFG_EN, 15), (Els.DIE_TRIM_EN, 1)] (slotted 3) with links := [(1, l)], mats := [(1, m)] }
  ((one x).cellWrite 0 (dieTab 1) [1, 20]).cellWrite 0 (dieTab 1 + 16) ([6, 0, 0, 0] ++ List.replicate 12 0 ++ [3, 0xFE, 5, 0x81, 0, 0, 0, 0, 3, 0xFE, 5, 0x41, 0, 0, 0, 0])
/-- An identity. -/
def ident (v : BitVec 16) : Ident := { gmc := 1, dies := 20, dtMin := 400, tPd := 100, vendor := v, serial := 5, iEdge := 7 }
/-- A configuration frame for die 0 that awaits its echo. -/
def cfg0 (tries : Nat) : CfgOut := { seq := 9, first := 0, entries := [{ on := 3, off := 0xFE, vg := 5 }], tries := tries, sentAt := 4000000 }
/-- Where no Clause is armed, none changes the split of a tree. -/
theorem noSplit {s : State} (h : s.clause.armed = none) : NoSplit s := fun _ _ => by simp [State.splitAt, h]
/-- A frame of 64 bytes of this EtherType, whose data begin with `b`. -/
def eth (ty : Nat) (b : Byte) : List Byte := List.replicate 12 0 ++ [BitVec.ofNat 8 (ty / 256), BitVec.ofNat 8 ty, b, 2] ++ List.replicate 48 0
/-- A port of the station that sends `l`. -/
def sending (l : List TxFrame) : State := let s := ringed 7; { s with stn := { s.stn with tx := [(1, l)] } }
/-- Mode 7 with the block of loop 0 at 0x4000, the poles of whose first section lie outside the unit circle. -/
def loopAt : State := put [(rf 0 Rgn.LOOP_BASE_BASE, 0x4000), (Reg.SEC_STAT_OWNER_SET, 1)] ((ringed 7).rgnWrite 0 0x4030 [0, 0, 0, 0x40])
/-- An image of one BIQ Verb over it. -/
def biqImage : Image := { phrases := [{ num := 4, region := 0, cls := 2, level := 4, home := 0, trig := .doorbell, verbs := [{ opc := 3, cost := 60, params := [0, 0] }] }] }
/-- A cell that both ports ask to read a register, the requests complete at these times. -/
def bothAsk (a b : Nat) : State :=
  let y (n : Nat) : PortSt := { keyed := true, key := 5, liveFrom := some 0, tx := some { otx 1 (rop false 0x210 0).bytes with doneAt := n } }
  one { cput' [(pf 1 Port.PORT_ID_VALID, 1), (pf 1 Port.PORT_ID_SLOT, 2)] (slotted 3) with ports := [(0, y a), (1, y b)] }
theorem noSplit_nil {s : State} {a : Armed} (h : s.clause.armed = some a) (hi : a.items = []) : NoSplit s := fun _ _ => by
  simp [State.splitAt, h, hi, State.asymIn, State.asym, State.rd]

/-! ### Ill-formed commands, one per check -/

theorem test_wf_region : (Instr.measLatch 8 false).wf = false := by decide
theorem test_wf_tree : (Instr.treeLost 0 32).wf = false := by decide
theorem test_wf_slot : (Instr.glintMiss 0 0 128).wf = false := by decide
theorem test_wf_engine : (Instr.dpNop 0 128).wf = false := by decide
theorem test_wf_cell : (Instr.cellEpoch 32768).wf = false := by decide
theorem test_wf_port : (Instr.assign 0 2).wf = false := by decide
theorem test_wf_position : (Instr.identReq 0 4).wf = false := by decide
theorem test_wf_pair : (Instr.gateEdge 0 2).wf = false := by decide
theorem test_wf_part : (Instr.registerWrite (some 32768) 0 0).wf = false := by decide
theorem test_wf_aligned : (Instr.registerWrite none 2 0).wf = false := by decide
theorem test_wf_ring : HostCmd.wf ⟨64, 0, false, false⟩ = false := by decide
theorem test_wf_shift : (Instr.dpAsh 0 0 1 2 32).wf = false := by decide
theorem test_wf_extract : (Instr.dpExt 0 0 1 true 41).wf = false := by decide
theorem test_wf_good : (Instr.dpExt 0 0 1 true 40).wf = true := by decide

/-! ### Figures of the manual -/

/-- "123456789". -/
def digits : List Byte := [0x31, 0x32, 0x33, 0x34, 0x35, 0x36, 0x37, 0x38, 0x39]
/-- The check values of R17. -/
theorem test_crc16 : crc16 digits = 0x29B1 := by decide
theorem test_crc32 : crc32 digits = 0xCBF43926 := by decide
/-- The slot plan of Station K (R111): slots 0, 18, 19, 42, 43 and the end of slot 127, in quarter nanoseconds. -/
theorem test_slot_plan : slotStart (pitchQ false) 0 1200 = 1200 ∧ slotStart (pitchQ false) 18 1200 + 198 = 4962 ∧ slotStart (pitchQ false) 19 1200 = 5240
    ∧ slotStart (pitchQ false) 42 1200 + 198 = 9992 ∧ slotStart (pitchQ false) 43 1200 = 10240 ∧ planEnd (pitchQ false) 128 1200 = 27814 := by decide
/-- N_INT 390 and DUTY 0x9522 (R218). -/
theorem test_nlevel : nLevel 22471882 44531524 774 false = (390 * 65536 + 0x9522, false) := by decide
/-- The update of C_EST on Station K (R235): Q = 2.0 in units of 2^-40, over 368 codes. -/
theorem test_c_est : cMeasure 426141286 2304000 2 10 (2 * 2 ^ 40) 368 = some 2304011 := by decide
/-- The edge offsets of Station K arm 0 (R247). -/
theorem test_edge_offsets : (List.range 9).map (fun j => (edgeOffset 0 50 4 2000 j).1) = [0, 0, 0, 0, 50, 50, 50, 50, 100] := by decide
/-- The word of the clamp example (R164), and its accumulator: a clamp that later terms would have undone (R168). -/
theorem test_macm_word : (DI.macm false ⟨2, 2, .post, 0⟩ ⟨3, 3, .post, 0⟩ 10 false).word = 0x68923694 := by decide
theorem test_macm_spelled : DI.ofWord 0x68923694 = some (.macm false ⟨2, 2, .post, 0⟩ ⟨3, 3, .post, 0⟩ 10 false) := by decide
theorem test_final_clamp :
    let t : Eng := [(0x64000000, 0x40000000), (0x32000000, 0x40000000), (0x9C000000, 0x40000000)].foldl (fun x q => x.mac false q.1 q.2 10 false) ({} : Eng)
    t.accSat0 = true ∧ t.a0 = 0x7FFFFFFFFFFFFFFFFF ∧ (t.ext 1 false 40).d[1]? = some 0x7FFFFFFF := by decide
/-- The circular history (R172): the last word wraps, and a step of −12 from the second. -/
theorem test_circular :
    let x : Eng := { p := [0, 0, 0x12001C, 0, 0, 0, 0, 0], ofs := [0, 0, 0, 4, 0, 0, 0, 0], cb := [0, 0x120000, 0, 0], cl := [0, 32, 0, 0] }
    let y : Eng := { x with p := [0, 0, 0x120004, 0, 0, 0, 0, 0], ofs := [0, 0, 0, 0xFFFFF4, 0, 0, 0, 0] }
    (x.step ⟨2, 3, .circ, 1⟩).p[2]? = some 0x120000 ∧ (y.step ⟨2, 3, .circ, 1⟩).p[2]? = some 0x120018 := by decide
/-- The cost of the four-tap filter (R179). -/
theorem test_program_cost : progCost [.st 0 ⟨0, 0, .circ, 0⟩ 0, .clra false, .loop 4 3, .macm false ⟨0, 0, .circ, 0⟩ ⟨1, 1, .post, 0⟩ 0 false, .ext 1 false 30, .out 0 1, .end_] = 57 := by decide
/-- Half the width of a pulse in quarter nanoseconds (R261): DUTY 0x9522 and 0xFF80 at 10 µs. -/
theorem test_half_width : halfWidth 0x9522 40000 = 11651 ∧ halfWidth 0xFF80 40000 = 19960 := by decide
/-- The acknowledgement on Station K (R510): its write, decoded from the bytes of the request. -/
theorem test_alert_ack : RegOp.ofBytes [1, 0, 0x4C, 0x06, 1, 0, 0, 0, 1, 0, 0, 0] = some ⟨true, 0x64C, 1, 1⟩ := by decide

/-- R475: a security block shows the items at their offsets and 0 elsewhere. -/
theorem test_secByte : (secByte [(4, [1, 2])] 5 = 2) ∧ (secByte [(4, [1, 2])] 6 = 0) := by decide
/-- R266, with the MINPULSE of 200 ns of its table: 60 ns are dropped with both edges, whatever follows; 100 ns are stretched. -/
theorem test_minPulse : (minPulse 800 8 0 0 false [⟨4000, 1, 0⟩, ⟨4240, 2, 0⟩] = ([], 1, 0))
    ∧ ((minPulse 800 8 0 0 false [⟨4000, 1, 0⟩, ⟨4400, 0, 0⟩]).1 = [⟨4000, 1, 0⟩, ⟨4800, 0, 0⟩]) := by decide

/-! ### The hypotheses of the statements are met: one clause for each, in the order of the statement -/

/-- LIM over the parameter block at 0x4000, with LO −2^30, HI 2^30 and RATE 2^28. -/
def limiting : State := put [(af 0 1 Arm.ARM_PBASE_BASE, 0x4000)] ((verbing 5 [] regsEng).rgnWrite 0 0x4080 [0, 0, 0, 0xC0, 0, 0, 0, 0x40, 0, 0, 0, 0x10])
theorem wit_StepRunsFront : ∃ (s : State) (c : Instr) (rest : List Instr), s.pending = c :: rest :=
  ⟨{ State.reset with pending := [.epoch] }, (.epoch), [], rfl⟩
theorem wit_StepTicks : ∃ s : State, s.pending = [] ∧ s.time.refclk = true ∧ s.modeNo ≠ 0 ∧ s.time.armed = none ∧ s.time.committed = none ∧ s.mirror.broke = false :=
  ⟨(inMode 7), by decide⟩
theorem wit_TimeRegisters :
    (∃ (s : State) (hi : W32), s.takesWrites = true)
    ∧ (∃ (s : State) (hi : W32), s.takesWrites = true)
    ∧ (∃ (s : State) (hi : W32), s.takesWrites = true)
    ∧ (∃ (s : State) (n : Nat) (hi : W32), (n = 2 ∨ n = 3) ∧ s.takesWrites = true)
    ∧ (∃ (s : State) (n : Nat) (hi : W32), (n = 2 ∨ n = 3) ∧ s.takesWrites = true)
    ∧ (∃ (s : State) (lo hi : W32), s.takesWrites = true ∧ fhas s.held 0x1040 = true ∧ fget 0 s.held 0x1040 = lo.toNat)
    ∧ (∃ (s : State) (lo hi : W32), s.takesWrites = true ∧ fhas s.held 0x1040 = true ∧ fget 0 s.held 0x1040 = lo.toNat) :=
  ⟨⟨(inMode 7), 8#32, by decide⟩,
   ⟨(inMode 7), 9#32, by decide⟩,
   ⟨(inMode 7), 0#32, by decide⟩,
   ⟨(inMode 7), 2, 0#32, by decide⟩,
   ⟨(inMode 7), 3, 1#32, by decide⟩,
   ⟨{ (put [(Reg.PPS_OUT_CFG_EN, 1)] (inMode 7)) with held := [(0x1040, 5)], time := { ctr := nsTime 1003000, epochAt := 1000000, ppsOut := true } }, 5, 7, by decide⟩,
   ⟨{ inMode 7 with held := [(0x1040, 0xFFFFFFFF)], time := { ctr := nsTime 1003000, epochAt := 1000000, ppsOut := true } }, 0xFFFFFFFF, 0xFFFFFFFF, by decide⟩⟩
theorem wit_TimeEdges :
    (∃ s : State, s.running = true ∧ s.on Reg.PPS_OUT_CFG_EN = true ∧ 4000000000 ≤ quarters s.time.ctr ∧ quarters s.time.ctr < 2 ^ 64 ∧ Plain s)
    ∧ (∃ s : State, s.time.ppsOut = true ∧ Plain s)
    ∧ (∃ (s : State) (n : Nat), s.time.ppsInLast = some n ∧ s.on Reg.PPS_IN_CFG_EN = true ∧ s.running = true ∧ Plain s ∧ n + 1100000000 < 2 ^ 64)
    ∧ (∃ (s : State) (n q : Nat), n < 2)
    ∧ (∃ (s : State) (n q : Nat), n < 2)
    ∧ (∃ (s : State) (n v : Nat), s.time.tevtArm.find? (fun p => p.1 == n) = some (n, v) ∧ s.running = true ∧ Plain s ∧ v < 2 ^ 64) :=
  ⟨⟨(put [(Reg.PPS_OUT_CFG_EN, 1)] { inMode 7 with time := { ctr := nsTime 1000000000 } }), by unfold Plain; decide⟩,
   ⟨{ inMode 7 with time := { ctr := nsTime 1000000000, ppsOut := true, ppsRise := 1000000000 } }, by unfold Plain; decide⟩,
   ⟨(put [(Reg.PPS_IN_CFG_EN, 1)] { inMode 7 with time := { ctr := nsTime 1000000000, ppsInLast := some 5 } }), 5, by unfold Plain; decide⟩,
   ⟨(inMode 7), 1, 0, by decide⟩,
   ⟨{ inMode 7 with time := { (inMode 7).time with tevtLast := [(0, 4 * 1002500)] } }, 0, 0, by decide⟩,
   ⟨{ inMode 7 with time := { (inMode 7).time with tevtArm := [(2, 1004000)] } }, 2, 1004000, by unfold Plain; decide⟩⟩
theorem wit_EpochEffect :
    (∃ s : State, s.epochs = true ∧ s.running = true ∧ s.ns < s.nextEpoch ∧ s.nextEpoch < 2 ^ 64 ∧ s.time.committed = none ∧ s.pnNext < 2 ^ 64)
    ∧ (∃ (s : State) (v : W64) (n : Nat), s.epochs = true ∧ s.running = true ∧ s.ns < s.nextEpoch ∧ s.time.committed = some (v, n) ∧ n ≤ s.nextEpoch ∧ 0 ≤ (s.nextEpoch : Int) + v.toInt ∧ (s.nextEpoch : Int) + v.toInt < 2 ^ 64 ∧ s.nextEpoch < 2 ^ 64 ∧ s.pnNext < 2 ^ 64) :=
  ⟨⟨(treeIn 7 3), by decide⟩,
   ⟨{ treeIn 7 3 with time := { (inMode 7).time with committed := some (0xFFFFFFFFFFFFFF00, 1009000) } }, 0xFFFFFFFFFFFFFF00, 1009000, by decide⟩⟩
theorem wit_PeriodBeacon : ∃ s : State, s.epochs = true ∧ s.running = true ∧ s.time.launched ≠ some s.pnNext ∧ s.ns < s.launchAt ∧ s.launchAt < 2 ^ 64 ∧ s.mode.running = none ∧ s.mirror.handover = none ∧ s.mirror.handoverIn = none ∧ s.time.armed = none ∧ ((∀ q ∈ s.allTrees, (s.tree q.1 q.2).blockDue = false)) :=
  ⟨(treeIn 7 3), by decide⟩
theorem wit_BlockBeacon : ∃ (s : State) (r u : Nat), (s.tree r u).blockDue = true ∧ s.epochs = true ∧ (s.tree r u).stopped = false ∧ 2 ≤ s.treeState r u ∧ s.treeState r u ≤ 5 ∧ (s.tree r u).seq < 255 :=
  ⟨((treeIn 7 3).modTree 0 0 fun x => { x with blockDue := true, beaconOn := true, laneFree := 4 * 1003100, lastTxAt := nsTime 1002950 }), 0, 0, by decide⟩
theorem wit_ManagementFrame : ∃ (s : State) (r u : Nat) (tx : Txn), s.epochs = true ∧ s.sendsPeriod r u = true ∧ (s.tree r u).blockDue = false ∧ (s.tree r u).seq < 255 ∧ (s.tree r u).extraUsed < s.rd (tf r u Tree.TREE_MGMT_EXTRA) ∧ quarters (s.laneTime r u) + 267 ≤ 4 * s.launchAt ∧ ((s.tree r u).pick fun y => s.allowTxn r u y && !y.front) = some tx :=
  ⟨((treeIn 7 3).modTree 0 0 fun x => { x with txns := [{ num := 3, slot := 0, segs := [⟨0, false, 1, true, true, 3, 0, []⟩], origin := .hold }] }), 0, 0, { num := 3, slot := 0, segs := [⟨0, false, 1, true, true, 3, 0, []⟩], origin := .hold }, by decide⟩
theorem wit_OtherBeacons :
    (∃ (s : State) (r u : Nat), s.epochs = true ∧ s.running = true ∧ s.treeState r u = 2 ∧ s.rd (ef r u Rgn.ENUM_TREE0_PHASE) ≠ 3 ∧ (s.tree r u).stopped = false ∧ (s.tree r u).beaconPn ≠ s.pn + 1 ∧ s.pn % s.stride ≠ 0)
    ∧ (∃ s : State, s.modeNo = 4 ∧ s.running = true ∧ s.ns < s.glimmerAt ∧ s.glimmerAt < 2 ^ 64 ∧ Plain s) :=
  ⟨⟨(put [(Reg.TIME_PN_PN, 101)] (treeIn 7 2)), 0, 0, by decide⟩,
   ⟨(treeIn 4 1), by unfold Plain; decide⟩⟩
theorem wit_GlintReception :
    (∃ (s : State) (r u q : Nat) (g : Glint), s.epochs = true ∧ 3 ≤ s.treeState r u ∧ s.treeState r u ≤ 5 ∧ g.kind = 1 ∧ (let m := s.runBy q; (let j := g.slot.toNat; m.inWindow r u = true ∧ glintTag (m.tree r u).useKey m.pn 1 (cellIndex r u j) g.mac = true ∧ j < m.slotsN r u ∧ m.mapSerial r u j ≠ 0 ∧ m.reports r u j m.pn = true)))
    ∧ (∃ (s : State) (r u q : Nat) (g : Glint), s.epochs = true ∧ 3 ≤ s.treeState r u ∧ s.treeState r u ≤ 5 ∧ g.kind = 1 ∧ (let m := s.runBy q; (let j := g.slot.toNat; 6 ≤ s.modeNo ∧ m.inWindow r u = true ∧ glintTag (m.tree r u).useKey m.pn 1 (cellIndex r u j) g.mac = false ∧ j < m.slotsN r u)))
    ∧ (∃ (s : State) (r u q : Nat) (g : Glint), s.epochs = true ∧ 3 ≤ s.treeState r u ∧ s.treeState r u ≤ 5 ∧ g.kind = 1 ∧ (let m := s.runBy q; (let j := g.slot.toNat; 6 ≤ s.modeNo ∧ m.inWindow r u = true ∧ glintTag (m.tree r u).useKey m.pn 1 (cellIndex r u j) g.mac = true ∧ m.slotsN r u ≤ j)))
    ∧ (∃ (s : State) (r u q : Nat) (g : Glint), s.epochs = true ∧ 3 ≤ s.treeState r u ∧ s.treeState r u ≤ 5 ∧ g.kind = 1 ∧ (let m := s.runBy q; 6 ≤ s.modeNo ∧ m.inWindow r u = false)) :=
  ⟨⟨(treeIn 7 3), 0, 0, 0, { mac := up 100 1 0 }, by decide⟩,
   ⟨(treeIn 7 3), 0, 0, 0, { mac := up 101 1 0 }, by decide⟩,
   ⟨(treeIn 7 3), 0, 0, 0, { slot := 16, mac := up 100 1 16 }, by decide⟩,
   ⟨(treeIn 7 3), 0, 0, 30000, { mac := up 100 1 0 }, by decide⟩⟩
theorem wit_TreeAlarms :
    (∃ (s : State) (r u m light : Nat), s.alertsOpen r u = true ∧ 32 ≤ light ∧ ((s.modeNo = 4 → m ≤ 7)) ∧ ((s.modeNo ≠ 4 → 1250 * m + 60 ≤ s.period)) ∧ Plain s)
    ∧ (∃ (s : State) (r u m light : Nat), s.alertsOpen r u = true ∧ 32 ≤ light ∧ ((s.modeNo = 4 → m ≤ 7)) ∧ ((s.modeNo ≠ 4 → 1250 * m + 60 ≤ s.period)) ∧ Plain s)
    ∧ (∃ (s : State) (r u j : Nat), s.rd (tf r u Tree.TREE_RR_MISS_N) ≤ (s.slot r u j).miss ∧ s.treeState r u ≠ 5)
    ∧ (∃ (s : State) (r u : Nat), (s.treeState r u = 3 ∨ s.treeState r u = 4) ∧ s.rd (tf r u Tree.TREE_RR_LOST_N) ≤ (s.tree r u).lostN) :=
  ⟨⟨(treeIn 7 3), 0, 0, 7, 32, by unfold Plain; decide⟩,
   ⟨(treeIn 4 1), 0, 0, 7, 32, by unfold Plain; decide⟩,
   ⟨((treeIn 7 3).modSlot 0 0 0 fun y => { y with miss := 3 }), 0, 0, 0, by decide⟩,
   ⟨((treeIn 7 3).modTree 0 0 fun x => { x with lostN := 3 }), 0, 0, by decide⟩⟩
theorem wit_TreeStates :
    (∃ (s : State) (r u : Nat), s.treeState r u ≠ 0 ∧ NoSplit s)
    ∧ (∃ (s : State) (r u : Nat), s.takesWrites = true ∧ s.treeState r u = 6 ∧ NoSplit s)
    ∧ (∃ (s : State) (r u : Nat), s.takesWrites = true ∧ s.treeState r u ≠ 6)
    ∧ (∃ (s : State) (r u : Nat), s.takesWrites = true ∧ s.treeState r u = 5 ∧ (s.treeBlocked r u = true ∨ s.modeNo = 5 ∨ s.modeNo = 6)) :=
  ⟨⟨((treeIn 7 3).modTree 0 0 fun x => { x with laneOn := true, txns := [{ num := 3, slot := 0, segs := [], origin := .hold }] }), 0, 0, by (repeat' apply And.intro) <;> first | exact noSplit rfl | exact noSplit_nil rfl rfl | decide | exact fun _ h => by cases h <;> decide⟩,
   ⟨(treeIn 7 6), 0, 0, by (repeat' apply And.intro) <;> first | exact noSplit rfl | exact noSplit_nil rfl rfl | decide | exact fun _ h => by cases h <;> decide⟩,
   ⟨(treeIn 7 3), 0, 0, by decide⟩,
   ⟨(treeIn 6 5), 0, 0, by decide⟩⟩
theorem wit_TreeTimeouts :
    (∃ (s : State) (r u j n : Nat) (tx : Txn), (s.tree r u).txns.find? (fun y => y.slot == j && !y.bcast && y.sentPn.isSome) = some tx ∧ tx.sentPn = some n ∧ n + s.rd (tf r u Tree.TREE_MGMT_TMO) ≤ s.pn ∧ ((s.treeState r u ≠ 2 ∨ tx.enumKind = true)) ∧ s.epochs = true ∧ s.running = true ∧ s.launchAt + 40 < 2 ^ 64 ∧ NoSplit s)
    ∧ (∃ (s : State) (r u j n : Nat) (tx : Txn), (s.tree r u).txns.find? (fun y => y.slot == j && !y.bcast && y.sentPn.isSome) = some tx ∧ tx.sentPn = some n ∧ n + s.rd (tf r u Tree.TREE_MGMT_TMO) ≤ s.pn ∧ ((s.treeState r u ≠ 2 ∨ tx.enumKind = true)) ∧ s.epochs = true ∧ s.running = true ∧ s.launchAt + 40 < 2 ^ 64 ∧ NoSplit s)
    ∧ (∃ (s : State) (n : Nat), s.mode.resumeFrom = some n ∧ s.running = true ∧ Plain s ∧ (let e := n + s.rd Reg.PWR_CFG_RESUME_TMO * 1000000; s.ns < e ∧ e < 2 ^ 64)) :=
  ⟨⟨((treeIn 7 3).modTree 0 0 fun x => { x with txns := [{ num := 3, slot := 0, segs := [], origin := .hold, sentPn := some 36, tries := 3 }] }), 0, 0, 0, 36, { num := 3, slot := 0, segs := [], origin := .hold, sentPn := some 36, tries := 3 }, by (repeat' apply And.intro) <;> first | exact noSplit rfl | exact noSplit_nil rfl rfl | decide | exact fun _ h => by cases h <;> decide⟩,
   ⟨((treeIn 7 3).modTree 0 0 fun x => { x with txns := [{ num := 3, slot := 0, segs := [], origin := .hold, sentPn := some 36, tries := 2 }] }), 0, 0, 0, 36, { num := 3, slot := 0, segs := [], origin := .hold, sentPn := some 36, tries := 2 }, by (repeat' apply And.intro) <;> first | exact noSplit rfl | exact noSplit_nil rfl rfl | decide | exact fun _ h => by cases h <;> decide⟩,
   ⟨(let s := treeIn 5 2; { s with mode := { s.mode with resumeFrom := some 1003000 } }), 1003000, by unfold Plain; decide⟩⟩
theorem wit_EnumerationReplies :
    (∃ (s : State) (r u q : Nat) (d : DiscReply) (g : Seg), ∃ j, (let m := s.runBy q; m.listening r u = some g ∧ g.kind = 7 ∧ g.payload.head? = some 0 ∧ leAt g.payload 2 2 = d.round.toNat ∧ d.mac.ok = true ∧ d.mac.key = (m.tree r u).useKey ∧ d.mac.ivKind = 7 ∧ d.mac.ivPn = BitVec.ofNat 64 m.pn ∧ ((m.planSlots r u).find? fun j => (m.slot r u j).phase == 5 && (m.slot r u j).serial == d.serial) = none ∧ m.mapSlot r u d.serial.toNat = some j ∧ d.serial ≠ 0 ∧ j < m.slotsN r u ∧ ((d.otherValid = true → d.otherIdx.toNat = cellIndex r u j))))
    ∧ (∃ (s : State) (r u q : Nat) (d : DiscReply) (g : Seg), (let m := s.runBy q; m.listening r u = some g ∧ g.kind = 7 ∧ g.payload.head? = some 0 ∧ leAt g.payload 2 2 = d.round.toNat ∧ d.mac.ok = true ∧ d.mac.key = (m.tree r u).useKey ∧ d.mac.ivKind = 7 ∧ d.mac.ivPn = BitVec.ofNat 64 m.pn ∧ ((m.planSlots r u).find? fun j => (m.slot r u j).phase == 5 && (m.slot r u j).serial == d.serial) = none ∧ m.mapSlot r u d.serial.toNat = none))
    ∧ (∃ (s : State) (r u q : Nat) (k : KxReply) (g : Seg), (let m := s.runBy q; (let j := g.slot.toNat; m.listening r u = some g ∧ g.kind = 8 ∧ g.txn = k.txn ∧ glintTag (m.tree r u).useKey m.pn 3 (cellIndex r u j) k.mac = true ∧ (m.slot r u j).phase = 4 ∧ k.chunk.toNat = (m.slot r u j).kxChunk ∧ (((m.slot r u j).kxChunk < 8 → (m.slot r u j).kxChunk = 3 → k.result = 0)) ∧ (((m.slot r u j).kxChunk = 7 → k.sigOk = true)) ∧ (((m.slot r u j).kxChunk = 8 → k.confirmOk = true)) ∧ (m.slot r u j).kxChunk ≤ 8)))
    ∧ (∃ (s : State) (r u q : Nat) (k : KxReply) (g : Seg), (let m := s.runBy q; (let j := g.slot.toNat; m.listening r u = some g ∧ g.kind = 8 ∧ g.txn = k.txn ∧ glintTag (m.tree r u).useKey m.pn 3 (cellIndex r u j) k.mac = true ∧ (m.slot r u j).phase = 4 ∧ k.chunk.toNat = (m.slot r u j).kxChunk ∧ (((m.slot r u j).kxChunk < 8 → (m.slot r u j).kxChunk = 3 → k.result = 0)) ∧ (((m.slot r u j).kxChunk = 7 → k.sigOk = true)) ∧ (((m.slot r u j).kxChunk = 8 → k.confirmOk = true)) ∧ (m.slot r u j).kxChunk ≤ 8))) :=
  ⟨⟨(asking 7 [0, 0, 1, 0]), 0, 0, 0, { round := 1, serial := 7, mac := tag 100 7 0 0 }, ⟨0,true,7,true,true,5,0,[0,0,1,0]⟩, 0, by decide⟩,
   ⟨(asking 7 [0, 0, 1, 0]), 0, 0, 0, { round := 1, serial := 8, mac := tag 100 7 0 0 }, ⟨0,true,7,true,true,5,0,[0,0,1,0]⟩, by decide⟩,
   ⟨(exchanging 3), 0, 0, 0, { slot := 0, chunk := 3, txn := 5, mac := up 100 3 0 }, ⟨0,false,8,true,true,5,0,[]⟩, by decide⟩,
   ⟨(exchanging 8), 0, 0, 0, { slot := 0, chunk := 8, txn := 5, mac := up 100 3 0 }, ⟨0,false,8,true,true,5,0,[]⟩, by decide⟩⟩
theorem wit_EnumerationEnd :
    (∃ (s : State) (r u : Nat), r < 8 ∧ u < 32 ∧ s.treeState r u = 2 ∧ s.rd (ef r u Rgn.ENUM_TREE0_PHASE) ≠ 3 ∧ s.epochs = true ∧ s.treeFits r u = true ∧ ((∀ j ∈ s.planSlots r u, (s.slot r u j).phase = 5)))
    ∧ (∃ (s : State) (r u : Nat), r < 8 ∧ u < 32 ∧ s.treeState r u = 2 ∧ s.rd (ef r u Rgn.ENUM_TREE0_PHASE) ≠ 3 ∧ s.epochs = true ∧ s.treeFits r u = true ∧ ((∀ j ∈ s.planSlots r u, (s.slot r u j).phase = 5)))
    ∧ (∃ (s : State) (r u : Nat), s.treeState r u = 2 ∧ s.rd (ef r u Rgn.ENUM_TREE0_PHASE) ≠ 3 ∧ s.on (ef r u Rgn.ENUM_TREE0_STALL) = false ∧ s.running = true ∧ Plain s ∧ (let n := (s.tree r u).enumFrom + s.rd Reg.ENUM_CFG_TMO * 1000000; s.ns < n ∧ n < 2 ^ 64)) :=
  ⟨⟨((treeIn 6 2).modSlot 0 0 0 fun y => { y with phase := 5 }), 0, 0, by decide⟩,
   ⟨((treeIn 5 2).modSlot 0 0 0 fun y => { y with phase := 5 }), 0, 0, by decide⟩,
   ⟨(treeIn 5 2), 0, 0, by unfold Plain; decide⟩⟩
theorem wit_LeaseReception :
    (∃ (s : State) (q : Nat) (l : Lease) (x : Mac) (heard : W64) (hq : BitVec 2), (let m := s.runBy q; m.mirrAccepts 1 0 l.txTs x = true))
    ∧ (∃ (s : State) (q : Nat) (l : Lease) (x : Mac) (heard : W64) (hq : BitVec 2), (let m := s.runBy q; m.mirrAccepts 1 0 l.txTs x = true))
    ∧ (∃ (s : State) (q : Nat) (l : Lease) (x : Mac) (heard : W64) (hq : BitVec 2), (s.runBy q).mirrAccepts 1 0 l.txTs x = false) :=
  ⟨⟨(linked 7), 0, (lease 7 0), (tag 77 1 0 0), 70, 1, by decide⟩,
   ⟨(linked 8), 0, (lease 7 200), (tag 77 1 0 0), 70, 1, by decide⟩,
   ⟨(linked 7), 0, (lease 7 0), (tag 78 1 0 0), 70, 2, by decide⟩⟩
theorem wit_MirrorCopy :
    (∃ (s : State) (q : Nat) (h : MirrHdr) (g : StateSeg), (let m := s.runBy q; m.mirrAccepts 2 (segByte g) h.txTs h.mac = true))
    ∧ (∃ s : State, s.mirror.copyDue = some (s.pn - 1) ∧ s.pn ≠ 0 ∧ s.mirror.copyPn = s.pn - 1 ∧ ((∀ r, r < s.dies → (s.mirror.regionSegs r).isSome)) ∧ Plain s)
    ∧ (∃ (s : State) (l : Lease), s.mirror.copyDue = some (s.pn - 1) ∧ s.pn ≠ 0 ∧ s.mirror.copyPn ≠ s.pn - 1 ∧ 0 < s.dies ∧ s.mirror.lease = some l ∧ l.pn.toNat = s.pn ∧ (l.mode = 7 ∨ l.mode = 9) ∧ Plain s) :=
  ⟨⟨(linked 8), 0, (mhdr 2 100), ⟨0,0,false,[],[],[]⟩, by decide⟩,
   ⟨((linked 8).modMirror fun x => { x with copyDue := some 99, copyPn := 99, copySegs := (List.range 8).map fun r => ⟨r, 0, true, [], [], []⟩ }), by unfold Plain; decide⟩,
   ⟨((linked 8).modMirror fun x => { x with copyDue := some 99, copyPn := 98, lease := some (lease 7 0) }), (lease 7 0), by unfold Plain; decide⟩⟩
theorem wit_MirrorClaims :
    (∃ (s : State), ∃ (q : Nat) (h : MirrHdr), s.modeNo = 8 ∧ s.mirror.healthy = true ∧ s.mode.running = none ∧ s.mode.pending = none ∧ (max (s.rd Reg.MIRR_AUTH_EPOCH) s.mirror.peerEpoch.toNat + 1 < 2 ^ 32) ∧ s.mirrAccepts 3 0 h.txTs h.mac = true ∧ (s.runBy q).grantedNow .warden true = false ∧ max (s.rd Reg.MIRR_AUTH_EPOCH) h.authEpoch.toNat + 1 < 2 ^ 32 ∧ s.on Reg.MIRR_CFG_AUTO = true)
    ∧ (∃ (s : State), s.modeNo = 8 ∧ s.mirror.healthy = true ∧ s.mode.running = none ∧ s.mode.pending = none ∧ (max (s.rd Reg.MIRR_AUTH_EPOCH) s.mirror.peerEpoch.toNat + 1 < 2 ^ 32) ∧ s.rd Reg.MIRR_CFG_LOSS_N ≤ s.mirror.lossCnt ∧ s.on Reg.MIRR_CFG_AUTO = true ∧ s.running = true ∧ s.leaseDue < 2 ^ 64 ∧ (s.runTo s.leaseDue).grantedNow .warden true = false)
    ∧ (∃ (s : State), s.modeNo = 8 ∧ s.mirror.healthy = true ∧ s.mode.running = none ∧ s.mode.pending = none ∧ (max (s.rd Reg.MIRR_AUTH_EPOCH) s.mirror.peerEpoch.toNat + 1 < 2 ^ 32) ∧ s.takesWrites = true ∧ s.grantedNow .warden true = false) :=
  ⟨⟨(put [(Reg.MIRR_CFG_AUTO, 1)] (linked 8)), 0, (mhdr 3 100), by decide⟩,
   ⟨((put [(Reg.MIRR_CFG_AUTO, 1)] (linked 8)).modMirror fun x => { x with lossCnt := 100 }), by decide⟩,
   ⟨(linked 8), by decide⟩⟩
theorem wit_Handovers :
    (∃ (s : State) (h : BitVec 56), s.takesWrites = true)
    ∧ (∃ (s : State) (h : BitVec 56), s.takesWrites = true)
    ∧ (∃ s : State, s.takesWrites = true)
    ∧ (∃ s : State, s.takesWrites = true)
    ∧ (∃ (s : State) (q : Nat) (h : MirrHdr), s.mirrAccepts 6 0 h.txTs h.mac = true ∧ s.mirror.healthy = true ∧ s.handoverOk h.pn.toNat = true)
    ∧ (∃ (s : State) (q : Nat) (h : MirrHdr) (b : Bool), (let m := s.runBy q; m.mirrAccepts 5 0 h.txTs h.mac = true ∧ m.mirror.handover = some (h.pn.toNat, b)))
    ∧ (∃ (s : State) (h : Nat), s.mirror.handover = some (h, false) ∧ h ≤ s.pn + 2)
    ∧ (∃ (s : State) (n : Nat), s.mirror.claimFrom = some n ∧ (s.modeNo = 7 ∨ s.modeNo = 9) ∧ n + s.rd Reg.MIRR_CFG_CLAIM_TMO ≤ s.pn ∧ s.mode.running = none ∧ s.mode.pending = none ∧ s.grantedNow .warden true = false)
    ∧ (∃ s : State, s.takesWrites = true ∧ (s.modeNo ≠ 8 ∨ s.mirror.healthy = false)) :=
  ⟨⟨((linked 7).modMirror fun x => { x with lease := some (lease 8 0) }), 103#56, by decide⟩,
   ⟨((linked 7).modMirror fun x => { x with lease := some (lease 8 0) }), 102#56, by decide⟩,
   ⟨(linked 8), by decide⟩,
   ⟨(linked 7), by decide⟩,
   ⟨((linked 7).modMirror fun x => { x with lease := some (lease 8 0) }), 0, (mhdr 6 103), by decide⟩,
   ⟨((linked 7).modMirror fun x => { x with handover := some (200, false) }), 0, (mhdr 5 200), false, by decide⟩,
   ⟨((linked 7).modMirror fun x => { x with handover := some (102, false) }), 102, by decide⟩,
   ⟨((linked 7).modMirror fun x => { x with claimFrom := some 1 }), 1, by decide⟩,
   ⟨(linked 7), by decide⟩⟩
theorem wit_MirrorLink :
    (∃ s : State, s.on Reg.SEC_STAT_ENDORSED = true ∧ s.sec.idk = true ∧ s.sec.zeroised = false ∧ s.linkUp = false)
    ∧ (∃ (s : State) (o : MirrOffer) (m : Mac), s.kxAccepts 0 m = true ∧ o.ownerHash = s.ownerHash ∧ o.endorsed = true ∧ o.signed = true)
    ∧ (∃ (s : State) (m : Mac), s.kxAccepts 1 m = true ∧ s.mirror.confirmSent = true ∧ s.modeNo ≠ 8)
    ∧ (∃ s : State, s.mirror.confirmSent = true ∧ s.linkUp = false ∧ s.running = true ∧ s.ns < s.mirror.confirmAt + 10000000 ∧ s.mirror.confirmAt + 10000000 < 2 ^ 64 ∧ Plain s)
    ∧ (∃ (s : State) (n : Nat), s.mirror.retryAt = some n ∧ s.running = true ∧ s.ns < n ∧ n < 2 ^ 64 ∧ s.mirror.aligned = true ∧ s.mirror.peerUnit = some (!s.unitB) ∧ s.on Reg.SEC_STAT_ENDORSED = true ∧ s.sec.idk = true ∧ s.sec.zeroised = false ∧ s.linkUp = false ∧ Plain s) :=
  ⟨⟨(put [(Reg.SEC_STAT_ENDORSED, 1)] (inMode 6)), by decide⟩,
   ⟨((inMode 6).modMirror fun x => { x with offerSent := true }), offer, (tag 0 7 0 0), by decide⟩,
   ⟨((inMode 6).modMirror fun x => { x with offerSent := true, confirmSent := true }), (tag 0 7 8 0), by decide⟩,
   ⟨((inMode 6).modMirror fun x => { x with confirmSent := true }), by unfold Plain; decide⟩,
   ⟨((put [(Reg.SEC_STAT_ENDORSED, 1)] (inMode 6)).modMirror fun x => { x with aligned := true, peerUnit := some true, retryAt := some 1003001 }), 1003001, by unfold Plain; decide⟩⟩
theorem wit_ModeRequests :
    (∃ (s : State) (target : Nat), s.takesWrites = true ∧ s.mode.running = none ∧ s.mode.pending = none ∧ s.rd Reg.MODE_STAT_PSTATE = 0 ∧ s.grantedNow .host true = false ∧ transition s.modeNo (target % 16) .host = none)
    ∧ (∃ (s : State) (target : Nat), s.takesWrites = true ∧ s.mode.running = none ∧ s.mode.pending = none ∧ s.rd Reg.MODE_STAT_PSTATE = 0 ∧ (s.modeNo, target) ∈ plainHost ∧ s.grantedNow .host true = false ∧ s.mode.gaugeWait = false ∧ fhas s.mode.avsReq 0 = false)
    ∧ (∃ (s : State) (x : Running) (n : Nat), s.mode.running = some x ∧ x.effect = .epoch ∧ x.pn = some n ∧ n ≤ s.pn ∧ s.mode.pending = none ∧ 5 ≤ s.modeNo ∧ 6 ≤ x.req.target ∧ x.req.target ≤ 11 ∧ x.req.target ≠ 10) :=
  ⟨⟨(inMode 6), 2, by decide⟩,
   ⟨(inMode 6), 7, by decide⟩,
   ⟨(let s := inMode 6; { s with mode := { s.mode with running := some ⟨⟨.host, 7, false⟩, .epoch, 0, some 100⟩ } }), ⟨⟨.host,7,false⟩,.epoch,0,some 100⟩, 100, by decide⟩⟩
theorem wit_PowerStates :
    (∃ s : State, s.mayDescend = true ∧ s.mode.retryAt = none ∧ s.running = true ∧ s.permits 3 = false ∧ s.permits 2 = false ∧ s.permits 1 = true ∧ s.rd Reg.MODE_STAT_PSTATE = 0 ∧ (let n := s.mode.idleFrom + s.rd Reg.PWR_CFG_IDLE_DLY * 1000000; s.ns < n ∧ n < 2 ^ 64))
    ∧ (∃ s : State, s.mayDescend = true ∧ s.mode.retryAt = none ∧ s.modeNo = 6 ∧ s.permits 3 = true ∧ s.clause.staged = none ∧ s.clause.armed = none ∧ s.mirror.handover = none ∧ s.mirror.handoverIn = none ∧ s.grantedNow .warden true = false ∧ s.mode.idleFrom + s.rd Reg.PWR_CFG_IDLE_DLY * 1000000 ≤ s.ns)
    ∧ (∃ (s : State) (n : Nat), s.mode.retryAt = some n ∧ s.running = true ∧ s.ns < n ∧ n < 2 ^ 64 ∧ s.mayDescend = true ∧ s.permits 3 = false ∧ s.permits 2 = false ∧ s.permits 1 = true ∧ s.rd Reg.MODE_STAT_PSTATE = 0)
    ∧ (∃ (s : State) (n : Nat), s.mode.entry = none ∧ s.rd Reg.MODE_STAT_PSTATE = 1 ∧ s.wakeEvent = some n)
    ∧ (∃ (s : State) (n : Nat), s.mode.entry = none ∧ s.rd Reg.MODE_STAT_PSTATE = 2 ∧ s.modeNo = 4 ∧ s.wakeEvent = some n ∧ s.mode.running = none ∧ s.mode.pending = none ∧ s.grantedNow .warden true = false ∧ s.on Reg.SEC_STAT_ENDORSED = true)
    ∧ (∃ (s : State) (v : W32), s.takesWrites = true ∧ s.mode.entry = none ∧ s.rd Reg.MODE_STAT_PSTATE ≤ 1)
    ∧ (∃ (s : State) (v : W32), s.takesWrites = true ∧ s.mode.entry = none ∧ s.rd Reg.MODE_STAT_PSTATE ≤ 1)
    ∧ (∃ (s : State) (x : Running), s.mode.running = some x ∧ x.effect = .exit ∧ s.modeNo = 3 ∧ s.mode.exitStep = 3)
    ∧ (∃ (s : State) (x : Running), s.mode.running = some x ∧ x.effect = .exit ∧ s.modeNo = 3 ∧ s.mode.exitStep = 3 ∧ s.mode.pending = none) :=
  ⟨⟨(put [(Reg.LAT_TOL_TOL, 20), (Reg.PWR_CFG_IDLE_DLY, 10)] (inMode 6)), by decide⟩,
   ⟨(let s := put [(Reg.LAT_TOL_TOL, 80000), (Reg.PWR_CFG_DORM_EN, 1), (Reg.PWR_CFG_IDLE_DLY, 1)] (inMode 6); s), by decide⟩,
   ⟨(let s := put [(Reg.LAT_TOL_TOL, 20)] (inMode 6); { s with mode := { s.mode with retryAt := some 1003001 } }), 1003001, by decide⟩,
   ⟨(let s := put [(Reg.MODE_STAT_PSTATE, 1)] (inMode 6); { s with mode := { s.mode with wakePend := 1 } }), 0, by decide⟩,
   ⟨(let s := put [(Reg.MODE_STAT_PSTATE, 2), (Reg.SEC_STAT_ENDORSED, 1)] (inMode 4); { s with mode := { s.mode with wakePend := 1 } }), 0, by decide⟩,
   ⟨(put [(Reg.MODE_STAT_PSTATE, 1)] (inMode 6)), 19#32, by decide⟩,
   ⟨(put [(Reg.MODE_STAT_PSTATE, 1)] (inMode 6)), 20#32, by decide⟩,
   ⟨(let s := inMode 3; { s with mode := { s.mode with running := some ⟨⟨.host, 5, false⟩, .exit, 0, none⟩, exitStep := 3 } }), ⟨⟨.host,5,false⟩,.exit,0,none⟩, by decide⟩,
   ⟨(let s := inMode 3; { s with mode := { s.mode with running := some ⟨⟨.host, 5, false⟩, .exit, 0, none⟩, exitStep := 3 } }), ⟨⟨.host,5,false⟩,.exit,0,none⟩, by decide⟩⟩
theorem wit_SupplyControl :
    (∃ s : State, s.modeNo ≠ 0 ∧ s.rd Reg.MODE_STAT_PSTATE < 2 ∧ s.mode.entry = none ∧ fhas s.mode.avsReq 0 = false ∧ s.running = true ∧ Plain s ∧ s.mode.evalAt + s.rd Reg.AVS_CFG_INT * 1000 < 2 ^ 64)
    ∧ (∃ (s : State) (rail v : Nat), rail < 2 ∧ s.mode.avsReq.find? (fun p => p.1 == rail) = some (rail, v) ∧ fhas s.mode.avsWait rail = false ∧ s.mode.running = none ∧ s.mode.pending = none)
    ∧ (∃ (s : State) (rail : Nat), fhas s.mode.avsReq rail = true ∧ fhas s.mode.avsWait rail = false ∧ s.running = true ∧ s.mode.running = none ∧ s.mode.pending = none ∧ Plain s ∧ (let n := fget 0 s.mode.avsSent rail + s.rd Reg.AVS_CFG_ACK_TMO * 1000; s.ns < n ∧ n < 2 ^ 64))
    ∧ (∃ (s : State) (mv : Nat), s.modeNo ≠ 0 ∧ s.rd Reg.MODE_STAT_PSTATE < 2 ∧ s.running = true ∧ Plain s ∧ ((s.mode.calFrom + s.rd Reg.AVS_CAL_INT * 1000000000 < 2 ^ 64 ∨ s.mode.calDueAt.isSome = true)) ∧ ((∀ n ∈ s.mode.calDueAt, n < 2 ^ 64))) :=
  ⟨⟨(inMode 6), by unfold Plain; decide⟩,
   ⟨(let s := inMode 6; { s with mode := { s.mode with avsReq := [(1, 850)] } }), 1, 850, by decide⟩,
   ⟨(let s := inMode 6; { s with mode := { s.mode with avsReq := [(1, 850)], avsSent := [(1, 1003000)] } }), 1, by unfold Plain; decide⟩,
   ⟨(inMode 6), 800, by unfold Plain; decide⟩⟩
theorem wit_FaultTick :
    (∃ (s : State) (level i : Nat) (ext : List (Nat × Bool)), 1 ≤ level ∧ level ≤ 3 ∧ ((level = 1 → i / 32 < s.dies)) ∧ ((level = 2 → i < s.dies)))
    ∧ (∃ (s : State) (level i : Nat) (ext : List (Nat × Bool)), 1 ≤ level ∧ level ≤ 3 ∧ ((level = 1 → i / 32 < s.dies)) ∧ ((level = 2 → i < s.dies))) :=
  ⟨⟨((treeIn 7 3).raise (.tree 0 0) { src := 0 }), 1, 0, [], by decide⟩,
   ⟨(inMode 7), 3, 0, [(4, true)], by decide⟩⟩
theorem wit_FaultControls :
    (∃ (s : State) (n : Nat), s.modeNo = 10 ∧ s.mode.quietFrom = some n ∧ s.mode.running = none ∧ s.mode.pending = none ∧ s.time.refclk = true ∧ s.activeAt (s.rd Reg.CFLT_REC_THR) = false ∧ (let e := n + s.rd Reg.CFLT_REC_QUIET_TIME * 1000000; s.ns < e ∧ e < 2 ^ 64 ∧ (s.runTo e).grantedNow .warden true = false))
    ∧ (∃ (s : State) (n : Nat), s.mode.recUntil = some n ∧ s.running = true ∧ s.ns < n ∧ n < 2 ^ 64 ∧ s.modeNo ≠ 2 ∧ s.modeNo ≠ 5 ∧ s.modeNo ≠ 11 ∧ Plain s)
    ∧ (∃ (s : State) (c : Nat), (s.cell c).flt.rwin ≠ 0 ∧ (s.cell c).flt.rwin ≤ (s.cell c).time.pn ∧ (s.cell c).st ≠ 1 ∧ (s.cell c).st ≠ 6)
    ∧ (∃ s : State, s.takesWrites = true ∧ s.on Reg.CFLT_REC_STAT_LATCHED = true)
    ∧ (∃ (s : State) (n : Nat), s.takesWrites = true ∧ n < 4)
    ∧ (∃ (s : State) (r : Nat), r < 8 ∧ s.takesWrites = true)
    ∧ (∃ s : State, s.takesWrites = true)
    ∧ (∃ (s : State) (n q : Nat) (low : Bool), n < 4)
    ∧ (∃ (s : State) (n q : Nat) (low : Bool), n < 4)
    ∧ (∃ (s : State) (r : Nat) (active : Bool), r < s.dies) :=
  ⟨⟨(let s := inMode 10; { s with mode := { s.mode with quietFrom := some 1003000 } }), 1003000, by decide⟩,
   ⟨(let s := inMode 7; { s with mode := { s.mode with recUntil := some 1003001 } }), 1003001, by unfold Plain; decide⟩,
   ⟨(withCell 3 fun x => { x with flt := { rwin := 100 } }), 0, by decide⟩,
   ⟨(put [(Reg.CFLT_REC_STAT_LATCHED, 1)] (inMode 10)), by decide⟩,
   ⟨(put [(Reg.CFLT_TRIPOUT_ASSERTED, 15)] (inMode 7)), 3, by decide⟩,
   ⟨(inMode 7), 7, by decide⟩,
   ⟨(inMode 7), by decide⟩,
   ⟨(inMode 7), 3, 9, true, by decide⟩,
   ⟨(inMode 7), 0, 9, false, by decide⟩,
   ⟨(inMode 7), 7, true, by decide⟩⟩
theorem wit_CellFaults :
    (∃ (s : State) (c : Nat) (ext : List (Nat × Bool)), (s.cell c).runs = true)
    ∧ (∃ (s : State) (c : Nat) (ext : List (Nat × Bool)), (s.cell c).runs = true)
    ∧ (∃ (s : State) (c src : Nat), fhas (s.cell c).prot.demands src = true ∧ s.crd c Els.FLT_CFG_REL ≤ fget 0 (s.cell c).prot.demands src) :=
  ⟨⟨((cellIn 3).raise (.cell 0) { src := Src.GATE_FB }), 0, [], by decide⟩,
   ⟨((cellIn 3).raise (.cell 0) { src := Src.SEQ_FAULT }), 0, [], by decide⟩,
   ⟨(withCell 3 fun x => { x with prot := { x.prot with demands := [(2, 100)] } }), 0, 2, by decide⟩⟩
theorem wit_CellProtection :
    (∃ (s : State) (c q : Nat), (s.cell c).prot.loss < 3 ∧ (s.cell c).up = true)
    ∧ (∃ (s : State) (c q : Nat), (s.cell c).prot.loss < 3 ∧ (s.cell c).up = false ∧ (s.cell c).prot.pulseOn = false ∧ (s.cell c).sec.extest = false)
    ∧ (∃ (s : State) (c : Nat), (s.cell c).prot.byp = true)
    ∧ (∃ (s : State) (c : Nat), (s.cell c).prot.byp = true ∧ (s.cell c).on Els.PROT_STAT_BYP_SW_CONF = false ∧ (s.cell c).runs = true ∧ (s.cell c).prot.fires ≠ 0 ∧ (let due := (s.cell c).prot.firedAt + 4000000 * s.crd c Els.BYP_CFG_CONF_TMO; (s.cell c).time.clock < due ∧ (s.cell c).prot.pulseOn = false ∧ (s.cell c).sec.extest = false ∧ (s.cell c).prot.fires ≤ s.crd c Els.BYP_CFG_REFIRE))
    ∧ (∃ (s : State) (c : Nat), (s.cell c).prot.byp = true ∧ (s.cell c).on Els.PROT_STAT_BYP_SW_CONF = false ∧ (s.cell c).runs = true ∧ (s.cell c).prot.fires ≠ 0 ∧ (let due := (s.cell c).prot.firedAt + 4000000 * s.crd c Els.BYP_CFG_CONF_TMO; (s.cell c).time.clock < due ∧ (s.cell c).prot.pulseOn = false ∧ (s.cell c).sec.extest = false ∧ (s.cell c).prot.fires = s.crd c Els.BYP_CFG_REFIRE + 1)) :=
  ⟨⟨(cellIn 3), 0, 3, by decide⟩,
   ⟨(withCell 0 fun x => { x with up := false }), 0, 3, by decide⟩,
   ⟨(withCell 3 fun x => { x with prot := { x.prot with byp := true } }), 0, by decide⟩,
   ⟨(withCell 3 fun x => { x with prot := { x.prot with byp := true, fires := 1, firedAt := 4 * 1003000 } }), 0, by decide⟩,
   ⟨(put [] (withCell 3 fun x => { x with prot := { x.prot with byp := true, fires := 3, firedAt := 4 * 1003000 } })), 0, by decide⟩⟩
theorem wit_SupplyLoss :
    (∃ (s : State) (c : Nat), (s.cell c).up = true ∧ (s.cell c).on Els.PROT_STAT_AUX_PG = false ∧ (s.cell c).prot.loss = 0)
    ∧ (∃ (s : State) (c : Nat), (s.cell c).prot.loss = 1)
    ∧ (∃ (s : State) (c q : Nat), (s.cell c).up = true ∧ (s.cell c).prot.loss < 3) :=
  ⟨⟨(withCell 3 fun x => { x with regs := x.regs.wr Els.PROT_STAT_AUX_PG 0 }), 0, by decide⟩,
   ⟨(withCell 3 fun x => { x with prot := { x.prot with loss := 1, pgFellAt := 4 * 1003000 } }), 0, by decide⟩,
   ⟨(withCell 3 fun x => { x with prot := { x.prot with loss := 2, auxOff := true } }), 0, 4, by decide⟩⟩
theorem wit_ResetExit :
    (∃ (s : State) (unit boot : Nat), s.mode.resetN = false)
    ∧ (∃ (s : State) (unit boot : Nat), s.mode.resetN = false)
    ∧ (∃ s : State, s.modeNo ≠ 0)
    ∧ (∃ s : State, s.modeNo = 0)
    ∧ (∃ s : State, s.modeNo = 0 ∧ s.mode.resetN = true ∧ (s.rd Reg.BOOT_STAT_ERR = 0 ∨ s.rd Reg.BOOT_STAT_ERR = 4) ∧ s.mode.running = none ∧ s.mode.pending = none ∧ s.grantedNow .warden true = false)
    ∧ (∃ (s : State) (err : Nat), s.modeNo = 0 ∧ s.mode.resetN = true ∧ s.rd Reg.BOOT_STAT_ERR = 0 ∧ 1 ≤ err ∧ err ≤ 3)
    ∧ (∃ (s : State) (err : Nat), s.modeNo = 0 ∧ s.mode.resetN = true ∧ s.rd Reg.BOOT_STAT_ERR = 0 ∧ 1 ≤ err ∧ err ≤ 3)
    ∧ (∃ (s : State) (i : Image), s.modeNo = 1 ∧ s.rd Reg.BOOT_STAT_BOOT = 1 ∧ s.imageSet = false ∧ s.trusts i = true ∧ s.imageShape i = true ∧ s.polesOk i = true ∧ s.mode.running = none ∧ s.mode.pending = none ∧ s.grantedNow .warden true = false)
    ∧ (∃ (s : State) (i : Option Image), s.modeNo = 1 ∧ s.rd Reg.BOOT_STAT_BOOT = 1 ∧ s.imageSet = false ∧ ((∀ x, i = some x → s.trusts x = false ∨ s.imageShape x = false ∨ s.polesOk x = false)))
    ∧ (∃ (s : State) (fails : List (Nat × Nat)), s.modeNo = 2) :=
  ⟨⟨State.reset, 1, 3, by decide⟩,
   ⟨State.reset, 0, 1, by decide⟩,
   ⟨(ringed 7), by decide⟩,
   ⟨State.reset, by decide⟩,
   ⟨{ State.reset with mode := { State.reset.mode with resetN := true } }, by decide⟩,
   ⟨{ State.reset with mode := { State.reset.mode with resetN := true } }, 1, by decide⟩,
   ⟨{ State.reset with mode := { State.reset.mode with resetN := true } }, 3, by decide⟩,
   ⟨(put [(Reg.BOOT_STAT_BOOT, 1)] (owned (inMode 1))), { endorse := [(0, true)] }, by decide⟩,
   ⟨(put [(Reg.BOOT_STAT_BOOT, 1)] (inMode 1)), none, by (repeat' apply And.intro) <;> first | exact noSplit rfl | exact noSplit_nil rfl rfl | decide | exact fun _ h => by cases h <;> decide⟩,
   ⟨(inMode 2), [(7, 1)], by decide⟩⟩
theorem wit_Security :
    (∃ s : State, s.takesWrites = true)
    ∧ (∃ s : State, s.takesWrites = true ∧ s.imageSet = true)
    ∧ (∃ (s : State) (part : Option Nat), (s.secOf part).fails < 3)
    ∧ (∃ (s : State) (part : Option Nat), (s.secOf part).fails < 3)
    ∧ (∃ s : State, s.sec.challenge.isSome = true)
    ∧ (∃ (s : State) (c : Nat), (s.cell c).sec.challenge.isSome = true)
    ∧ (∃ s : State, s.modeNo ≠ 0) :=
  ⟨⟨(inMode 7), by decide⟩,
   ⟨{ inMode 7 with imageSet := true }, by decide⟩,
   ⟨(inMode 7), none, by decide⟩,
   ⟨(cellIn 3), (some 0), by decide⟩,
   ⟨{ linked 7 with sec := { challenge := some 5 } }, by decide⟩,
   ⟨(withCell 3 fun x => { x with sec := { challenge := some 5 } }), 0, by decide⟩,
   ⟨(linked 7), by decide⟩⟩
theorem wit_CellResets :
    (∃ (s : State) (c : Nat), (s.cell c).up = true ∧ (s.cell c).prot.resLowN = true)
    ∧ (∃ (s : State) (c patch : Nat), (s.cell c).up = false ∧ (s.cell c).on Els.PROT_STAT_BYP_SW_CONF = false ∧ (s.cell c).on Els.PROT_STAT_OVERVOLTAGE = false)
    ∧ (∃ (s : State) (c patch : Nat), (s.cell c).up = false ∧ (s.cell c).on Els.PROT_STAT_BYP_SW_CONF = true ∧ (s.cell c).on Els.PROT_STAT_OVERVOLTAGE = false)
    ∧ (∃ (s : State) (c : Nat), ((s.cell c).prot.resetN = false ∨ (s.cell c).on Els.SEC_STAT_UNLOCKED = true))
    ∧ (∃ (s : State) (sel : Bool), (s.mode.resetN = false ∨ s.on Reg.SEC_STAT_UNLOCKED = true)) :=
  ⟨⟨((cellIn 3).cellWrite 0 0x100000 [5]), 0, by decide⟩,
   ⟨((withCell 0 fun x => { x with up := false }).cellWrite 0 0x101004 [0, 0, 64]), 0, 2, by decide⟩,
   ⟨(withCell 0 fun x => { x with up := false, regs := x.regs.wr Els.PROT_STAT_BYP_SW_CONF 1 }), 0, 0, by decide⟩,
   ⟨(withCell 3 fun x => { x with prot := {} }), 0, by decide⟩,
   ⟨State.reset, true, by decide⟩⟩
theorem wit_HostRings :
    (∃ (s : State) (pre post : List (Nat × Nat)) (n i d : Nat), s.doorbellAt = some d ∧ ((s.epochs = true → s.host.pollAt < d)) ∧ s.wedged = false ∧ n < 64 ∧ s.on (ringF n Reg.RING_CFG_EN) = true ∧ ((∀ q ∈ pre ++ post, q.1 ≠ n)) ∧ ((∀ x ∈ s.host.cplWait, x.ring ≠ n)) ∧ Plain s)
    ∧ (∃ (s : State) (pre post : List (Nat × Nat)) (n i d : Nat), s.doorbellAt = some d ∧ ((s.epochs = true → s.host.pollAt < d)) ∧ s.wedged = false ∧ n < 64 ∧ s.on (ringF n Reg.RING_CFG_EN) = true ∧ ((∀ q ∈ pre ++ post, q.1 ≠ n)) ∧ ((∀ x ∈ s.host.cplWait, x.ring ≠ n)) ∧ Plain s)
    ∧ (∃ (s : State) (idx : List (Nat × Nat)) (d : Nat), s.doorbellAt = some d ∧ ((s.epochs = true → s.host.pollAt < d)) ∧ s.wedged = false ∧ Plain s)
    ∧ (∃ (s : State) (idx : List (Nat × Nat)) (d : Nat), s.doorbellAt = some d ∧ ((s.epochs = true → s.host.pollAt < d)) ∧ s.wedged = false ∧ Plain s)
    ∧ (∃ (s : State) (v : W32), s.takesWrites = true ∧ (let n := s.rd Reg.RING_SEL_N; s.on (ringF n Reg.RING_CFG_EN) = true))
    ∧ (∃ (s : State) (v : W32), s.takesWrites = true ∧ (let n := s.rd Reg.RING_SEL_N; s.on (ringF n Reg.RING_CFG_EN) = false ∧ v.toNat.testBit 31 = true ∧ ((let k := bits v.toNat (Reg.RING_CFG_KIND.lsb % 32) Reg.RING_CFG_KIND.width; k = 4 ∨ k = 5 → s.ringOfKind k = none))))
    ∧ (∃ (s : State) (cause : Nat), s.modeNo ≠ 0 ∧ cause ≠ 1 ∧ s.wedged = false)
    ∧ (∃ (s : State) (cause : Nat), s.modeNo ≠ 0 ∧ cause ≠ 1 ∧ s.wedged = false) :=
  ⟨⟨(ringed 7), [(2, 0)], [], 1, 3, (1000000 + (ringed 7).rd Reg.HOST_DB_OFS), by unfold Plain; decide⟩,
   ⟨(ringed 7), [], [], 2, 5, (1000000 + (ringed 7).rd Reg.HOST_DB_OFS), by unfold Plain; decide⟩,
   ⟨(ringed 7), [], (1000000 + (ringed 7).rd Reg.HOST_DB_OFS), by unfold Plain; decide⟩,
   ⟨(ringed 7), [], (1000000 + (ringed 7).rd Reg.HOST_DB_OFS), by unfold Plain; decide⟩,
   ⟨(put [(Reg.RING_SEL_N, 1)] (ringed 7)), 5#32, by decide⟩,
   ⟨(inMode 7), 0x80000131#32, by decide⟩,
   ⟨(ringed 7), 2, by decide⟩,
   ⟨(ringed 7), 0, by decide⟩⟩
theorem wit_HostMessages :
    (∃ (s : State) (v n : Nat), s.host.modTimer.find? (fun p => p.1 == v) = some (v, n) ∧ s.running = true ∧ s.ns < n ∧ n < 2 ^ 64 ∧ s.wedged = false ∧ Plain s)
    ∧ (∃ (s : State) (v n : Nat), s.host.modTimer.find? (fun p => p.1 == v) = some (v, n) ∧ s.running = true ∧ s.ns < n ∧ n < 2 ^ 64 ∧ s.wedged = false ∧ Plain s)
    ∧ (∃ (s : State) (v : Nat), v < 64 ∧ s.takesWrites = true)
    ∧ (∃ (s : State) (v : Nat), v < 64 ∧ s.takesWrites = true)
    ∧ (∃ (s : State) (r n : Nat) (x : BitVec 128) (rest : List (BitVec 128)), s.ringOfKind 5 = some n ∧ (s.dsp r).trace = x :: rest ∧ s.ringFull n = false ∧ s.wedged = false) :=
  ⟨⟨(let s := inMode 7; { s with host := { s.host with modTimer := [(3, 1003001)], msixUnmasked := [3] } }), 3, 1003001, by unfold Plain; decide⟩,
   ⟨(let s := inMode 7; { s with host := { s.host with modTimer := [(3, 1003001)] } }), 3, 1003001, by unfold Plain; decide⟩,
   ⟨(let s := inMode 7; { s with host := { s.host with pba := 2 ^ 63 } }), 63, by decide⟩,
   ⟨(inMode 7), 63, by decide⟩,
   ⟨((put [(ringF 5 Reg.RING_CFG_EN, 1), (ringF 5 Reg.RING_CFG_KIND, 5), (ringF 5 Reg.RING_CFG_LOG2, 4)] (inMode 7)).modDisp 7 fun d => { d with trace := [9, 8] }), 7, 5, 9#128, [8#128], by decide⟩⟩
theorem wit_HostBlocks :
    (∃ (s : State) (c : HostCmd) (op : Nat), Starts c s ∧ op < 256 ∧ (op = 1 ∨ op ∉ opcodes))
    ∧ (∃ (s : State) (c : HostCmd) (op : Nat), Starts c s ∧ op < 256 ∧ (op = 1 ∨ op ∉ opcodes))
    ∧ (∃ (s : State) (c : HostCmd) (r ad : Nat) (l : List Byte), Starts c s ∧ r < s.dies ∧ ad % 4 = 0 ∧ l.length % 4 = 0 ∧ 4 ≤ l.length ∧ l.length ≤ 65536 ∧ ad + l.length ≤ 0x800000 ∧ ((∀ q ∈ paramWords ad l, s.wordRefused r q = false)))
    ∧ (∃ (s : State) (c : HostCmd) (r ad : Nat) (l : List Byte), Starts c s ∧ r < s.dies ∧ ad % 4 = 0 ∧ l.length % 4 = 0 ∧ 4 ≤ l.length ∧ l.length ≤ 65536 ∧ ad + l.length ≤ 0x800000 ∧ ((∀ q ∈ paramWords ad l, s.wordRefused r q = false)))
    ∧ (∃ (s : State) (c : HostCmd) (r ad : Nat) (l : List Byte), Starts c s ∧ r < s.dies ∧ ad % 4 = 0 ∧ l.length % 4 = 0 ∧ 4 ≤ l.length ∧ l.length ≤ 65536 ∧ ad + l.length ≤ 0x800000 ∧ ((∃ q ∈ paramWords ad l, s.wordRefused r q = true)))
    ∧ (∃ (s : State) (c : HostCmd) (r ad : Nat) (l : List Byte), Starts c s ∧ r < s.dies ∧ ad % 4 = 0 ∧ l.length % 4 = 0 ∧ 4 ≤ l.length ∧ l.length ≤ 65536 ∧ ad + l.length ≤ 0x800000)
    ∧ (∃ (s : State) (c : HostCmd) (r ad len : Nat), Starts c s ∧ r < s.dies ∧ ad % 4 = 0 ∧ ad + len ≤ 0xA00000)
    ∧ (∃ (s : State) (c : HostCmd) (r ad len : Nat), Starts c s ∧ r < s.dies ∧ ad % 4 = 0 ∧ ad + len ≤ 0xA00000)
    ∧ (∃ (s : State) (c : HostCmd) (r ad len : Nat), Starts c s ∧ r < s.dies ∧ ad % 4 = 0 ∧ 0xA00000 < ad + len) :=
  ⟨⟨(ringed 7), hc, 1, by unfold Starts; decide⟩,
   ⟨(ringed 7), hc, 255, by unfold Starts; decide⟩,
   ⟨(ringed 7), hc, 0, 0x40000, [1, 2, 3, 4, 5, 6, 7, 8], by unfold Starts; decide⟩,
   ⟨(ringed 7), hc, 7, 0x7FFFFC, [1, 2, 3, 4], by unfold Starts; decide⟩,
   ⟨((ringed 7).wr (rf 0 Rgn.RANK_BASE_BASE) 0x200000), hc, 0, 0x200000, [1, 2, 3, 4], by unfold Starts; decide⟩,
   ⟨(ringed 7), hc, 0, 0x40000, [1, 2, 3, 4], by unfold Starts; decide⟩,
   ⟨(ringed 7), hc, 0, 0x9FFFFC, 4, by unfold Starts; decide⟩,
   ⟨(ringed 7), hc, 0, 0x7FFFFC, 4, by unfold Starts; decide⟩,
   ⟨(ringed 7), hc, 0, 0x9FFFFC, 8, by unfold Starts; decide⟩⟩
theorem wit_HostCellCommands :
    (∃ (s : State) (c : HostCmd) (cell : Nat), ∃ (write : Bool) (addr : Nat) (v : W32), Starts c s ∧ (let r := idxRegion cell; (let u := idxTree cell; (let there := r < s.dies ∧ cell < 32768 ∧ idxSlot cell < s.slotsN r u; (let dead := s.treeState r u = 0 ∨ s.treeState r u = 1 ∨ s.treeState r u = 6; addr % 4 = 0 ∧ addr < 65536 ∧ there ∧ ¬ dead)))))
    ∧ (∃ (s : State) (c : HostCmd) (cell : Nat), ∃ (write : Bool) (addr : Nat) (v : W32), Starts c s ∧ (let r := idxRegion cell; (let u := idxTree cell; (let there := r < s.dies ∧ cell < 32768 ∧ idxSlot cell < s.slotsN r u; addr % 4 = 0 ∧ addr < 65536 ∧ ¬ there))))
    ∧ (∃ (s : State) (c : HostCmd) (cell : Nat), ∃ (write : Bool) (addr : Nat) (v : W32), Starts c s ∧ (let r := idxRegion cell; (let u := idxTree cell; (let there := r < s.dies ∧ cell < 32768 ∧ idxSlot cell < s.slotsN r u; (let dead := s.treeState r u = 0 ∨ s.treeState r u = 1 ∨ s.treeState r u = 6; addr % 4 = 0 ∧ addr < 65536 ∧ there ∧ dead)))))
    ∧ (∃ (s : State) (c : HostCmd) (cell : Nat), ∃ (write : Bool) (addr : Nat) (v : W32), Starts c s ∧ (let r := idxRegion cell; (let u := idxTree cell; (let there := r < s.dies ∧ cell < 32768 ∧ idxSlot cell < s.slotsN r u; (let dead := s.treeState r u = 0 ∨ s.treeState r u = 1 ∨ s.treeState r u = 6; addr % 4 = 0 ∧ addr < 65536 ∧ there ∧ dead)))))
    ∧ (∃ (s : State) (c : HostCmd) (cell : Nat), ∃ (addr len : Nat) (l : List Byte), Starts c s ∧ (let r := idxRegion cell; (let u := idxTree cell; (let there := r < s.dies ∧ cell < 32768 ∧ idxSlot cell < s.slotsN r u; (let dead := s.treeState r u = 0 ∨ s.treeState r u = 1 ∨ s.treeState r u = 6; 0 < len ∧ len ≤ 1024 ∧ l.length = len ∧ there ∧ ¬ dead)))))
    ∧ (∃ (s : State) (c : HostCmd) (cell : Nat), ∃ (addr len : Nat) (l : List Byte), Starts c s ∧ (let r := idxRegion cell; (let u := idxTree cell; (let there := r < s.dies ∧ cell < 32768 ∧ idxSlot cell < s.slotsN r u; (let dead := s.treeState r u = 0 ∨ s.treeState r u = 1 ∨ s.treeState r u = 6; 0 < len ∧ len ≤ 1024 ∧ l.length = len ∧ there ∧ dead)))))
    ∧ (∃ (s : State) (c : HostCmd) (cell : Nat), ∃ (addr len : Nat) (l : List Byte), Starts c s ∧ (let r := idxRegion cell; (let u := idxTree cell; (let there := r < s.dies ∧ cell < 32768 ∧ idxSlot cell < s.slotsN r u; 0 < len ∧ len ≤ 1024 ∧ l.length = len ∧ ¬ there))))
    ∧ (∃ (s : State) (c : HostCmd) (cell : Nat), ∃ (addr len : Nat) (l : List Byte), Starts c s ∧ (let r := idxRegion cell; (let u := idxTree cell; 0 < len ∧ len ≤ 1024 ∧ l.length = len))) :=
  ⟨⟨(ringed 7), hc, 15, true, 0xFFFC, 5#32, by unfold Starts; decide⟩,
   ⟨(ringed 7), hc, 16, true, 0xFFFC, 5#32, by unfold Starts; decide⟩,
   ⟨((ringed 7).wr (tf 0 0 Tree.TREE_CFG_STATE) 6), hc, 15, false, 0, 5#32, by unfold Starts; decide⟩,
   ⟨((ringed 7).wr (tf 0 0 Tree.TREE_CFG_STATE) 1), hc, 15, false, 0, 5#32, by unfold Starts; decide⟩,
   ⟨(ringed 7), hc, 15, 0x10000, 2, [1, 2], by unfold Starts; decide⟩,
   ⟨((ringed 7).wr (tf 0 0 Tree.TREE_CFG_STATE) 6), hc, 15, 0x10000, 2, [1, 2], by unfold Starts; decide⟩,
   ⟨(ringed 7), hc, 16, 0x10000, 2, [1, 2], by unfold Starts; decide⟩,
   ⟨(ringed 7), hc, 15, 0x10000, 2, [1, 2], by unfold Starts; decide⟩⟩
theorem wit_ImageLoading :
    (∃ (s : State) (c : HostCmd) (i : Image), Starts c s ∧ s.trusts i = true ∧ s.imageShape i = true ∧ s.polesOk i = true ∧ s.modeNo = 1)
    ∧ (∃ (s : State) (c : HostCmd) (i : Image), Starts c s ∧ s.trusts i = true ∧ s.imageShape i = true ∧ s.polesOk i = true ∧ s.modeNo ≠ 1)
    ∧ (∃ (s : State) (c : HostCmd) (i : Image), Starts c s ∧ (s.trusts i = false ∨ s.imageShape i = false))
    ∧ (∃ (s : State) (c : HostCmd) (i : Image), Starts c s ∧ s.trusts i = true ∧ s.imageShape i = true ∧ s.polesOk i = false)
    ∧ (∃ (s : State) (c : HostCmd), Starts c s) :=
  ⟨⟨(owned (ringed 1)), hc, {}, by unfold Starts; decide⟩,
   ⟨(owned (ringed 7)), hc, {}, by unfold Starts; decide⟩,
   ⟨(ringed 7), hc, {}, by unfold Starts; decide⟩,
   ⟨loopAt, hc, biqImage, by unfold Starts; decide⟩,
   ⟨(ringed 7), hc, by unfold Starts; decide⟩⟩
theorem wit_StationPorts :
    (∃ (s : State) (c : HostCmd) (p : Nat) (l : List Byte) (late : Bool) (ts : TxStamp), Starts c s ∧ p < 2 ∧ 64 ≤ l.length ∧ l.length ≤ 1522)
    ∧ (∃ (s : State) (c : HostCmd) (p : Nat) (l : List Byte) (late : Bool) (ts : TxStamp), Starts c s ∧ p < 2 ∧ 64 ≤ l.length ∧ l.length ≤ 1522)
    ∧ (∃ (s : State) (c : HostCmd) (p : Nat) (l : List Byte) (late : Bool) (ts : TxStamp), Starts c s ∧ p < 2 ∧ 64 ≤ l.length ∧ l.length ≤ 1522)
    ∧ (∃ (s : State) (c : HostCmd) (p : Nat) (l : List Byte) (late : Bool) (ts : TxStamp), Starts c s ∧ p < 2 ∧ 64 ≤ l.length ∧ l.length ≤ 1522)
    ∧ (∃ (s : State) (c : HostCmd) (p : Nat) (l : List Byte) (late : Bool) (ts : TxStamp), Starts c s ∧ p < 2 ∧ 64 ≤ l.length ∧ l.length ≤ 1522)
    ∧ (∃ (s : State) (c : HostCmd) (p : Nat) (l : List Byte) (late : Bool) (ts : TxStamp), Starts c s ∧ p < 2 ∧ 64 ≤ l.length ∧ l.length ≤ 1522)
    ∧ (∃ (s : State) (p d : Nat) (x : TxFrame), nextTimed (s.txQueue p) = some x ∧ x.launch = some d ∧ (let cpl := s.rd (ringF x.cmd.ring Reg.RING_CFG_CPL); s.wedged = false ∧ s.ringFull cpl = false ∧ quarters s.time.ctr ≤ s.ballAt p d ∧ fget 0 s.stn.busy p ≤ s.ballAt p d))
    ∧ (∃ (s : State) (p d : Nat) (x : TxFrame), nextTimed (s.txQueue p) = some x ∧ x.launch = some d ∧ (let cpl := s.rd (ringF x.cmd.ring Reg.RING_CFG_CPL); s.wedged = false ∧ s.ringFull cpl = false ∧ quarters s.time.ctr ≤ s.ballAt p d ∧ fget 0 s.stn.busy p ≤ s.ballAt p d))
    ∧ (∃ (s : State) (p : Nat) (x : TxFrame), (s.txQueue p).find? (fun y => y.launch.isNone) = some x ∧ (let m := s.runToQ (fget 0 s.stn.busy p); (let cpl := s.rd (ringF x.cmd.ring Reg.RING_CFG_CPL); s.wedged = false ∧ s.ringFull cpl = false ∧ m.holdsBack p (quarters m.time.ctr) x.frame.length = false)))
    ∧ (∃ (s : State) (p q n : Nat) (frame : List Byte) (sub mine : Bool), (let m := s.runBy q; p < 2 ∧ m.wedged = false ∧ ((m.ringsOfKind 6).find? fun k => m.rd (ringF k Reg.RING_CFG_PORT) == p) = some n ∧ (frameClass frame = 0 ∨ (sub = true ∧ frameClass frame ≠ 3) ∨ (mine = true ∧ m.on Reg.RX_CFG_OTHER = true))))
    ∧ (∃ (s : State) (p q : Nat) (frame : List Byte) (mine : Bool), p < 2 ∧ frameClass frame ≠ 0 ∧ (mine = false ∨ (s.runBy q).on Reg.RX_CFG_OTHER = false))
    ∧ (∃ (s : State) (p q : Nat) (frame : List Byte) (mine : Bool), p < 2 ∧ frameClass frame ≠ 0 ∧ (mine = false ∨ (s.runBy q).on Reg.RX_CFG_OTHER = false))
    ∧ (∃ (s : State) (p q : Nat) (frame : List Byte) (sub mine : Bool), p < 2) :=
  ⟨⟨(ringed 7), hc, 1, (eth 0x800 0), false, ⟨true, true⟩, by unfold Starts; decide⟩,
   ⟨(ringed 7), hc, 1, (eth 0x88F7 0), false, ⟨true, true⟩, by unfold Starts; decide⟩,
   ⟨(sending (List.replicate 8 ⟨hc, eth 0x88B8 0, some 2000000, false, false, false⟩)), hc, 1, (eth 0x88B8 0), false, ⟨false, true⟩, by unfold Starts; decide⟩,
   ⟨(ringed 7), hc, 1, (eth 0x88F7 0), false, ⟨true, true⟩, by unfold Starts; decide⟩,
   ⟨(ringed 7), hc, 1, (eth 0x800 0), false, ⟨true, true⟩, by unfold Starts; decide⟩,
   ⟨(ringed 7), hc, 1, (eth 0x800 0), false, ⟨true, true⟩, by unfold Starts; decide⟩,
   ⟨(sending [⟨hc, eth 0x88F7 0, some 2000000, false, true, true⟩]), 1, 2000000, ⟨hc, eth 0x88F7 0, some 2000000, false, true, true⟩, by decide⟩,
   ⟨(sending [⟨hc, eth 0x88B8 0, some 2000000, false, false, true⟩]), 1, 2000000, ⟨hc, eth 0x88B8 0, some 2000000, false, false, true⟩, by decide⟩,
   ⟨(sending [⟨hc, eth 0x800 0, none, false, false, true⟩]), 1, ⟨hc, eth 0x800 0, none, false, false, true⟩, by decide⟩,
   ⟨(put [(ringF 5 Reg.RING_CFG_EN, 1), (ringF 5 Reg.RING_CFG_KIND, 6), (ringF 5 Reg.RING_CFG_LOG2, 4), (ringF 5 Reg.RING_CFG_PORT, 1)] (inMode 7)), 1, 7, 5, (eth 0x88F7 2), true, false, by decide⟩,
   ⟨(inMode 7), 1, 7, (eth 0x800 2), true, by decide⟩,
   ⟨(put [(Reg.RX_CFG_OTHER, 1)] (inMode 7)), 1, 7, (eth 0x88B8 2), false, by decide⟩,
   ⟨(inMode 7), 1, 7, (eth 0x800 2), true, false, by decide⟩⟩
theorem wit_CommandDeadlines :
    (∃ (s : State) (c : Nat) (pos neg : Bool), ∃ b, (let x := s.cell c; (let k := x.time.pn + 1; x.hasEpochs = true ∧ x.time.decided ≠ some k ∧ x.staged = none ∧ x.healthyFor k = some b ∧ x.claimFor k 0 = none ∧ x.claimFor k 1 = none ∧ b.void = false)))
    ∧ (∃ (s : State) (c : Nat) (pos neg : Bool), (let x := s.cell c; (let k := x.time.pn + 1; (let Silent : Prop := ∀ p, p < 2 → (x.port p).inTime k = none; x.hasEpochs = true ∧ x.time.decided ≠ some k ∧ x.staged = none ∧ Silent ∧ x.owner < 2 ∧ x.auth.miss + 1 < x.rd Els.AUTH_CFG_LEASE_PERIODS ∧ x.auth.expired = false ∧ x.auth.holdN + 1 ≤ x.rd Els.AUTH_CFG_HOLD_LIMIT))))
    ∧ (∃ (s : State) (c : Nat) (pos neg : Bool), (let x := s.cell c; (let k := x.time.pn + 1; (let Silent : Prop := ∀ p, p < 2 → (x.port p).inTime k = none; x.hasEpochs = true ∧ x.time.decided ≠ some k ∧ x.staged = none ∧ Silent ∧ x.owner < 2 ∧ x.auth.miss + 1 < x.rd Els.AUTH_CFG_LEASE_PERIODS ∧ x.auth.expired = false ∧ x.rd Els.AUTH_CFG_HOLD_LIMIT < x.auth.holdN + 1))))
    ∧ (∃ (s : State) (c : Nat) (pos neg : Bool), (let x := s.cell c; (let k := x.time.pn + 1; (let Silent : Prop := ∀ p, p < 2 → (x.port p).inTime k = none; x.hasEpochs = true ∧ x.time.decided ≠ some k ∧ x.staged = none ∧ Silent ∧ x.owner < 2 ∧ x.rd Els.AUTH_CFG_LEASE_PERIODS ≤ x.auth.miss + 1))))
    ∧ (∃ (s : State) (c : Nat) (pos neg : Bool), ∃ p b, (let x := s.cell c; (let k := x.time.pn + 1; x.hasEpochs = true ∧ x.time.decided ≠ some k ∧ x.staged = none ∧ 2 ≤ x.owner ∧ p < 2 ∧ pickClaim (x.claimFor k 0) (x.claimFor k 1) = some (p, b)))) :=
  ⟨⟨(withCell 3 fun x => { x with ports := [(0, beaconFor 0 ⟨3, false, 100, 0⟩)] }), 0, true, false, { hdr := { pn := 101 }, cmd := ⟨3, false, 100, 0⟩ }, by decide⟩,
   ⟨(cellIn 3), 0, false, false, by decide⟩,
   ⟨(withCell 3 fun x => { x with auth := { x.auth with holdN := 1000 } }), 0, false, true, by decide⟩,
   ⟨(withCell 3 fun x => { x with auth := { x.auth with miss := 1000 } }), 0, false, true, by decide⟩,
   ⟨(withCell 3 fun x => cput' [(Els.AUTH_STAT_OWNER, 2)] { x with ports := [(0, beaconFor 4 ⟨3, false, 1, 0⟩), (1, beaconFor 5 ⟨3, false, 2, 0⟩)] }), 0, false, false, 1, { hdr := { pn := 101, authEpoch := 5 }, cmd := ⟨3, false, 2, 0⟩ }, by decide⟩⟩
theorem wit_CellEpochs :
    (∃ (s : State) (c : Nat), ∃ r, (let x := s.cell c; x.hasEpochs = true ∧ x.time.decided = some (x.time.pn + 1) ∧ x.staged = none ∧ x.time.revertPn = none ∧ x.time.announced = none ∧ x.time.stepDue = none ∧ x.time.thawPn = none ∧ ((∀ p, p < 2 → (x.port p).newDelay = none)) ∧ x.sw.stateNext = none ∧ x.rank1 = false ∧ x.time.clock ≤ s.cellNext c ∧ x.sw.next = some r ∧ r.cmd ≠ 7))
    ∧ (∃ (s : State) (c : Nat), ∃ r, (let x := s.cell c; x.hasEpochs = true ∧ x.time.decided = some (x.time.pn + 1) ∧ x.staged = none ∧ x.time.revertPn = none ∧ x.time.announced = none ∧ x.time.stepDue = none ∧ x.time.thawPn = none ∧ ((∀ p, p < 2 → (x.port p).newDelay = none)) ∧ x.sw.stateNext = none ∧ x.rank1 = false ∧ x.time.clock ≤ s.cellNext c ∧ x.sw.next = some r ∧ r.cmd = 7 ∧ r.edge = 0))
    ∧ (∃ (s : State) (c : Nat), (let x := s.cell c; x.hasEpochs = true ∧ x.time.decided = some (x.time.pn + 1) ∧ x.staged = none ∧ x.time.revertPn = none ∧ x.time.announced = none ∧ x.time.stepDue = none ∧ x.time.thawPn = none ∧ ((∀ p, p < 2 → (x.port p).newDelay = none)) ∧ x.sw.stateNext = none ∧ x.rank1 = false ∧ x.time.clock ≤ s.cellNext c ∧ x.sw.next = none ∧ x.auth.expired = false ∧ x.auth.expireDue = false ∧ x.sw.isoAt = none))
    ∧ (∃ (s : State) (c : Nat), (let x := s.cell c; x.hasEpochs = true ∧ x.time.decided = some (x.time.pn + 1) ∧ x.staged = none ∧ x.time.revertPn = none ∧ x.time.announced = none ∧ x.time.stepDue = none ∧ x.time.thawPn = none ∧ ((∀ p, p < 2 → (x.port p).newDelay = none)) ∧ x.sw.stateNext = none ∧ x.rank1 = false ∧ x.time.clock ≤ s.cellNext c ∧ x.sw.next = none ∧ x.auth.expired = false ∧ x.auth.expireDue = true))
    ∧ (∃ (s : State) (c : Nat) (k : CellSet), (s.cell c).staged = some k ∧ (s.cell c).hasEpochs = true ∧ k.applyPn = some (s.cell c).time.pn ∧ k.entries = [])
    ∧ (∃ (s : State) (c : Nat) (k : CellSet) (e : SetEntry), (s.cell c).staged = some k ∧ (s.cell c).hasEpochs = true ∧ k.applyPn = some (s.cell c).time.pn ∧ k.entries = [e] ∧ e.die = false)
    ∧ (∃ (s : State) (c : Nat) (k : CellSet), (s.cell c).staged = some k)
    ∧ (∃ (s : State) (c : Nat) (k : CellSet), (s.cell c).staged = some k) :=
  ⟨⟨(decided (some ⟨3, false, 100, 0⟩)), 0, ⟨3,false,100,0⟩, by decide⟩,
   ⟨(decided (some ⟨7, false, 0, 0⟩)), 0, ⟨7,false,0,0⟩, by decide⟩,
   ⟨(decided none), 0, by decide⟩,
   ⟨(let s := decided none; s.modAuth 0 fun y => { y with expireDue := true }), 0, by decide⟩,
   ⟨(withCell 3 fun x => { x with staged := some ⟨5, 100, [], some 100⟩ }), 0, ⟨5,100,[],some 100⟩, by decide⟩,
   ⟨(withCell 3 fun x => { x with staged := some ⟨5, 100, [⟨false, 0, 0x20C, 0xFFFFFFFF, 9⟩], some 100⟩ }), 0, ⟨5,100,[⟨false,0,0x20C,0xFFFFFFFF,9⟩],some 100⟩, ⟨false,0,0x20C,0xFFFFFFFF,9⟩, by decide⟩,
   ⟨(withCell 3 fun x => { x with staged := some ⟨5, 84, [], none⟩ }), 0, ⟨5,84,[],none⟩, by decide⟩,
   ⟨(withCell 3 fun x => { x with staged := some ⟨5, 85, [], none⟩ }), 0, ⟨5,85,[],none⟩, by decide⟩⟩
theorem wit_GateEdges :
    (∃ (s : State) (c g : Nat) (e : Edge) (rest : List Edge), (let x := s.cell c; g < 2 ∧ (x.pair g).plan = e :: rest ∧ x.runs = true ∧ x.rank1 = false ∧ x.sw.isoAt = none ∧ x.time.clock ≤ e.t))
    ∧ (∃ (s : State) (c g : Nat) (e : Edge) (rest : List Edge), (let x := s.cell c; g < 2 ∧ (x.pair g).plan = e :: rest ∧ x.runs = true ∧ x.rank1 = false ∧ x.sw.isoAt = none ∧ x.time.clock ≤ e.t))
    ∧ (∃ (s : State) (c g n : Nat), (let x := s.cell c; g < 2 ∧ x.sw.isoAt = some n ∧ ((∀ e ∈ (x.pair g).plan, n ≤ e.t)) ∧ x.runs = true ∧ x.rank1 = false ∧ x.time.clock ≤ n))
    ∧ (∃ (s : State) (c g p n : Nat), (let x := s.cell c; g < 2 ∧ (x.pair g).wait = some (p, n) ∧ ((∀ e ∈ (x.pair g).plan, n < e.t)) ∧ x.runs = true ∧ x.rank1 = false ∧ x.sec.extest = false ∧ x.time.clock ≤ n)) :=
  ⟨⟨(withCell 3 fun x => { x with sw := { x.sw with gates := [(1, true)], pairs := [(0, { st := 2, plan := [⟨4 * 1003000, 1, 0⟩] })] } }), 0, 0, ⟨4*1003000,1,0⟩, [], by decide⟩,
   ⟨(withCell 3 fun x => { x with sw := { x.sw with pairs := [(1, { st := 1, plan := [⟨4 * 1003000 + 3, 2, 0⟩], wait := some (2, 4 * 1003000 + 9) })] } }), 0, 1, ⟨4*1003000+3,2,0⟩, [], by decide⟩,
   ⟨(withCell 3 fun x => { x with sw := { x.sw with gates := [(1, true)], isoAt := some (4 * 1003000) } }), 0, 0, (4*1003000), by decide⟩,
   ⟨(withCell 3 fun x => { x with sw := { x.sw with pairs := [(1, { st := 1, wait := some (2, 4 * 1003000) })] } }), 0, 1, 2, (4*1003000), by decide⟩⟩
theorem wit_CarrierAndFeedback :
    (∃ (s : State) (c g : Nat), (let x := s.cell c; x.runs = true ∧ g < 2 ∧ s.peakAt c < s.nextValley c))
    ∧ (∃ (s : State) (c g : Nat), (let x := s.cell c; x.runs = true ∧ g < 2 ∧ s.peakAt c < s.nextValley c))
    ∧ (∃ (s : State) (c g : Nat), s.nextValley c ≤ s.peakAt c)
    ∧ (∃ (s : State) (c : Nat), (let x := s.cell c; x.runs = true))
    ∧ (∃ (s : State) (c p : Nat) (on : Bool), (let x := s.cell c; x.up = true ∧ fhas x.sw.edgeAt p = true))
    ∧ (∃ (s : State) (c p : Nat) (on : Bool), (let x := s.cell c; x.up = true ∧ fhas x.sw.edgeAt p = true))
    ∧ (∃ (s : State) (c p q : Nat), (let x := s.cell c; x.runs = true)) :=
  ⟨⟨(cellIn 6), 0, 0, by decide⟩,
   ⟨(withCell 6 fun x => { x with sw := { x.sw with valleyAt := 4012100, cmd := ⟨8, false, 0, 0⟩ } }), 0, 0, by decide⟩,
   ⟨(withCell 6 fun x => { x with sw := { x.sw with valleyAt := 4039990 } }), 0, 0, by decide⟩,
   ⟨(withCell 3 fun x => { x with sw := { x.sw with cmd := ⟨3, false, 100, 0⟩ } }), 0, by decide⟩,
   ⟨(withCell 3 fun x => { x with sw := { x.sw with edgeAt := [(2, 4 * 1003000)] } }), 0, 2, true, by decide⟩,
   ⟨(withCell 3 fun x => { x with sw := { x.sw with gates := [(2, true)], edgeAt := [(2, 4 * 1003000)] } }), 0, 2, false, by decide⟩,
   ⟨(withCell 3 fun x => { x with sw := { x.sw with edgeAt := [(2, 1)] } }), 0, 2, 5, by decide⟩⟩
theorem wit_DebugHalt :
    (∃ (s : State) (c : Nat), (let x := s.cell c; x.maint = true))
    ∧ (∃ (s : State) (c : Nat), (let x := s.cell c; x.maint = false))
    ∧ (∃ (s : State) (c len : Nat), (let x := s.cell c; x.halted = true ∧ x.up = true ∧ x.prot.loss < 3))
    ∧ (∃ (s : State) (c len : Nat), (let x := s.cell c; x.halted = true ∧ x.up = true ∧ x.prot.loss < 3)) :=
  ⟨⟨(cellIn 6), 0, by decide⟩,
   ⟨(cellIn 3), 0, by decide⟩,
   ⟨(withCell 6 fun x => cput' [(Els.DBG_STAT_HALTED, 1)] { x with sw := { x.sw with gates := [(1, true)], pairs := [(0, { st := 2, plan := [⟨4 * 1003000, 1, 0⟩] })] } }), 0, 9, by decide⟩,
   ⟨(withCell 6 fun x => cput' [(Els.DBG_STAT_HALTED, 1)] { x with sw := { x.sw with gates := [(1, true)], isoAt := some (4 * 1003000 + 5) } }), 0, 9, by decide⟩⟩
theorem wit_CellReports :
    (∃ (s : State) (c p k l : Nat) (late : Bool), (let x := s.cell c; p < 2 ∧ s.slotDue c p = some (k, l) ∧ x.sends p (l + x.rd (pf p Port.EQ_EQ)) = true ∧ x.st ≠ 5))
    ∧ (∃ (s : State) (c p k l : Nat) (late : Bool), (let x := s.cell c; p < 2 ∧ s.slotDue c p = some (k, l) ∧ x.sends p (l + x.rd (pf p Port.EQ_EQ)) = true ∧ x.st ≠ 5))
    ∧ (∃ (s : State) (c m p w : Nat) (next : Bool), (let x := s.cell c; (let n := w + 72 - x.rd (pf p Port.EQ_EQ); p < 2 ∧ s.windowAt c m next = some w ∧ x.sends p w = true ∧ ((if x.st = 5 then x.glim.woken = true ∧ 0 < x.glim.windows else x.flt.class0 = true ∧ x.flt.class0At + 160 ≤ n)))))
    ∧ (∃ (s : State) (c m p w : Nat) (next : Bool), (let x := s.cell c; (let n := w + 72 - x.rd (pf p Port.EQ_EQ); p < 2 ∧ s.windowAt c m next = some w ∧ x.sends p w = true ∧ ((if x.st = 5 then x.glim.woken = true ∧ 0 < x.glim.windows else x.flt.class0 = true ∧ x.flt.class0At + 160 ≤ n))))) :=
  ⟨⟨(one (slotted 3)), 0, 0, 100, 4001596, true, by decide⟩,
   ⟨(let s := one (slotted 3); s.modTime 0 fun y => { y with pn := 101, epochAt := 4 * 1010000 - 30000, clock := 4 * 1002600 }), 0, 0, 101, 4011596, true, by decide⟩,
   ⟨(one { slotted 3 with flt := { class0 := true, class0At := 0 } }), 0, 1, 0, (4 * 1001250), false, by decide⟩,
   ⟨(one { slotted 5 with glim := { woken := true, windows := 1, gridAt := 4 * 1000000 } }), 0, 7, 0, (4 * 1000000 + 80000 + 35000), false, by decide⟩⟩
theorem wit_CellSilence :
    (∃ (s : State) (c n : Nat), (let x := s.cell c; (let due := n + 4000000 * x.rd Els.AUTH_CFG_ORPHAN_TX + 160; x.time.lastRx = some n ∧ x.runs = true ∧ x.time.clock ≤ due)))
    ∧ (∃ (s : State) (c : Nat), (let x := s.cell c; x.st = 5 ∧ x.owner < 2 ∧ x.runs = true ∧ x.time.clock ≤ x.glim.ownerAt + 12000160))
    ∧ (∃ (s : State) (c p : Nat) (fault : Bool), (let x := s.cell c; x.up = true ∧ p < 2))
    ∧ (∃ (s : State) (c p : Nat) (fault : Bool), (let x := s.cell c; x.up = true ∧ p < 2)) :=
  ⟨⟨(withCell 3 fun x => { x with time := { x.time with lastRx := some (4 * 1003000) } }), 0, (4*1003000), by decide⟩,
   ⟨(withCell 5 fun x => { x with glim := { ownerAt := 4 * 1003000 } }), 0, by decide⟩,
   ⟨(cellIn 3), 0, 1, true, by decide⟩,
   ⟨(withCell 3 fun x => { x with ports := [(1, { missN := 1000 })] }), 0, 1, false, by decide⟩⟩
theorem wit_PrimaryResults :
    (∃ (s : State) (c late raw : Nat) (ovl bad : Bool), (let x := s.cell c; (let r := x.codeOf raw ovl; (let tag := x.cvTag r.2 bad; x.runs = true ∧ x.st ≠ 5 ∧ x.cv.cal = none))))
    ∧ (∃ (s : State) (c late raw : Nat) (ovl bad : Bool), (let x := s.cell c; (let r := x.codeOf raw ovl; (let tag := x.cvTag r.2 bad; x.runs = true ∧ x.st ≠ 5 ∧ x.cv.cal = none))))
    ∧ (∃ (s : State) (c late raw : Nat) (ovl bad : Bool), ∃ k, ∃ z g, (let x := s.cell c; (let r := x.codeOf raw ovl; (let tag := x.cvTag r.2 bad; x.runs = true ∧ x.st ≠ 5 ∧ x.cv.cal = some k ∧ k.phase = 4 ∧ k.n + 1 = 2 ^ x.rd Els.CV_CAL_NAVG ∧ k.start < x.cvNext ∧ (let res := calResult k.z (k.f + x.raw raw) (2 ^ x.rd Els.CV_CAL_NAVG) (x.rd Els.CV_CAL_OLIM) (x.rd Els.CV_CAL_GLIM); res = some (z, g))))))
    ∧ (∃ (s : State) (c late raw : Nat) (ovl bad : Bool), ∃ k, (let x := s.cell c; (let r := x.codeOf raw ovl; (let tag := x.cvTag r.2 bad; x.runs = true ∧ x.st ≠ 5 ∧ x.cv.cal = some k ∧ k.phase = 4 ∧ k.n + 1 = 2 ^ x.rd Els.CV_CAL_NAVG ∧ k.start < x.cvNext ∧ (let res := calResult k.z (k.f + x.raw raw) (2 ^ x.rd Els.CV_CAL_NAVG) (x.rd Els.CV_CAL_OLIM) (x.rd Els.CV_CAL_GLIM); res = none)))))
    ∧ (∃ (s : State) (c : Nat) (limits : Bool), (let x := s.cell c; (let due := x.cv.doneAt + 2 * x.cvStep; x.runs = true ∧ x.st ≠ 5 ∧ (limits = true ∨ x.time.clock ≤ due))))
    ∧ (∃ (s : State) (c : Nat) (limits : Bool), (let x := s.cell c; (let due := x.cv.doneAt + 2 * x.cvStep; x.runs = true ∧ x.st ≠ 5 ∧ (limits = true ∨ x.time.clock ≤ due)))) :=
  ⟨⟨(withCell 3 fun x => { x with cv := { x.cv with settle := 0 } }), 0, 5, 70000, false, false, by decide⟩,
   ⟨(withCell 6 fun x => cput' [(Els.CV_FILT_HOLD, 1)] { x with cv := { x.cv with settle := 0, unread := true } }), 0, 5, 70000, true, true, by decide⟩,
   ⟨(withCell 3 fun x => cput' [(Els.CV_CAL_NAVG, 2)] { x with cv := { x.cv with settle := 0, cal := some { phase := 4, n := 3, z := 400, f := 589824 } } }), 0, 5, 196600, false, false, { phase := 4, n := 3, z := 400, f := 589824 }, 1600, 4196481, by decide⟩,
   ⟨(withCell 3 fun x => cput' [(Els.CV_CAL_NAVG, 2)] { x with cv := { x.cv with settle := 0, cal := some { phase := 4, n := 3, z := 99000, f := 589824 } } }), 0, 5, 196600, false, false, { phase := 4, n := 3, z := 99000, f := 589824 }, by decide⟩,
   ⟨(withCell 3 fun x => { x with cv := { x.cv with doneAt := 4 * 1003000 } }), 0, false, by decide⟩,
   ⟨(cellIn 3), 0, true, by decide⟩⟩
theorem wit_AuxiliaryConverter :
    (∃ (s : State) (c code ch n : Nat) (urg ok : Bool), (let x := s.cell c; x.aux.run = some (ch, urg, n) ∧ x.aux.dueAt = none ∧ x.aux.after = false ∧ x.runs = true ∧ x.time.clock ≤ n + 4000))
    ∧ (∃ (s : State) (c code ch n : Nat) (urg ok : Bool), (let x := s.cell c; x.aux.run = some (ch, urg, n) ∧ x.aux.dueAt = none ∧ x.aux.after = false ∧ x.runs = true ∧ x.time.clock ≤ n + 4000))
    ∧ (∃ (s : State) (c : Nat), ∃ ch rest, (let x := s.cell c; x.rd Els.AUX_SCAN_TRIG = 0 ∧ x.aux.scan = false ∧ x.aux.run = none ∧ x.aux.urg = [] ∧ x.aux.back = none ∧ scanOf (x.rd Els.AUX_SCAN_MASK) = ch :: rest))
    ∧ (∃ (s : State) (c : Nat), (let x := s.cell c; x.rd Els.AUX_SCAN_TRIG = 0 ∧ x.aux.scan = true ∧ x.aux.pend = false ∧ x.aux.endsIn (x.time.clock / 8) = false))
    ∧ (∃ (s : State) (c : Nat), (let x := s.cell c; x.rd Els.AUX_SCAN_TRIG = 0 ∧ x.aux.scan = true ∧ x.aux.pend = true ∧ x.aux.endsIn (x.time.clock / 8) = false))
    ∧ (∃ (s : State) (c ch : Nat) (rest : List Nat), (let x := s.cell c; x.rd Els.AUX_SCAN_TRIG = 2 ∧ x.runs = true ∧ x.aux.scan = false ∧ x.aux.run = none ∧ x.aux.urg = [] ∧ x.aux.back = none ∧ scanOf (x.rd Els.AUX_SCAN_MASK) = ch :: rest))
    ∧ (∃ (s : State) (c e : Nat), (let x := s.cell c; x.up = true ∧ e < 3 ∧ (x.rd Els.AUX_URG_SRC).testBit e = true ∧ (x.aux.urg.any fun p => p.1 == e) = false ∧ x.aux.dueAt = none))
    ∧ (∃ (s : State) (c e : Nat), (let x := s.cell c; x.up = true ∧ e < 3 ∧ (x.rd Els.AUX_URG_SRC).testBit e = true ∧ (x.aux.urg.any fun p => p.1 == e) = false ∧ x.aux.dueAt = none))
    ∧ (∃ (s : State) (c : Nat), (let x := s.cell c; x.aux.unread = true ∧ x.rd Els.AUX_RES_CHAN < 32 ∧ x.seqReads = true))
    ∧ (∃ (s : State) (c : Nat), (let x := s.cell c; x.aux.unread = true ∧ x.rd Els.AUX_RES_CHAN < 32 ∧ x.seqReads = false ∧ x.on Els.AUX_CFG_DIRECT = true))
    ∧ (∃ (s : State) (c : Nat), (let x := s.cell c; x.rd Els.AUX_SCAN_TRIG = 0 ∧ x.aux.scan = true ∧ x.aux.endsIn (x.time.clock / 8) = true ∧ x.aux.after = false)) :=
  ⟨⟨(withCell 3 fun x => { x with aux := { run := some (31, false, 4 * 1003000) } }), 0, 4095, 31, (4*1003000), false, true, by decide⟩,
   ⟨(withCell 3 fun x => cput' [(Els.AUX_CFG_DIRECT, 1)] { x with aux := { unread := true, run := some (31, true, 4 * 1003000) } }), 0, 4095, 31, (4*1003000), true, true, by decide⟩,
   ⟨(withCell 3 (cput' [(Els.AUX_SCAN_MASK, 0x80000008), (Els.AUX_SCAN_TRIG, 0)])), 0, 3, [31], by decide⟩,
   ⟨(withCell 3 fun x => cput' [(Els.AUX_SCAN_TRIG, 0)] { x with aux := { scan := true } }), 0, by decide⟩,
   ⟨(withCell 3 fun x => cput' [(Els.AUX_SCAN_TRIG, 0)] { x with aux := { scan := true, pend := true } }), 0, by decide⟩,
   ⟨(withCell 3 (cput' [(Els.AUX_SCAN_MASK, 0x80000008), (Els.AUX_SCAN_TRIG, 2)])), 0, 3, [31], by decide⟩,
   ⟨(withCell 3 fun x => cput' [(Els.AUX_URG_SRC, 7)] { x with aux := { run := some (4, false, 4) } }), 0, 2, by decide⟩,
   ⟨(withCell 3 fun x => cput' [(Els.AUX_URG_SRC, 7)] { x with aux := { run := some (4, true, 4) } }), 0, 0, by decide⟩,
   ⟨(withCell 3 fun x => cput' [(Els.AUX_RES_CHAN, 31), (Els.AUX_RES_CODE, 4095)] { x with aux := { unread := true } }), 0, by decide⟩,
   ⟨(withCell 3 fun x => cput' [(Els.AUX_CFG_DIRECT, 1)] { x with aux := { unread := true } }), 0, by decide⟩,
   ⟨(withCell 3 fun x => cput' [(Els.AUX_SCAN_TRIG, 0)] { x with aux := { scan := true, run := some (31, false, 4008000) } }), 0, by decide⟩⟩
theorem wit_GlimmerSamples :
    (∃ (s : State) (c : Nat) (l : List (Nat × Bool)), (let x := s.cell c; x.st = 5 ∧ x.runs = true ∧ ((∀ p ∈ l.take 8, Inside x p))))
    ∧ (∃ (s : State) (c : Nat) (l : List (Nat × Bool)), ∃ a p b, (let x := s.cell c; x.st = 5 ∧ x.runs = true ∧ l.take 8 = a ++ p :: b ∧ ((∀ q ∈ a, Inside x q)) ∧ ¬ Inside x p)) :=
  ⟨⟨(withCell 5 (cput' [(Els.GLIM_CFG_LO, 0), (Els.GLIM_CFG_HI, 100000)])), 0, [(70000, false), (100000, false)], by simp only [Inside]; decide⟩,
   ⟨(withCell 5 (cput' [(Els.GLIM_CFG_LO, 0), (Els.GLIM_CFG_HI, 100000)])), 0, [(70000, false), (100001, false)], [(70000, false)], (100001, false), [], by simp only [Inside]; decide⟩⟩
theorem wit_ManagementAccess :
    (∃ (s : State) (c p : Nat) (ad : Bool) (tx : OpenTx) (l : List RegOp), (let x := s.cell c; p < 2 ∧ x.request p 1 = some (ad, tx) ∧ x.portFirst (1 - p) = false ∧ x.runs = true ∧ opsOf 11 0 tx.payload = .ok l ∧ l ≠ [] ∧ l.length ≤ 10 ∧ accessError (x.fromOwner p) l = none))
    ∧ (∃ (s : State) (c p : Nat) (ad : Bool) (tx : OpenTx) (l : List RegOp), ∃ o, (let x := s.cell c; p < 2 ∧ x.request p 1 = some (ad, tx) ∧ x.portFirst (1 - p) = false ∧ x.runs = true ∧ opsOf 11 0 tx.payload = .ok l ∧ l ≠ [] ∧ l.length ≤ 10 ∧ l = [o] ∧ accessError (x.fromOwner p) l = none ∧ o.write = false ∧ elsMulti o.addr = none ∧ o.addr ≠ 0x42C))
    ∧ (∃ (s : State) (c p : Nat) (ad : Bool) (tx : OpenTx) (l : List RegOp), ∃ o f, (let x := s.cell c; p < 2 ∧ x.request p 1 = some (ad, tx) ∧ x.portFirst (1 - p) = false ∧ x.runs = true ∧ opsOf 11 0 tx.payload = .ok l ∧ l ≠ [] ∧ l.length ≤ 10 ∧ l = [o] ∧ accessError (x.fromOwner p) l = none ∧ o.write = true ∧ elsFields o.addr = [f] ∧ ((f.acc = .ro ∨ f.acc = .rwc)) ∧ elsMulti o.addr = none))
    ∧ (∃ (s : State) (c p : Nat) (ad : Bool) (tx : OpenTx) (l : List RegOp), ∃ e, (let x := s.cell c; p < 2 ∧ x.request p 1 = some (ad, tx) ∧ x.portFirst (1 - p) = false ∧ x.runs = true ∧ opsOf 11 0 tx.payload = .ok l ∧ l ≠ [] ∧ l.length ≤ 10 ∧ accessError (x.fromOwner p) l = some e))
    ∧ (∃ (s : State) (c p : Nat) (ad : Bool) (tx : OpenTx) (l : List RegOp), ∃ e, (let x := s.cell c; p < 2 ∧ x.request p 1 = some (ad, tx) ∧ x.portFirst (1 - p) = false ∧ x.runs = true ∧ opsOf 11 0 tx.payload = .ok l ∧ l ≠ [] ∧ l.length ≤ 10 ∧ accessError (x.fromOwner p) l = some e))
    ∧ (∃ (s : State) (c p : Nat) (ad : Bool) (tx : OpenTx), (let x := s.cell c; (let n := leAt tx.payload 4 2; p < 2 ∧ x.request p 3 = some (ad, tx) ∧ x.runs = true ∧ 0 < n ∧ n ≤ 1024 ∧ 6 ≤ tx.payload.length)))
    ∧ (∃ (s : State) (c p : Nat) (ad : Bool) (tx : OpenTx), (let x := s.cell c; (let n := leAt tx.payload 4 2; p < 2 ∧ x.request p 3 = some (ad, tx) ∧ x.runs = true ∧ 0 < n ∧ n ≤ 1024 ∧ 6 ≤ tx.payload.length)))
    ∧ (∃ (s : State) (c p : Nat) (ad : Bool) (tx : OpenTx), (let x := s.cell c; (let a := leAt tx.payload 0 4; (let n := leAt tx.payload 4 2; p < 2 ∧ x.request p 2 = some (ad, tx) ∧ x.runs = true ∧ 0 < n ∧ n ≤ 1024 ∧ tx.payload.length = 8 + n ∧ x.fromOwner p = true ∧ 0x80000 ≤ a ∧ a + n ≤ 0xE0000))))
    ∧ (∃ (s : State) (c p : Nat) (ad : Bool) (tx : OpenTx), (let x := s.cell c; (let n := leAt tx.payload 4 2; p < 2 ∧ x.request p 2 = some (ad, tx) ∧ x.runs = true ∧ 0 < n ∧ n ≤ 1024 ∧ tx.payload.length = 8 + n ∧ x.fromOwner p = false)))
    ∧ (∃ (s : State) (c p : Nat) (ad : Bool) (tx : OpenTx), (let x := s.cell c; (let a := leAt tx.payload 0 4; (let n := leAt tx.payload 4 2; p < 2 ∧ x.request p 2 = some (ad, tx) ∧ x.runs = true ∧ 0 < n ∧ n ≤ 1024 ∧ tx.payload.length = 8 + n ∧ x.fromOwner p = true ∧ (a < 0x80000 ∨ 0xE0000 < a + n)))))
    ∧ (∃ (s : State) (c : Nat) (r0 r1 : Bool × OpenTx), (let x := s.cell c; x.request 0 1 = some r0 ∧ x.request 1 1 = some r1 ∧ r0.2.doneAt / 8 ≤ r1.2.doneAt / 8))
    ∧ (∃ (s : State) (c : Nat) (r0 r1 : Bool × OpenTx), (let x := s.cell c; x.request 0 1 = some r0 ∧ x.request 1 1 = some r1 ∧ r0.2.doneAt / 8 ≤ r1.2.doneAt / 8))
    ∧ (∃ (s : State) (c : Nat) (r0 r1 : Bool × OpenTx), (let x := s.cell c; x.request 0 1 = some r0 ∧ x.request 1 1 = some r1 ∧ r1.2.doneAt / 8 < r0.2.doneAt / 8)) :=
  ⟨⟨(asked 1 ((rop true 0x214 7).bytes ++ (rop false 0x210 0).bytes)), 0, 0, true, (otx 1 ((rop true 0x214 7).bytes ++ (rop false 0x210 0).bytes)), [rop true 0x214 7, rop false 0x210 0], by exact ⟨by decide, by decide, by decide, by decide, rfl, by decide⟩⟩,
   ⟨(asked 1 (rop false 0x210 0).bytes), 0, 0, true, (otx 1 (rop false 0x210 0).bytes), [rop false 0x210 0], (rop false 0x210 0), by exact ⟨by decide, by decide, by decide, by decide, rfl, by decide⟩⟩,
   ⟨(asked 1 (rop true 0x414 7).bytes), 0, 0, true, (otx 1 (rop true 0x414 7).bytes), [rop true 0x414 7], (rop true 0x414 7), ((elsFields 0x414).headD Els.CV_CAL_OFS_OFS), by exact ⟨by decide, by decide, by decide, by decide, rfl, by decide⟩⟩,
   ⟨(asked 1 (rop true 0x216 7).bytes), 0, 0, true, (otx 1 (rop true 0x216 7).bytes), [rop true 0x216 7], (3, 0x216), by exact ⟨by decide, by decide, by decide, by decide, rfl, by decide⟩⟩,
   ⟨(asked 1 (rop true 0x60 7).bytes), 0, 0, true, (otx 1 (rop true 0x60 7).bytes), [rop true 0x60 7], (3, 0x60), by exact ⟨by decide, by decide, by decide, by decide, rfl, by decide⟩⟩,
   ⟨(asked 3 [0, 0, 16, 0, 8, 0]), 0, 0, true, (otx 3 [0, 0, 16, 0, 8, 0]), by decide⟩,
   ⟨(asked 3 [0xFF, 0xE0, 0, 0, 2, 0]), 0, 0, true, (otx 3 [0xFF, 0xE0, 0, 0, 2, 0]), by decide⟩,
   ⟨(asked 2 [0xFE, 0xFF, 0xD, 0, 2, 0, 0, 0, 8, 9]), 0, 0, true, (otx 2 [0xFE, 0xFF, 0xD, 0, 2, 0, 0, 0, 8, 9]), by decide⟩,
   ⟨((asked 2 [0xFE, 0xFF, 0xD, 0, 2, 0, 0, 0, 8, 9]).cwr 0 Els.AUTH_STAT_OWNER 1), 0, 0, true, (otx 2 [0xFE, 0xFF, 0xD, 0, 2, 0, 0, 0, 8, 9]), by decide⟩,
   ⟨(asked 2 [0xFF, 0xFF, 0xD, 0, 2, 0, 0, 0, 8, 9]), 0, 0, true, (otx 2 [0xFF, 0xFF, 0xD, 0, 2, 0, 0, 0, 8, 9]), by decide⟩,
   ⟨(bothAsk 40 47), 0, (true, { otx 1 (rop false 0x210 0).bytes with doneAt := 40 }), (true, { otx 1 (rop false 0x210 0).bytes with doneAt := 47 }), by decide⟩,
   ⟨(bothAsk 47 40), 0, (true, { otx 1 (rop false 0x210 0).bytes with doneAt := 47 }), (true, { otx 1 (rop false 0x210 0).bytes with doneAt := 40 }), by decide⟩,
   ⟨(bothAsk 48 47), 0, (true, { otx 1 (rop false 0x210 0).bytes with doneAt := 48 }), (true, { otx 1 (rop false 0x210 0).bytes with doneAt := 47 }), by decide⟩⟩
theorem wit_ManagementSets :
    (∃ (s : State) (c p : Nat) (ad : Bool) (tx : OpenTx) (es : List SetEntry), (let x := s.cell c; (let l := tx.payload; (let n := leAt l 6 2; p < 2 ∧ x.request p 4 = some (ad, tx) ∧ x.runs = true ∧ 0 < n ∧ n ≤ 40 ∧ l.length = 8 + 12 * n ∧ setEntries n (l.drop 8) = some es ∧ ((∀ e ∈ es, entryAddrOk e = true)) ∧ x.fromOwner p = true ∧ s.setRefusal c es = none))))
    ∧ (∃ (s : State) (c p : Nat) (ad : Bool) (tx : OpenTx) (es : List SetEntry), ∃ r, (let x := s.cell c; (let l := tx.payload; (let n := leAt l 6 2; p < 2 ∧ x.request p 4 = some (ad, tx) ∧ x.runs = true ∧ 0 < n ∧ n ≤ 40 ∧ l.length = 8 + 12 * n ∧ setEntries n (l.drop 8) = some es ∧ ((∀ e ∈ es, entryAddrOk e = true)) ∧ x.fromOwner p = true ∧ s.setRefusal c es = some r))))
    ∧ (∃ (s : State) (c p : Nat) (ad : Bool) (tx : OpenTx) (es : List SetEntry), ∃ e es', (let x := s.cell c; (let l := tx.payload; (let n := leAt l 6 2; p < 2 ∧ x.request p 4 = some (ad, tx) ∧ x.runs = true ∧ 0 < n ∧ n ≤ 40 ∧ l.length = 8 + 12 * n ∧ setEntries n (l.drop 8) = some es ∧ ((∀ e ∈ es, entryAddrOk e = true)) ∧ es = e :: es' ∧ x.fromOwner p = false))))
    ∧ (∃ (s : State) (c p : Nat) (ad : Bool) (tx : OpenTx), (let x := s.cell c; p < 2 ∧ x.request p 5 = some (ad, tx) ∧ x.runs = true ∧ tx.payload.length = 2))
    ∧ (∃ (s : State) (c p : Nat) (ad : Bool) (tx : OpenTx), (let x := s.cell c; p < 2 ∧ x.request p 5 = some (ad, tx) ∧ x.runs = true ∧ tx.payload.length = 2))
    ∧ (∃ (s : State) (c a len : Nat) (data : W32) (write : Bool), (let x := s.cell c; x.on Els.SEC_STAT_UNLOCKED = true ∧ x.request 0 1 = none ∧ x.request 1 1 = none ∧ x.maint = true ∧ elsAssigned a = true ∧ a % 4 = 0 ∧ elsMulti a = none ∧ a ≠ 0x42C))
    ∧ (∃ (s : State) (c a len : Nat) (data : W32) (write : Bool), ∃ f, (let x := s.cell c; x.on Els.SEC_STAT_UNLOCKED = true ∧ x.request 0 1 = none ∧ x.request 1 1 = none ∧ x.maint = true ∧ elsAssigned a = true ∧ a % 4 = 0 ∧ elsMulti a = none ∧ elsFields a = [f] ∧ f.acc = .rw ∧ a < 0x600 ∧ a ≠ 0x43C))
    ∧ (∃ (s : State) (c a len : Nat) (data : W32) (write : Bool), (let x := s.cell c; x.on Els.SEC_STAT_UNLOCKED = true ∧ x.request 0 1 = none ∧ x.request 1 1 = none ∧ x.maint = false)) :=
  ⟨⟨(asked 4 (aset 0x624)), 0, 0, true, (otx 4 (aset 0x624)), [aent 0x624], by decide⟩,
   ⟨(asked 4 (aset 0x414)), 0, 0, true, (otx 4 (aset 0x414)), [aent 0x414], Rsn.FIELD_INVALID, by decide⟩,
   ⟨((asked 4 (aset 0x624)).cwr 0 Els.AUTH_STAT_OWNER 1), 0, 0, true, (otx 4 (aset 0x624)), [aent 0x624], (aent 0x624), [], by decide⟩,
   ⟨(let s := asked 5 [7, 0]; s.modCell 0 fun x => { x with staged := some ⟨7, 200, [aent 0x624], none⟩ }), 0, 0, true, (otx 5 [7, 0]), by decide⟩,
   ⟨(asked 5 [7, 0]), 0, 0, true, (otx 5 [7, 0]), by decide⟩,
   ⟨(withCell 6 (cput' [(Els.SEC_STAT_UNLOCKED, 1)])), 0, 0x210, 32, 0#32, false, by decide⟩,
   ⟨(withCell 6 (cput' [(Els.SEC_STAT_UNLOCKED, 1)])), 0, 0x210, 32, 0x12345#32, false, Els.PWM_TDUTY12_DUTY, by decide⟩,
   ⟨(withCell 3 (cput' [(Els.SEC_STAT_UNLOCKED, 1)])), 0, 0x210, 32, 0#32, true, by decide⟩⟩
theorem wit_Rejects :
    (∃ (kind : Nat) (cmd : Nat → Nat → Nat → Nat → DownFrame → Instr), ∃ (s : State) (c p q v : Nat) (f : DownFrame), p < 2 ∧ (s.cell c).runs = true ∧ f.hdr.kind.toNat = kind ∧ f.aborted = false ∧ (s.port c p).verifies f = false)
    ∧ (∃ (kind : Nat) (cmd : Nat → Nat → Nat → Nat → DownFrame → Instr), ∃ (s : State) (c p q v : Nat) (f : DownFrame), p < 2 ∧ (s.cell c).runs = true ∧ f.hdr.kind.toNat = kind ∧ f.aborted = false ∧ (s.port c p).verifies f = false)
    ∧ (∃ (kind : Nat) (cmd : Nat → Nat → Nat → Nat → DownFrame → Instr), ∃ (s : State) (c p q v : Nat) (f : DownFrame), p < 2 ∧ (s.cell c).runs = true ∧ f.hdr.kind.toNat = kind ∧ f.aborted = false ∧ (s.port c p).verifies f = true ∧ ((s.cell c).treeOk p f.hdr = false ∨ ((s.port c p).inUse f).fresh f.hdr = false))
    ∧ (∃ (kind : Nat) (cmd : Nat → Nat → Nat → Nat → DownFrame → Instr), ∃ (s : State) (c p q v : Nat) (f : DownFrame), p < 2 ∧ (s.cell c).runs = true ∧ f.hdr.kind.toNat = kind ∧ f.aborted = false ∧ (s.port c p).verifies f = true ∧ ((s.cell c).treeOk p f.hdr = false ∨ ((s.port c p).inUse f).fresh f.hdr = false))
    ∧ (∃ (kind : Nat) (cmd : Nat → Nat → Nat → Nat → DownFrame → Instr), ∃ (s : State) (c p q v : Nat) (f : DownFrame), p < 2 ∧ (s.cell c).runs = true ∧ (f.hdr.kind.toNat ≠ kind ∨ f.aborted = true))
    ∧ (∃ (kind : Nat) (cmd : Nat → Nat → Nat → Nat → DownFrame → Instr), ∃ (s : State) (c p q v : Nat) (f : DownFrame), p < 2 ∧ (s.cell c).runs = true ∧ (f.hdr.kind.toNat ≠ kind ∨ f.aborted = true)) :=
  ⟨⟨1, Instr.periodBeaconAccept, (one (slotted 3)), 0, 0, 0, 0, (frame 1 6), by decide⟩,
   ⟨2, Instr.blockBeaconAccept, (one (slotted 3)), 0, 0, 0, 0, (frame 2 6), by decide⟩,
   ⟨1, Instr.periodBeaconAccept, (one (cput' [(pf 0 Port.PORT_ID_TREE_ID, 256)] (slotted 3))), 0, 0, 0, 0, (frame 1 5), by decide⟩,
   ⟨2, Instr.blockBeaconAccept, (one (cput' [(pf 0 Port.PORT_ID_TREE_ID, 256)] (slotted 3))), 0, 0, 0, 0, (frame 2 5), by decide⟩,
   ⟨1, Instr.periodBeaconAccept, (one (slotted 3)), 0, 0, 0, 0, (frame 2 5), by decide⟩,
   ⟨2, Instr.blockBeaconAccept, (one (slotted 3)), 0, 0, 0, 0, { frame 2 5 with aborted := true }, by decide⟩⟩
theorem wit_FramesTaken :
    (∃ (s : State) (c p q v : Nat) (f : DownFrame), Takes s c p 1 f)
    ∧ (∃ (s : State) (c p q v : Nat) (f : DownFrame), Takes s c p 2 f)
    ∧ (∃ (s : State) (c p q v : Nat) (f : DownFrame), Takes s c p 3 f)
    ∧ (∃ (s : State) (c p q v : Nat) (f : DownFrame), (let x := s.cell c; (let h := f.hdr; Takes s c p 4 f ∧ x.owner = p ∧ h.mode = 4)))
    ∧ (∃ (s : State) (c p q v : Nat) (f : DownFrame), Takes s c p 5 f) :=
  ⟨⟨(one (slotted 3)), 0, 0, 0, 0, (frame 1 5), by unfold Takes; decide⟩,
   ⟨(one (slotted 3)), 0, 0, 0, 0, (frame 2 5), by unfold Takes; decide⟩,
   ⟨(one (slotted 0)), 0, 0, 0, 0, (frame 3 0), by unfold Takes; decide⟩,
   ⟨(one (slotted 5)), 0, 0, 0, 0, (frame 4 5), by unfold Takes; decide⟩,
   ⟨(one (slotted 3)), 0, 0, 0, 0, (frame 5 5), by unfold Takes; decide⟩⟩
theorem wit_CellDiscovery :
    (∃ (s : State) (c p sof : Nat) (g : Seg), (let x := s.cell c; (let h := crc32 (leBytes 8 x.serial ++ leBytes 2 (leAt g.payload 2 2)); p < 2 ∧ (x.port p).req = some (g, sof) ∧ g.kind = 7 ∧ g.payload.head? = some 0 ∧ (leAt g.payload 1 1).testBit 0 = false ∧ x.on (pf p Port.PORT_ID_VALID) = false ∧ (x.port p).parked = false ∧ h % max 1 (leAt g.payload 5 1) = leAt g.payload 4 1)))
    ∧ (∃ (s : State) (c p sof : Nat) (g : Seg), (let x := s.cell c; (let h := crc32 (leBytes 8 x.serial ++ leBytes 2 (leAt g.payload 2 2)); p < 2 ∧ (x.port p).req = some (g, sof) ∧ g.kind = 7 ∧ g.payload.head? = some 0 ∧ (leAt g.payload 1 1).testBit 0 = false ∧ h % max 1 (leAt g.payload 5 1) ≠ leAt g.payload 4 1)))
    ∧ (∃ (s : State) (c p sof : Nat) (g : Seg), (let x := s.cell c; p < 2 ∧ (x.port p).req = some (g, sof) ∧ g.kind = 7 ∧ g.payload.head? = some 0 ∧ (leAt g.payload 1 1).testBit 0 = true))
    ∧ (∃ (s : State) (c p sof : Nat) (g : Seg), (let x := s.cell c; (let tid := leAt g.payload 9 2; (let idx := leAt g.payload 11 2; (let other := (x.port (1 - p)).idx; p < 2 ∧ (x.port p).req = some (g, sof) ∧ g.kind = 7 ∧ g.payload.head? = some 1 ∧ leAt g.payload 1 8 = x.serial ∧ (x.port p).parked = false ∧ tid / 128 % 2 = p ∧ (other = none ∨ other = some idx))))))
    ∧ (∃ (s : State) (c p sof : Nat) (g : Seg), (let x := s.cell c; (let tid := leAt g.payload 9 2; (let idx := leAt g.payload 11 2; (let other := (x.port (1 - p)).idx; p < 2 ∧ (x.port p).req = some (g, sof) ∧ g.kind = 7 ∧ g.payload.head? = some 1 ∧ leAt g.payload 1 8 = x.serial ∧ (x.port p).parked = false ∧ (tid / 128 % 2 ≠ p ∨ (∃ i, other = some i ∧ i ≠ idx)))))))
    ∧ (∃ (s : State) (c p sof : Nat) (g : Seg), (let x := s.cell c; (let tid := leAt g.payload 9 2; (let idx := leAt g.payload 11 2; (let other := (x.port (1 - p)).idx; p < 2 ∧ (x.port p).req = some (g, sof) ∧ g.kind = 7 ∧ g.payload.head? = some 1 ∧ leAt g.payload 1 8 = x.serial ∧ (x.port p).parked = false ∧ (tid / 128 % 2 ≠ p ∨ (∃ i, other = some i ∧ i ≠ idx)))))))
    ∧ (∃ (s : State) (c p sof : Nat) (g : Seg), ((s.cell c).port p).req = some (g, sof) ∧ g.kind = 7 ∧ g.payload.head? = some 2 ∧ leAt g.payload 1 8 = (s.cell c).serial) :=
  ⟨⟨(requested 0 7 [0, 0, 1, 0, 0, 1, 1] (cellSt 1)), 0, 0, (4*1003000), (req 7 [0, 0, 1, 0, 0, 1, 1]), by decide⟩,
   ⟨(requested 0 7 [0, 0, 1, 0, 1, 1, 1] (cellSt 1)), 0, 0, (4*1003000), (req 7 [0, 0, 1, 0, 1, 1, 1]), by decide⟩,
   ⟨(requested 1 7 [0, 1, 1, 0, 0, 1, 1] (slotted 1)), 0, 1, (4*1003000), (req 7 [0, 1, 1, 0, 0, 1, 1]), by decide⟩,
   ⟨(requested 0 7 [1, 0, 0, 0, 0, 0, 0, 0, 0, 2, 0, 9, 0] (cellSt 1)), 0, 0, (4*1003000), (req 7 [1, 0, 0, 0, 0, 0, 0, 0, 0, 2, 0, 9, 0]), by decide⟩,
   ⟨(requested 1 7 [1, 0, 0, 0, 0, 0, 0, 0, 0, 2, 0, 9, 0] (cellSt 1)), 0, 1, (4*1003000), (req 7 [1, 0, 0, 0, 0, 0, 0, 0, 0, 2, 0, 9, 0]), by decide⟩,
   ⟨(requested 0 7 [1, 0, 0, 0, 0, 0, 0, 0, 0, 2, 0, 9, 0] { cellSt 1 with ports := [(1, { idx := some 8 })] }), 0, 0, (4*1003000), (req 7 [1, 0, 0, 0, 0, 0, 0, 0, 0, 2, 0, 9, 0]), by decide⟩,
   ⟨(requested 0 7 [2, 0, 0, 0, 0, 0, 0, 0, 0] (cellSt 1)), 0, 0, (4*1003000), (req 7 [2, 0, 0, 0, 0, 0, 0, 0, 0]), by decide⟩⟩
theorem wit_CellRanging :
    (∃ (s : State) (c p sof : Nat) (g : Seg), (let x := s.cell c; p < 2 ∧ (x.port p).req = some (g, sof) ∧ g.kind = 6 ∧ x.mine p g = true ∧ g.payload = []))
    ∧ (∃ (s : State) (c p sof : Nat) (g : Seg), ∃ d, (let x := s.cell c; p < 2 ∧ (x.port p).req = some (g, sof) ∧ g.kind = 6 ∧ x.mine p g = true ∧ resultOf g.payload = some d ∧ (x.port p).rerange = false))
    ∧ (∃ (s : State) (c p : Nat) (y : OpenTx), (s.port c p).req = none ∧ (s.port c p).done 6 = some y ∧ y.payload = [])
    ∧ (∃ (s : State) (c p : Nat) (y : OpenTx), (s.port c p).done 9 = some y ∧ y.payload.head? = some 0)
    ∧ (∃ (s : State) (c p : Nat) (y : OpenTx) (d : Nat × Nat × Nat), (s.port c p).req = none ∧ (s.port c p).done 9 = some y ∧ resultOf y.payload = some d) :=
  ⟨⟨(requested 0 6 [] (slotted 1)), 0, 0, (4*1003000), (req 6 []), by decide⟩,
   ⟨(requested 0 6 [1, 9, 0, 3, 0, 105, 0, 0, 0, 0, 0, 0, 0] (slotted 1)), 0, 0, (4*1003000), (req 6 [1, 9, 0, 3, 0, 105, 0, 0, 0, 0, 0, 0, 0]), (9, 3, 105), by decide⟩,
   ⟨(asked 6 []), 0, 0, (otx 6 []), by decide⟩,
   ⟨(asked 9 [0]), 0, 0, (otx 9 [0]), by decide⟩,
   ⟨(asked 9 [1, 9, 0, 3, 0, 105, 0, 0, 0, 0, 0, 0, 0]), 0, 0, (otx 9 [1, 9, 0, 3, 0, 105, 0, 0, 0, 0, 0, 0, 0]), (9, 3, 105), by decide⟩⟩
theorem wit_CellKeyExchange :
    (∃ (s : State) (c p sof : Nat) (g : Seg), (let x := s.cell c; p < 2 ∧ (x.port p).req = some (g, sof) ∧ g.kind = 8 ∧ x.mine p g = true ∧ g.payload.head? = some 0))
    ∧ (∃ (s : State) (c p sof : Nat) (g : Seg), (let x := s.cell c; p < 2 ∧ (x.port p).req = some (g, sof) ∧ g.kind = 8 ∧ x.mine p g = true ∧ g.payload.head? = some 1))
    ∧ (∃ (s : State) (c p sof : Nat) (g : Seg), (let x := s.cell c; p < 2 ∧ (x.port p).req = some (g, sof) ∧ g.kind = 8 ∧ x.mine p g = true ∧ g.payload.head? = some 1))
    ∧ (∃ (s : State) (c p sof : Nat) (g : Seg), (let x := s.cell c; (let k := (x.port p).kx; p < 2 ∧ (x.port p).req = some (g, sof) ∧ g.kind = 8 ∧ x.mine p g = true ∧ g.payload.head? = some 2 ∧ k.result = some 0 ∧ x.sec.idk = true)))
    ∧ (∃ (s : State) (c p sof : Nat) (g : Seg), ∃ opens confirmed, (let x := s.cell c; p < 2 ∧ (x.port p).req = some (g, sof) ∧ g.kind = 8 ∧ x.mine p g = true ∧ g.payload.head? = some 2 ∧ (opens = false ∨ confirmed = false))) :=
  ⟨⟨(let s := requested 0 8 [0, 2] (slotted 1); s.modPort 0 0 fun y => { y with kx := { parts := [0, 1] } }), 0, 0, (4*1003000), (req 8 [0, 2]), by decide⟩,
   ⟨(let s := requested 0 8 [1, 3] (slotted 1); s.modPort 0 0 fun y => { y with kx := { result := some 0, offerAt := 4 * 1002850 } }), 0, 0, (4*1003000), (req 8 [1, 3]), by decide⟩,
   ⟨(requested 0 8 [1, 3] (slotted 1)), 0, 0, (4*1003000), (req 8 [1, 3]), by decide⟩,
   ⟨(let s := requested 0 8 [2] (slotted 1); s.modPort 0 0 fun y => { y with kx := { result := some 0, anchorNew := true, hash := 9 } }), 0, 0, (4*1003000), (req 8 [2]), by decide⟩,
   ⟨(requested 0 8 [2] (slotted 1)), 0, 0, (4*1003000), (req 8 [2]), false, true, by decide⟩⟩
theorem wit_ClauseCommands :
    (∃ (s : State) (c : HostCmd), Starts c s ∧ s.mirror.handover = none ∧ s.mirror.handoverIn = none ∧ ((∀ g, s.clause.staged = some g → g.checked = true → s.clause.armed = none)))
    ∧ (∃ (s : State) (c : HostCmd), Starts c s ∧ (s.mirror.handover.isSome = true ∨ s.mirror.handoverIn.isSome = true ∨ (s.clause.armed.isSome = true ∧ ∃ g, s.clause.staged = some g ∧ g.checked = true)))
    ∧ (∃ (s : State) (c : HostCmd), Starts c s)
    ∧ (∃ (s : State) (c : HostCmd), ∃ g, ∃ code item, Starts c s ∧ s.clause.staged = some g ∧ (let l := (s.start c.ring).withInterleave g.items; (s.start c.ring).checkFails l = some (code, item)))
    ∧ (∃ (s : State) (c : HostCmd), ∃ g, Starts c s ∧ s.clause.staged = some g ∧ (let l := (s.start c.ring).withInterleave g.items; (s.start c.ring).checkFails l = none))
    ∧ (∃ (s : State) (c : HostCmd), Starts c s ∧ s.clause.staged = none)
    ∧ (∃ (s : State) (c : HostCmd), Starts c s)
    ∧ (∃ (s : State) (c : HostCmd), ∃ g e, Starts c s ∧ s.clause.staged = some g ∧ g.checked = true ∧ s.clause.armed = none ∧ 5 ≤ s.modeNo ∧ s.epochBad g e = true)
    ∧ (∃ (s : State) (c : HostCmd), ∃ g e, Starts c s ∧ s.clause.staged = some g ∧ g.checked = true ∧ s.clause.armed = none ∧ 5 ≤ s.modeNo ∧ s.epochBad g e = false)
    ∧ (∃ (s : State) (c : HostCmd), ∃ g e, Starts c s ∧ s.clause.staged = some g ∧ g.checked = true ∧ s.clause.armed = none ∧ s.modeNo < 5 ∧ e ≠ 0)
    ∧ (∃ (s : State) (c : HostCmd), ∃ g e, ∃ r k, Starts c s ∧ s.clause.staged = some g ∧ g.checked = true ∧ s.clause.armed = none ∧ s.modeNo < 5 ∧ e = 0 ∧ g.items = [.armEnable r k] ∧ r < 8 ∧ k < 4 ∧ ApartRings s c ∧ ((∀ b, (s.armSt r k).blockAt = some b → b ≤ s.ns ∧ b / 8 ≠ s.collTick)))
    ∧ (∃ (s : State) (c : HostCmd), ∃ g e, ∃ r k, Starts c s ∧ s.clause.staged = some g ∧ g.checked = true ∧ s.clause.armed = none ∧ s.modeNo < 5 ∧ e = 0 ∧ g.items = [.armEnable r k] ∧ r < 8 ∧ k < 4 ∧ ApartRings s c ∧ ((∀ b, (s.armSt r k).blockAt = some b → b ≤ s.ns ∧ b / 8 ≠ s.collTick)))
    ∧ (∃ (s : State) (c : HostCmd), Starts c s ∧ s.clause.armed = none ∧ ((∀ g, s.clause.staged = some g → g.checked = false)))
    ∧ (∃ (s : State) (c : HostCmd), Starts c s ∧ s.clause.armed = none ∧ ((∀ g, s.clause.staged = some g → g.checked = false)))
    ∧ (∃ (s : State) (c : HostCmd), Starts c s ∧ s.clause.armed.isSome = true)
    ∧ (∃ (s : State) (c : HostCmd), ∃ a id, Starts c s ∧ s.clause.armed = some a ∧ ApartRings s c ∧ a.id = id ∧ a.committed = false ∧ NoSplit s)
    ∧ (∃ (s : State) (c : HostCmd), ∃ a id, Starts c s ∧ s.clause.armed = some a ∧ ApartRings s c ∧ (a.id ≠ id ∨ a.committed = true))
    ∧ (∃ (s : State) (c : HostCmd), ∃ a id, Starts c s ∧ s.clause.armed = some a ∧ ApartRings s c ∧ (a.id ≠ id ∨ a.committed = true))
    ∧ (∃ (s : State) (c : HostCmd), Starts c s ∧ s.clause.armed = none) :=
  ⟨⟨(clausing { staged := some stagedOne }), hc, by (repeat' apply And.intro) <;> first | exact noSplit rfl | exact noSplit_nil rfl rfl | (unfold Starts; decide) | decide | exact fun _ h => by cases h <;> decide⟩,
   ⟨((ringed 7).modMirror fun m => { m with handover := some (200, false) }), hc, by unfold Starts; decide⟩,
   ⟨(ringed 7), hc, by unfold Starts; decide⟩,
   ⟨(clausing { staged := some { items := [.param 9 0 []] } }), hc, { items := [.param 9 0 []] }, 2, 0, by unfold Starts; decide⟩,
   ⟨(clausing { staged := some stagedOne }), hc, stagedOne, by unfold Starts; decide⟩,
   ⟨(ringed 7), hc, by unfold Starts; decide⟩,
   ⟨(clausing { staged := some stagedOne }), hc, by unfold Starts; decide⟩,
   ⟨(clausing { staged := some checkedOne }), hc, checkedOne, 100, by unfold Starts; decide⟩,
   ⟨(clausing { staged := some checkedOne }), hc, checkedOne, 110, by unfold Starts; decide⟩,
   ⟨(put [(Reg.MODE_STAT_MODE, 4)] (clausing { staged := some checkedOne })), hc, checkedOne, 1, by unfold Starts; decide⟩,
   ⟨(put [(Reg.MODE_STAT_MODE, 1), (af 0 0 Arm.ARM_BLK_BLOCKED, 1)] (clausing { staged := some { checkedOne with items := [.armEnable 0 0] } })), hc, { checkedOne with items := [.armEnable 0 0] }, 0, 0, 0, by (repeat' apply And.intro) <;> first | exact noSplit rfl | exact noSplit_nil rfl rfl | (unfold Starts; decide) | (unfold ApartRings; decide) | decide | exact fun _ h => by cases h <;> decide⟩,
   ⟨(put [(Reg.MODE_STAT_MODE, 4), (af 7 3 Arm.ARM_BLK_BLOCKED, 1)] (clausing { staged := some { checkedOne with items := [.armEnable 7 3] } })), hc, { checkedOne with items := [.armEnable 7 3] }, 0, 7, 3, by (repeat' apply And.intro) <;> first | exact noSplit rfl | exact noSplit_nil rfl rfl | (unfold Starts; decide) | (unfold ApartRings; decide) | decide | exact fun _ h => by cases h <;> decide⟩,
   ⟨(clausing { staged := some stagedOne }), hc, by (repeat' apply And.intro) <;> first | exact noSplit rfl | exact noSplit_nil rfl rfl | (unfold Starts; decide) | decide | exact fun _ h => by cases h <;> decide⟩,
   ⟨(clausing {}), hc, by (repeat' apply And.intro) <;> first | exact noSplit rfl | exact noSplit_nil rfl rfl | (unfold Starts; decide) | decide | exact fun _ h => by cases h <;> decide⟩,
   ⟨(clausing { staged := some checkedOne, armed := some (armedFor 110 []) }), hc, by unfold Starts; decide⟩,
   ⟨(clausing { armed := some (armedFor 110 []) }), hc, (armedFor 110 []), 5, by (repeat' apply And.intro) <;> first | exact noSplit rfl | exact noSplit_nil rfl rfl | (unfold Starts; decide) | (unfold ApartRings; decide) | decide | exact fun _ h => by cases h <;> decide⟩,
   ⟨(clausing { armed := some (armedFor 110 []) }), hc, (armedFor 110 []), 6, by unfold Starts ApartRings; decide⟩,
   ⟨(clausing { armed := some { armedFor 110 [] with committed := true } }), hc, { armedFor 110 [] with committed := true }, 5, by unfold Starts ApartRings; decide⟩,
   ⟨(clausing {}), hc, by unfold Starts; decide⟩⟩
theorem wit_ClausePoints :
    (∃ (s : State) (a : Armed), (let n := s.time.epochAt + s.period - s.rd Reg.BEACON_LEAD_LEAD - 500; s.clause.armed = some a ∧ a.committed = false ∧ a.epoch ≤ s.pn + 1 ∧ s.running = true ∧ s.ns ≤ n ∧ n < 2 ^ 64 ∧ Plain s ∧ (s.runTo n).commitFails a = none))
    ∧ (∃ (s : State) (a : Armed), ∃ why item cell, (let n := s.time.epochAt + s.period - s.rd Reg.BEACON_LEAD_LEAD - 500; s.clause.armed = some a ∧ a.committed = false ∧ a.epoch ≤ s.pn + 1 ∧ s.running = true ∧ s.ns ≤ n ∧ n < 2 ^ 64 ∧ Plain s ∧ (s.runTo n).commitFails a = some (why, item, cell) ∧ NoSplit s))
    ∧ (∃ (s : State) (a : Armed) (d : CellDeliv), s.clause.armed = some a ∧ a.cells.find? (fun x => !x.confirmed) = some d)
    ∧ (∃ (s : State) (a : Armed), s.clause.armed = some a ∧ a.committed = true ∧ a.epoch ≤ s.pn)
    ∧ (∃ (s : State) (a : Armed), s.clause.armed = some a ∧ a.committed = true ∧ a.epoch ≤ s.pn)
    ∧ (∃ (s : State) (a : Applied), s.clause.applied = some a ∧ a.epoch + 16 ≤ s.pn) :=
  ⟨⟨(clausing { armed := some (armedFor 101 [.param 0 0x40000 [1, 2, 3, 4]]) }), (armedFor 101 [.param 0 0x40000 [1, 2, 3, 4]]), by unfold Plain; decide⟩,
   ⟨(clausing { armed := some { armedFor 101 [] with cells := [{ cell := 3 }] } }), { armedFor 101 [] with cells := [{ cell := 3 }] }, Rsn.CELL_UNCONFIRMED, noItem, (some 3), by (repeat' apply And.intro) <;> first | exact noSplit rfl | exact noSplit_nil rfl rfl | (unfold Plain; decide) | decide | exact fun _ h => by cases h <;> decide⟩,
   ⟨(clausing { armed := some { armedFor 101 [] with cells := [{ cell := 3 }] } }), { armedFor 101 [] with cells := [{ cell := 3 }] }, { cell := 3 }, by decide⟩,
   ⟨(clausing { armed := some { armedFor 100 [.param 0 0x40000 [1, 2, 3, 4]] with committed := true } }), { armedFor 100 [.param 0 0x40000 [1, 2, 3, 4]] with committed := true }, by decide⟩,
   ⟨(let s := clausing { armed := some { armedFor 100 [.armEnable 0 0] with committed := true } }; s.wr (af 0 0 Arm.ARM_BLK_BLOCKED) 1), { armedFor 100 [.armEnable 0 0] with committed := true }, by decide⟩,
   ⟨(clausing { applied := some ⟨5, 84, [], [3]⟩ }), ⟨5,84,[],[3]⟩, by decide⟩⟩
theorem wit_DatapathRegisters : ∃ (r e : Nat) (d a b : BitVec 4), ∃ sh : BitVec 6, sh ≠ 32 :=
  ⟨0, 0, 1, 2, 3, 31, by decide⟩
theorem wit_DatapathMemory :
    (∃ (r e : Nat) (acc : Bool), ∃ (s : State) (d : BitVec 4) (x : Addr) (disp : BitVec 8), (let g := s.eng r e; (let m := s.view r e; (let at_ := g.ea x disp; g.good m x false at_ = true))))
    ∧ (∃ (r e : Nat) (acc : Bool), ∃ (s : State) (d : BitVec 4) (x : Addr) (disp : BitVec 8), (let g := s.eng r e; (let m := s.view r e; (let at_ := g.ea x disp; g.good m x false at_ = true))))
    ∧ (∃ (r e : Nat) (acc : Bool), ∃ (s : State) (d : BitVec 4) (x : Addr) (disp : BitVec 8), (let g := s.eng r e; (let m := s.view r e; (let at_ := g.ea x disp; g.good m x false at_ = false))))
    ∧ (∃ (r e : Nat) (acc : Bool), ∃ (s : State) (d : BitVec 4) (x : Addr) (disp : BitVec 8), (let g := s.eng r e; (let m := s.view r e; (let at_ := g.ea x disp; g.good m x false at_ = false))))
    ∧ (∃ (r e : Nat) (acc : Bool), ∃ (s : State) (d : BitVec 4) (x : Addr) (disp : BitVec 8), (let g := s.eng r e; (let m := s.view r e; (let at_ := g.ea x disp; g.good m x true at_ = true))))
    ∧ (∃ (r e : Nat) (acc : Bool), ∃ (s : State) (d : BitVec 4) (x : Addr) (disp : BitVec 8), (let g := s.eng r e; (let m := s.view r e; (let at_ := g.ea x disp; g.good m x true at_ = false))))
    ∧ (∃ (r e : Nat) (acc : Bool), ∃ (s : State) (c : BitVec 3) (target count : BitVec 6), (let g := s.eng r e; g.cond c = true))
    ∧ (∃ (r e : Nat) (acc : Bool), ∃ (s : State) (c : BitVec 3) (target count : BitVec 6), (let g := s.eng r e; g.cond c = false))
    ∧ (∃ (r e : Nat) (acc : Bool), ∃ (s : State) (c : BitVec 3) (target count : BitVec 6), (let g := s.eng r e; g.loops = []))
    ∧ (∃ (r e : Nat) (acc : Bool), ∃ (s : State) (c : BitVec 3) (target count : BitVec 6), ∃ q, (let g := s.eng r e; g.loops = [q]))
    ∧ (∃ (r e : Nat) (acc : Bool), ∃ (g : Eng) (st en : Nat), g.loops = [(st, en)])
    ∧ (∃ (r e : Nat) (acc : Bool), ∃ g : Eng, g.loops = [])
    ∧ (∃ (r e : Nat) (acc : Bool), ∃ (g : Eng) (st en : Nat), g.loops = [(st, en)]) :=
  ⟨⟨0, 0, false, (verbing 15 [] regsEng), 3, ⟨3,0,.circ,0⟩, 0, by decide⟩,
   ⟨0, 0, false, (verbing 15 [] regsEng), 3, ⟨0,0,.post,0⟩, 0, by decide⟩,
   ⟨0, 0, false, (verbing 15 [] regsEng), 3, ⟨2,0,.plain,0⟩, 0, by decide⟩,
   ⟨0, 0, false, (verbing 15 [] regsEng), 3, ⟨4,0,.circ,1⟩, 0, by decide⟩,
   ⟨0, 0, false, (verbing 15 [] regsEng), 3, ⟨3,0,.circ,0⟩, 0, by decide⟩,
   ⟨0, 0, false, (verbing 15 [] { regsEng with p := [0x2000] }), 3, ⟨0,0,.plain,0⟩, 0, by decide⟩,
   ⟨0, 0, false, ((inMode 7).modEng 0 0 fun _ => { regsEng with z := true }), 1, 9, 3, by decide⟩,
   ⟨0, 0, false, ((inMode 7).modEng 0 0 fun _ => regsEng), 1, 9, 3, by decide⟩,
   ⟨0, 0, false, ((inMode 7).modEng 0 0 fun _ => regsEng), 1, 9, 3, by decide⟩,
   ⟨0, 0, false, ((inMode 7).modEng 0 0 fun _ => { regsEng with loops := [(3, 5)] }), 1, 9, 3, (3, 5), by decide⟩,
   ⟨0, 0, false, { regsEng with loops := [(3, 5)], ip := 5, lc0 := 1 }, 3, 5, by decide⟩,
   ⟨0, 0, false, regsEng, by decide⟩,
   ⟨0, 0, false, { regsEng with loops := [(3, 5)], ip := 4, lc0 := 2 }, 3, 5, by decide⟩⟩
theorem wit_DatapathWordsSpell :
    (∃ i : DI, Spelled i = true)
    ∧ (∃ i : DI, Spelled i = true)
    ∧ (∃ i : DI, Spelled i = false)
    ∧ (∃ i : DI, Spelled i = false)
    ∧ (∃ i j : DI, Spelled i = true ∧ Spelled j = true ∧ i.word = j.word) :=
  ⟨⟨(.ash 1 2 31), by decide⟩,
   ⟨(.ext 1 true 40), by decide⟩,
   ⟨(.ash 1 2 32), by decide⟩,
   ⟨(.ext 1 true 41), by decide⟩,
   ⟨.nop, .nop, by decide⟩⟩
theorem wit_VerbMakes :
    ((List.range 16).all (fun opc => decide ((verbing opc [] regsEng).runs 0 0 opc = some (gr, ph opc [], ac, vd opc []))) = true)
    ∧ ((List.range 16).all (fun opc => decide ((inMode 7).runs 0 0 opc = none)) = true) :=
  ⟨by decide,
   by decide⟩
theorem wit_ArithmeticVerbs : ∃ (s : State) (q : Grant × Phrase × Act × VerbDecl), s.runs 0 0 5 = some q ∧ (0 ≤ (s.armWord 0 1 0x88).toInt)
    ∧ (s.armWord 0 1 0x80).toInt ≤ (s.armWord 0 1 0x84).toInt ∧ s.armOfPhrase q.2.1 = 1 :=
  ⟨limiting, (gr, ph 5 [], ac, vd 5 []), by decide⟩
theorem wit_ModulationVerbs :
    (∃ (i idead : Int), 0 < idead ∧ idead ≤ i)
    ∧ (∃ (i idead : Int), 0 < idead ∧ i ≤ -idead) :=
  ⟨⟨5, 5, by decide⟩,
   ⟨-5, 5, by decide⟩⟩
theorem wit_OtherVerbs :
    (∃ q : Asdu, (verbing 12 [3, 0, 1] regsEng).runs 0 0 12 = some (gr, ph 12 [3, 0, 1], ac, vd 12 [3, 0, 1]) ∧ (fget [] ac.sv 3)[0]? = some q)
    ∧ ((verbing 12 [3, 1] regsEng).runs 0 0 12 = some (gr, ph 12 [3, 1], ac, vd 12 [3, 1]) ∧ (fget [] ac.sv 3)[1]? = none) :=
  ⟨⟨_, by decide, rfl⟩,
   by decide⟩
theorem wit_Triggers :
    (∃ (s : State) (r : Nat) (tr : Trig) (entry : List W32) (test : Bool) (p : Phrase), r < s.dies ∧ (s.phrasesOf r).filter (fun y => y.trig == tr) = [p] ∧ (let d := s.dsp r; (let may := p.control = false ∨ s.modeNo = 7 ∨ s.modeNo = 8 ∨ s.modeNo = 9 ∨ s.modeNo = 11 ∧ test = true; (d.quiesced = true ∨ ¬ may))))
    ∧ (∃ (s : State) (r : Nat) (tr : Trig) (entry : List W32) (test : Bool) (p : Phrase), r < s.dies ∧ (s.phrasesOf r).filter (fun y => y.trig == tr) = [p] ∧ (let d := s.dsp r; (let may := p.control = false ∨ s.modeNo = 7 ∨ s.modeNo = 8 ∨ s.modeNo = 9 ∨ s.modeNo = 11 ∧ test = true; (d.quiesced = true ∨ ¬ may))))
    ∧ (∃ (s : State) (r : Nat) (tr : Trig) (entry : List W32) (test : Bool) (p : Phrase), r < s.dies ∧ (s.phrasesOf r).filter (fun y => y.trig == tr) = [p] ∧ (let d := s.dsp r; (let may := p.control = false ∨ s.modeNo = 7 ∨ s.modeNo = 8 ∨ s.modeNo = 9 ∨ s.modeNo = 11 ∧ test = true; (let isOpen := d.acts.any fun a => a.phrase == p.num; d.quiesced = false ∧ may ∧ p.cls = 0 ∧ (isOpen = true ∨ p.maxAct ≤ fget 0 d.actCount p.num)))))
    ∧ (∃ (s : State) (r : Nat) (tr : Trig) (entry : List W32) (test : Bool) (p : Phrase), r < s.dies ∧ (s.phrasesOf r).filter (fun y => y.trig == tr) = [p] ∧ (let d := s.dsp r; (let may := p.control = false ∨ s.modeNo = 7 ∨ s.modeNo = 8 ∨ s.modeNo = 9 ∨ s.modeNo = 11 ∧ test = true; (let isOpen := d.acts.any fun a => a.phrase == p.num; d.quiesced = false ∧ may ∧ p.cls = 0 ∧ (isOpen = true ∨ p.maxAct ≤ fget 0 d.actCount p.num)))))
    ∧ (∃ (s : State) (r : Nat) (tr : Trig) (entry : List W32) (test : Bool) (p : Phrase), r < s.dies ∧ (s.phrasesOf r).filter (fun y => y.trig == tr) = [p] ∧ (let d := s.dsp r; (let may := p.control = false ∨ s.modeNo = 7 ∨ s.modeNo = 8 ∨ s.modeNo = 9 ∨ s.modeNo = 11 ∧ test = true; d.quiesced = false ∧ may ∧ p.cls = 1 ∧ 0 < fget 0 d.actCount p.num)))
    ∧ (∃ (s : State) (r : Nat) (tr : Trig) (entry : List W32) (test : Bool) (p : Phrase), r < s.dies ∧ (s.phrasesOf r).filter (fun y => y.trig == tr) = [p] ∧ (let d := s.dsp r; (let may := p.control = false ∨ s.modeNo = 7 ∨ s.modeNo = 8 ∨ s.modeNo = 9 ∨ s.modeNo = 11 ∧ test = true; (let isOpen := d.acts.any fun a => a.phrase == p.num; d.quiesced = false ∧ may ∧ p.cls = 2 ∧ isOpen = true ∧ fhas d.held p.num = false))))
    ∧ (∃ (s : State) (r : Nat) (tr : Trig) (entry : List W32) (test : Bool) (p : Phrase), r < s.dies ∧ (s.phrasesOf r).filter (fun y => y.trig == tr) = [p] ∧ (let d := s.dsp r; (let may := p.control = false ∨ s.modeNo = 7 ∨ s.modeNo = 8 ∨ s.modeNo = 9 ∨ s.modeNo = 11 ∧ test = true; (let isOpen := d.acts.any fun a => a.phrase == p.num; d.quiesced = false ∧ may ∧ p.cls = 2 ∧ isOpen = true ∧ fhas d.held p.num = true))))
    ∧ (∃ (s : State) (r : Nat) (tr : Trig) (entry : List W32) (test : Bool) (p : Phrase), r < s.dies ∧ (s.phrasesOf r).filter (fun y => y.trig == tr) = [p] ∧ (let d := s.dsp r; (let may := p.control = false ∨ s.modeNo = 7 ∨ s.modeNo = 8 ∨ s.modeNo = 9 ∨ s.modeNo = 11 ∧ test = true; (let isOpen := d.acts.any fun a => a.phrase == p.num; d.quiesced = false ∧ may ∧ p.cls ≤ 2 ∧ isOpen = false ∧ ((p.cls = 0 → fget 0 d.actCount p.num < p.maxAct)) ∧ ((p.cls = 1 → fget 0 d.actCount p.num = 0)) ∧ (let n := (fget [] d.lists p.listKey).length + max 1 (((s.newAct r p entry).withVerbs p d.nextAct (s.idleSlot p)).readyCount p); 64 < n)))))
    ∧ (∃ (s : State) (r : Nat) (tr : Trig) (entry : List W32) (test : Bool) (p : Phrase), r < s.dies ∧ (s.phrasesOf r).filter (fun y => y.trig == tr) = [p] ∧ (let d := s.dsp r; (let may := p.control = false ∨ s.modeNo = 7 ∨ s.modeNo = 8 ∨ s.modeNo = 9 ∨ s.modeNo = 11 ∧ test = true; (let isOpen := d.acts.any fun a => a.phrase == p.num; d.quiesced = false ∧ may ∧ p.cls ≤ 2 ∧ isOpen = false ∧ ((p.cls = 0 → fget 0 d.actCount p.num < p.maxAct)) ∧ ((p.cls = 1 → fget 0 d.actCount p.num = 0)) ∧ (let n := (fget [] d.lists p.listKey).length + max 1 (((s.newAct r p entry).withVerbs p d.nextAct (s.idleSlot p)).readyCount p); n ≤ 64)))))
    ∧ (∃ (s : State) (r : Nat) (tr : Trig) (entry : List W32) (test : Bool) (p : Phrase), r < s.dies ∧ (s.phrasesOf r).filter (fun y => y.trig == tr) = [p] ∧ (let d := s.dsp r; (let may := p.control = false ∨ s.modeNo = 7 ∨ s.modeNo = 8 ∨ s.modeNo = 9 ∨ s.modeNo = 11 ∧ test = true; (let isOpen := d.acts.any fun a => a.phrase == p.num; d.quiesced = false ∧ may ∧ p.cls ≤ 2 ∧ isOpen = false ∧ ((p.cls = 0 → fget 0 d.actCount p.num < p.maxAct)) ∧ ((p.cls = 1 → fget 0 d.actCount p.num = 0)) ∧ (let n := (fget [] d.lists p.listKey).length + max 1 (((s.newAct r p entry).withVerbs p d.nextAct (s.idleSlot p)).readyCount p); n ≤ 64))))) :=
  ⟨⟨(posting (phc 0 0 two) { quiesced := true }), 0, .doorbell, [1, 2], false, (phc 0 0 two), by decide⟩,
   ⟨(posting { phc 0 0 two with control := true } {} |> put [(Reg.MODE_STAT_MODE, 11)]), 0, .doorbell, [1, 2], false, { phc 0 0 two with control := true }, by decide⟩,
   ⟨(posting (phc 0 0 two) { acts := [act9 [1, 0]] }), 0, .doorbell, [1, 2], false, (phc 0 0 two), by decide⟩,
   ⟨(posting (phc 0 0 two) { actCount := [(4, 1)] }), 0, .doorbell, [1, 2], false, (phc 0 0 two), by decide⟩,
   ⟨(posting (phc 1 0 two) { acts := [act9 [1, 0]], actCount := [(4, 1)] }), 0, .doorbell, [1, 2], false, (phc 1 0 two), by decide⟩,
   ⟨(posting (phc 2 3 two) { acts := [act9 [1, 0]] }), 0, .doorbell, [1, 2], false, (phc 2 3 two), by decide⟩,
   ⟨(posting (phc 2 3 two) { acts := [act9 [1, 0]], held := [(4, act9 [])] }), 0, .doorbell, [1, 2], false, (phc 2 3 two), by decide⟩,
   ⟨(posting (phc 2 3 two) { lists := [(11, List.replicate 64 ⟨1, 1, 1⟩)] }), 0, .doorbell, [1, 2], false, (phc 2 3 two), by decide⟩,
   ⟨(posting (phc 0 0 two) {}), 0, .doorbell, [1, 2], false, (phc 0 0 two), by decide⟩,
   ⟨(posting (phc 1 2 two) {}), 0, .doorbell, [1, 2], false, (phc 1 2 two), by decide⟩⟩
theorem wit_Grants :
    (∃ (s : State) (r e : Nat), ∃ k q, r < s.dies ∧ e < 128 ∧ (s.eng r e).run = none ∧ s.grants r = true ∧ (s.dsp r).headOf (ownKeys (e / 16)) = some (k, q) ∧ (s.phraseOf r q.phrase).isSome = true ∧ (s.act r q.phrase q.act).isSome = true)
    ∧ (∃ (s : State) (r e : Nat), ∃ k q, r < s.dies ∧ e < 128 ∧ (s.eng r e).run = none ∧ s.grants r = true ∧ (s.dsp r).headOf (ownKeys (e / 16)) = some (k, q) ∧ (s.phraseOf r q.phrase).isSome = true ∧ (s.act r q.phrase q.act).isSome = true)
    ∧ (∃ (s : State) (r e : Nat), r < s.dies ∧ e < 128 ∧ (s.eng r e).run = none ∧ (s.grants r = false ∨ (s.dsp r).headOf (ownKeys (e / 16)) = none))
    ∧ (∃ (s : State) (r e : Nat), r < s.dies ∧ e < 128 ∧ (s.eng r e).run = none ∧ (s.grants r = false ∨ (s.dsp r).headOf (ownKeys (e / 16)) = none))
    ∧ (∃ (s : State) (r e : Nat), ∃ k q, r < s.dies ∧ e < 128 ∧ (s.eng r e).run = none ∧ (let at_ := (s.eng r e).blockedFrom + 2 * s.rd (rf r Rgn.DISP_CFG_STEAL_DELAY); (let keys := [1, 2, 3, 4, 5, 6, 7].flatMap fun l => (ringOrder (e / 16)).map fun c => 8 + c * 8 + l; (s.eng r e).blocked = true ∧ s.grants r = true ∧ (s.rd (rf r Rgn.DISP_CFG_STEAL_EN)).testBit 0 = true ∧ Reachable s at_ ∧ Plain s ∧ (s.dsp r).headOf (ownKeys (e / 16)) = none ∧ (s.dsp r).headOf keys = some (k, q))))
    ∧ (∃ (s : State) (r e : Nat), ∃ k q, r < s.dies ∧ e < 128 ∧ (s.eng r e).run = none ∧ (let at_ := (s.eng r e).blockedFrom + 2 * s.rd (rf r Rgn.DISP_CFG_STEAL_DELAY); (let keys := [1, 2, 3, 4, 5, 6, 7].flatMap fun l => (ringOrder (e / 16)).map fun c => 8 + c * 8 + l; (s.eng r e).blocked = true ∧ s.grants r = true ∧ (s.rd (rf r Rgn.DISP_CFG_STEAL_EN)).testBit 0 = true ∧ Reachable s at_ ∧ Plain s ∧ (s.dsp r).headOf (ownKeys (e / 16)) = none ∧ (s.dsp r).headOf keys = some (k, q))))
    ∧ (∃ (s : State) (r e : Nat), ∃ h k q, r < s.dies ∧ e < 128 ∧ (s.eng r e).run = none ∧ (let at_ := (s.eng r e).blockedFrom + 2 * s.rd (rf r Rgn.DISP_CFG_XSTEAL_DELAY); (let lends (x : Nat) : Bool := (s.rd (rf x Rgn.DISP_CFG_STEAL_EN)).testBit 1 && !s.noLending x; (s.eng r e).blocked = true ∧ s.grants r = true ∧ lends r = true ∧ Reachable s at_ ∧ Plain s ∧ ((∀ k', fget [] (s.dsp r).lists k' = [])) ∧ ((dieOrder s.dies r).findSome? (fun x => if lends x then (s.portableHead x).map fun y => (x, y) else none) = some (h, k, q)))))
    ∧ (∃ (c : Nat) (d : DispSt) (x : Ready) (l : List Ready), fget [] d.lists (c / 2) = x :: l)
    ∧ (∃ c, c < 8)
    ∧ (∃ (s : State) (h k : Nat) (g : Grant) (rest : List (Nat × Grant)) (p : Phrase) (a : Act), (s.dsp h).away = (k, g) :: rest ∧ Reachable s g.lostAt ∧ Plain s ∧ s.phraseOf h g.phrase = some p ∧ s.act h g.phrase g.act = some a ∧ g.verb < a.verbs.length)
    ∧ (∃ (s : State) (r e : Nat), r < s.dies ∧ e < 128 ∧ (s.eng r e).run = none ∧ s.noLending r = true) :=
  ⟨⟨(posting (phc 0 0 two) (ready1 0 0 [1, 0] {})), 0, 3, 0, ⟨4, 9, 0⟩, by decide⟩,
   ⟨(posting (phc 1 3 two) (ready1 11 1 [3, 1] regsEng) |> fun s => s.modEng 0 3 fun _ => { d := [7, 7] }), 0, 3, 11, ⟨4, 9, 1⟩, by decide⟩,
   ⟨(posting (phc 0 0 two) {}), 0, 3, by decide⟩,
   ⟨(posting (phc 0 0 two) { ready1 0 0 [1, 0] {} with quiesced := true }), 0, 3, by decide⟩,
   ⟨(posting (phc 1 3 two) (ready1 35 0 [1, 0] { blocked := true, blockedFrom := 1002990 }) |> put [(rf 0 Rgn.DISP_CFG_STEAL_EN, 1), (rf 0 Rgn.DISP_CFG_STEAL_DELAY, 20)]), 0, 3, 35, ⟨4, 9, 0⟩, by unfold Plain Reachable; decide⟩,
   ⟨(posting (phc 1 3 two) (ready1 35 0 [1, 0] { blocked := true, blockedFrom := 1000 }) |> put [(rf 0 Rgn.DISP_CFG_STEAL_EN, 1), (rf 0 Rgn.DISP_CFG_STEAL_DELAY, 20)]), 0, 3, 35, ⟨4, 9, 0⟩, by unfold Plain Reachable; decide⟩,
   ⟨(posting (phc 1 5 [{ opc := 7, cost := 2, portable := true }]) (ready1 13 0 [1] {}) |> (fun s => s.modEng 2 5 fun _ => { blocked := true, blockedFrom := 1002990 }) |> put [(rf 0 Rgn.DISP_CFG_STEAL_EN, 2), (rf 2 Rgn.DISP_CFG_STEAL_EN, 2), (rf 2 Rgn.DISP_CFG_XSTEAL_DELAY, 20)]), 2, 5, 0, 13, ⟨4, 9, 0⟩, by refine ⟨by decide, by decide, by decide, by decide, by decide, by decide, by unfold Reachable; decide, by unfold Plain; decide, fun _ => rfl, by decide⟩⟩,
   ⟨5, (ready1 2 0 [1] {}), ⟨4, 9, 0⟩, [], by decide⟩,
   ⟨5, by decide⟩,
   ⟨(posting (phc 1 5 [{ opc := 7, cost := 2, portable := true }]) { acts := [act9 [2]], away := [(300, ⟨0, 4, 9, 0, true, true, 1002000⟩)] }), 0, 300, ⟨0, 4, 9, 0, true, true, 1002000⟩, [], (phc 1 5 [{ opc := 7, cost := 2, portable := true }]), (act9 [2]), by unfold Plain Reachable; decide⟩,
   ⟨((posting (phc 0 0 two) {}).setCond (.region 2) { src := 0 } true), 2, 5, by decide⟩⟩
theorem wit_Completion :
    (∃ (s : State) (r e q : Nat) (g : Grant) (p : Phrase) (a : Act), (s.eng r e).run = some g ∧ s.phraseOf g.home g.phrase = some p ∧ s.act g.home g.phrase g.act = some a ∧ g.xregion = false ∧ g.verb < a.verbs.length ∧ g.act < (s.dsp g.home).nextAct ∧ Plain s)
    ∧ (∃ (s : State) (r e q : Nat) (g : Grant) (p : Phrase) (a : Act), (s.eng r e).run = some g ∧ s.phraseOf g.home g.phrase = some p ∧ s.act g.home g.phrase g.act = some a ∧ g.xregion = false ∧ g.verb < a.verbs.length ∧ g.act < (s.dsp g.home).nextAct ∧ Plain s)
    ∧ (∃ (s : State) (r e q : Nat) (g : Grant) (p : Phrase) (a : Act), (s.eng r e).run = some g ∧ s.phraseOf g.home g.phrase = some p ∧ s.act g.home g.phrase g.act = some a ∧ g.xregion = false ∧ g.verb < a.verbs.length ∧ g.act < (s.dsp g.home).nextAct ∧ Plain s)
    ∧ (∃ (s : State) (r e q : Nat) (g : Grant) (p : Phrase) (a : Act), (s.eng r e).run = some g ∧ s.phraseOf g.home g.phrase = some p ∧ s.act g.home g.phrase g.act = some a ∧ g.xregion = false ∧ g.verb < a.verbs.length ∧ g.act < (s.dsp g.home).nextAct ∧ Plain s)
    ∧ (∃ (s : State) (r e q : Nat) (g : Grant) (p : Phrase) (a : Act), (s.eng r e).run = some g ∧ s.phraseOf g.home g.phrase = some p ∧ s.act g.home g.phrase g.act = some a ∧ g.xregion = false ∧ g.verb < a.verbs.length ∧ g.act < (s.dsp g.home).nextAct ∧ Plain s)
    ∧ (∃ (s : State) (r e q : Nat) (g : Grant) (p : Phrase) (a : Act), (s.eng r e).run = some g ∧ s.phraseOf g.home g.phrase = some p ∧ s.act g.home g.phrase g.act = some a ∧ g.xregion = false ∧ g.verb < a.verbs.length ∧ g.act < (s.dsp g.home).nextAct ∧ Plain s)
    ∧ (∃ (s : State) (r e q : Nat) (g : Grant) (p : Phrase) (a : Act), (s.eng r e).run = some g ∧ s.phraseOf g.home g.phrase = some p ∧ s.act g.home g.phrase g.act = some a ∧ g.xregion = false ∧ g.verb < a.verbs.length ∧ g.act < (s.dsp g.home).nextAct ∧ Plain s)
    ∧ (∃ (s : State) (r e q : Nat) (g : Grant) (p : Phrase) (a : Act), (s.eng r e).run = some g ∧ s.phraseOf g.home g.phrase = some p ∧ s.act g.home g.phrase g.act = some a ∧ g.xregion = false ∧ g.verb < a.verbs.length ∧ g.act < (s.dsp g.home).nextAct ∧ Plain s) :=
  ⟨⟨(posting (phc 0 0 two) (ready1 0 1 [2, 0] (running 0 { vsat := true, wsat := true, addrErr := true }))), 0, 3, 40, ⟨0, 4, 9, 0, false, false, 1002000⟩, (phc 0 0 two), (act9 [2, 0]), by unfold Plain; decide⟩,
   ⟨(posting { phc 1 0 two with deadline := some 2000 } (ready1 0 1 [2, 0] (running 0 { vsat := true }))), 0, 3, 40, ⟨0, 4, 9, 0, false, false, 1002000⟩, { phc 1 0 two with deadline := some 2000 }, (act9 [2, 0]), by unfold Plain; decide⟩,
   ⟨(posting (phc 1 0 two) (ready1 0 1 [2, 0] (running 0 { addrErr := true }))), 0, 3, 40, ⟨0, 4, 9, 0, false, false, 1002000⟩, (phc 1 0 two), (act9 [2, 0]), by unfold Plain; decide⟩,
   ⟨(posting (phc 1 0 two) (ready1 1 1 [2, 0] (running 0 { outs := [(0, 5), (0, 6), (3, 7)], tagIn := true }))), 0, 3, 40, ⟨0, 4, 9, 0, false, false, 1002000⟩, (phc 1 0 two), (act9 [2, 0]), by unfold Plain; decide⟩,
   ⟨(posting (phc 2 0 two) { ready1 1 1 [3, 2] (running 1 { outs := [(0, 5)] }) with held := [(4, act9 [])] }), 0, 3, 40, ⟨0, 4, 9, 1, false, false, 1002000⟩, (phc 2 0 two), (act9 [3, 2]), by unfold Plain; decide⟩,
   ⟨(posting (phc 0 0 two) (ready1 0 0 [1, 2] (running 1 { outs := [(0, 5)] }))), 0, 3, 40, ⟨0, 4, 9, 1, false, false, 1002000⟩, (phc 0 0 two), (act9 [1, 2]), by unfold Plain; decide⟩,
   ⟨(posting (phc 0 0 [{ opc := 7, cost := 2 }]) (ready1 1 0 [2] (running 0 { stores := [(0x1000, 0x11223344)] }))), 0, 3, 40, ⟨0, 4, 9, 0, false, false, 1002000⟩, (phc 0 0 [{ opc := 7, cost := 2 }]), (act9 [2]), by unfold Plain; decide⟩,
   ⟨(posting (phc 0 0 [{ opc := 7, cost := 2 }]) (ready1 1 0 [2] (running 0 {}))), 0, 3, 40, ⟨0, 4, 9, 0, false, false, 1002000⟩, (phc 0 0 [{ opc := 7, cost := 2 }]), (act9 [2]), by unfold Plain; decide⟩⟩
theorem wit_ClassOneDeadline :
    (∃ (s : State) (r : Nat), r < s.dies ∧ r < 8 ∧ s.epochs = true ∧ s.running = true ∧ (let at_ := s.time.epochAt + s.period - s.rd Reg.BEACON_LEAD_LEAD - 500; Plain s ∧ Reachable s at_ ∧ (s.rgn r).frozenPn ≠ some s.pn))
    ∧ (∃ (s : State) (r : Nat), r < s.dies ∧ r < 8 ∧ s.epochs = true ∧ s.running = true ∧ (let at_ := s.time.epochAt + s.period - s.rd Reg.BEACON_LEAD_LEAD - 500; Plain s ∧ Reachable s at_ ∧ (s.rgn r).frozenPn ≠ some s.pn))
    ∧ (∃ (s : State) (r : Nat), r < s.dies ∧ r < 8 ∧ s.epochs = true ∧ s.running = true ∧ (let at_ := s.time.epochAt + s.period - s.rd Reg.BEACON_LEAD_LEAD - 500; Plain s ∧ (s.rgn r).frozenPn = some s.pn ∧ at_ ≤ s.ns))
    ∧ (∃ (s : State) (r : Nat), ∃ n p, r < s.dies ∧ r < 8 ∧ s.epochs = true ∧ s.running = true ∧ Plain s ∧ s.phraseOf r n = some p ∧ Reachable s (s.deadlineOf p s.time.epochAt)) :=
  ⟨⟨(closing 7), 0, by unfold Plain Reachable; decide⟩,
   ⟨(closing 9), 0, by unfold Plain Reachable; decide⟩,
   ⟨({ (closing 7).modRgn 0 (fun x => { x with frozenPn := some 100 }) with time := { ctr := nsTime 1300000, epochAt := 1000000 } }), 0, by unfold Plain; decide⟩,
   ⟨(closing 7), 0, 4, (phc 1 0 two), by unfold Plain Reachable; decide⟩⟩
theorem wit_RegionReports :
    (∃ (s : State) (r : Nat) (x : Snap) (y : SnapArm), (s.rgn r).snap = some x ∧ x.arms = [y] ∧ y.arm < 4 ∧ y.cells.length ≤ 4096)
    ∧ (∃ (s : State) (r : Nat), (s.rgn r).snap = none)
    ∧ (∃ (s : State) (r v : Nat) (l : List Nat), r < s.dies ∧ v < 65536 ∧ s.mode.gaugeWait = false)
    ∧ (∃ (s : State) (r v : Nat) (l : List Nat), r < s.dies ∧ v < 65536 ∧ s.mode.gaugeWait = false)
    ∧ (∃ (s : State) (r v c m p : Nat), r < s.dies ∧ r < 8 ∧ c < 8 ∧ s.mode.gaugeWait = false ∧ c ∈ (s.dsp r).calPend ∧ 0 < m ∧ (let f := (rf r Rgn.DISP_GAUGE_K0_K).at (4 * c); s.rd f < 65536))
    ∧ (∃ (s : State) (r v c m p : Nat), r < s.dies ∧ r < 8 ∧ c < 8 ∧ s.mode.gaugeWait = false ∧ c ∈ (s.dsp r).calPend ∧ 0 < m ∧ (let f := (rf r Rgn.DISP_GAUGE_K0_K).at (4 * c); s.rd f < 65536)) :=
  ⟨⟨((put [(rf 0 Rgn.RANK_BASE_BASE, 0x200000)] (closing 7)).modRgn 0 fun x => { x with snap := some ⟨101, [snapOf]⟩ }), 0, ⟨101, [snapOf]⟩, snapOf, by decide⟩,
   ⟨(closing 7), 0, by decide⟩,
   ⟨(closing 7), 0, 20000, [16000, 17000], by decide⟩,
   ⟨((closing 7).modDisp 0 fun d => { d with gaugeLow := 1 }), 0, 16383, [], by decide⟩,
   ⟨((closing 7).modDisp 0 fun d => { d with calPend := [3, 2] }), 0, 20000, 3, 100, 700, by decide⟩,
   ⟨((closing 7).modDisp 0 fun d => { d with calPend := [3, 2] }), 0, 20000, 3, 100, 101, by decide⟩⟩
theorem wit_MeasurementFrames :
    (∃ (s : State) (r l q d : Nat) (f : MeasFrame), r < s.dies ∧ l < 8 ∧ s.running = true ∧ Plain s ∧ (let m := s.runBy q; (let own := s.on (tf r (24 + l) Tree.TREE_CFG_EN) = false; own ∧ m.lanePowered r l = false)))
    ∧ (∃ (s : State) (r l q d : Nat) (f : MeasFrame), r < s.dies ∧ l < 8 ∧ s.running = true ∧ Plain s ∧ (let m := s.runBy q; (let own := s.on (tf r (24 + l) Tree.TREE_CFG_EN) = false; own ∧ m.lanePowered r l = false)))
    ∧ (∃ (s : State) (r l q d : Nat) (f : MeasFrame), r < s.dies ∧ l < 8 ∧ s.running = true ∧ Plain s ∧ (let m := s.runBy q; (let good := crc16 (measBytes f) = f.crc.toNat ∧ f.codes.length = 4; (let own := s.on (tf r (24 + l) Tree.TREE_CFG_EN) = false; own ∧ m.lanePowered r l = true ∧ ¬ good))))
    ∧ (∃ (s : State) (r l q d : Nat) (f : MeasFrame), r < s.dies ∧ l < 8 ∧ s.running = true ∧ Plain s ∧ (let m := s.runBy q; (let good := crc16 (measBytes f) = f.crc.toNat ∧ f.codes.length = 4; (let own := s.on (tf r (24 + l) Tree.TREE_CFG_EN) = false; own ∧ m.lanePowered r l = true ∧ ¬ good))))
    ∧ (∃ (s : State) (r l q d : Nat) (f : MeasFrame), r < s.dies ∧ l < 8 ∧ s.running = true ∧ Plain s ∧ (let m := s.runBy q; (let now := quarters m.time.ctr; (let old : List LaneFrame := fget [] (s.rgn r).lanes l; (let good := crc16 (measBytes f) = f.crc.toNat ∧ f.codes.length = 4; (let own := s.on (tf r (24 + l) Tree.TREE_CFG_EN) = false; own ∧ m.lanePowered r l = true ∧ good ∧ ((∃ x ∈ old, now < x.start + 1920))))))))
    ∧ (∃ (s : State) (r l q d : Nat) (f : MeasFrame), r < s.dies ∧ l < 8 ∧ s.running = true ∧ Plain s ∧ (let m := s.runBy q; (let now := quarters m.time.ctr; (let old : List LaneFrame := fget [] (s.rgn r).lanes l; (let good := crc16 (measBytes f) = f.crc.toNat ∧ f.codes.length = 4; (let own := s.on (tf r (24 + l) Tree.TREE_CFG_EN) = false; own ∧ m.lanePowered r l = true ∧ good ∧ ((∀ x ∈ old, x.start + 1920 ≤ now))))))))
    ∧ (∃ (s : State) (r l q d : Nat) (f : MeasFrame), r < s.dies ∧ l < 8 ∧ s.running = true ∧ Plain s ∧ (let m := s.runBy q; (let now := quarters m.time.ctr; (let old : List LaneFrame := fget [] (s.rgn r).lanes l; (let good := crc16 (measBytes f) = f.crc.toNat ∧ f.codes.length = 4; (let own := s.on (tf r (24 + l) Tree.TREE_CFG_EN) = false; own ∧ m.lanePowered r l = true ∧ good ∧ ((∀ x ∈ old, x.start + 1920 ≤ now))))))))
    ∧ (∃ (s : State) (r l q d : Nat) (f : MeasFrame), r < s.dies ∧ l < 8 ∧ s.running = true ∧ Plain s ∧ (let m := s.runBy q; (let own := s.on (tf r (24 + l) Tree.TREE_CFG_EN) = false; ¬ own))) :=
  ⟨⟨(measuring 3 []), 0, 0, 40, 200, (mframe 0 [1, 2, 3, 4]), by unfold Plain; decide⟩,
   ⟨(measuring 4 []), 0, 0, 40, 200, (mframe 0 [1, 2, 3, 4]), by unfold Plain; decide⟩,
   ⟨(measuring 7 []), 0, 0, 40, 200, { mframe 0 [1, 2, 3, 4] with crc := 7 }, by unfold Plain; decide⟩,
   ⟨(measuring 7 []), 0, 7, 40, 200, (mframe 0 [1, 2, 3]), by unfold Plain; decide⟩,
   ⟨(measuring 7 [⟨4012000 - 1879, 4012000, mframe 0 [1, 2, 3, 4]⟩]), 0, 0, 40, 200, (mframe 0 [1, 2, 3, 4]), by unfold Plain; decide⟩,
   ⟨(measuring 7 [⟨4012000 - 1880, 4012000, mframe 0 [1, 2, 3, 4]⟩, ⟨0, 4, mframe 0 [1, 2, 3, 4]⟩]), 0, 0, 40, 200, (mframe 0x3F [1, 2, 3, 4]), by unfold Plain; decide⟩,
   ⟨(measuring 7 []), 0, 5, 40, 200, (mframe 0xF [1, 2, 3, 4]), by unfold Plain; decide⟩,
   ⟨(put [(tf 0 31 Tree.TREE_CFG_EN, 1)] (measuring 7 [])), 0, 7, 40, 200, (mframe 0 [1, 2, 3, 4]), by unfold Plain; decide⟩⟩
theorem wit_MeasurementLatch :
    (∃ (s : State) (r : Nat) (test : Bool), r < s.dies ∧ r < 8 ∧ s.epochs = true ∧ s.running = true ∧ Plain s ∧ (let at_ := s.time.epochAt + s.rd (rf r Rgn.MEAS_LATCH_LATCH); Reachable s at_))
    ∧ (∃ (s : State) (r : Nat) (test : Bool), r < s.dies ∧ r < 8 ∧ s.epochs = true ∧ s.running = true ∧ Plain s ∧ (let at_ := s.time.epochAt + s.rd (rf r Rgn.MEAS_LATCH_LATCH); Reachable s at_))
    ∧ (∃ (s : State) (r ch now : Nat) (x : LaneFrame), latched (fget [] (s.rgn r).lanes (ch / 4)) now = some x ∧ (let c := ch % 4; (let at_ := s.rd (rf r Rgn.MEAS_TAB_BASE_BASE) + 12 * ch; x.f.status.getLsbD c = true ∧ c ≤ x.f.hdr.toNat % 4 ∧ now - x.start ≤ 4 * s.rd (rf r Rgn.MEAS_CFG_MAX_AGE))))
    ∧ (∃ (s : State) (r ch now : Nat) (x : LaneFrame), latched (fget [] (s.rgn r).lanes (ch / 4)) now = some x ∧ (let c := ch % 4; (let at_ := s.rd (rf r Rgn.MEAS_TAB_BASE_BASE) + 12 * ch; x.f.status.getLsbD c = true ∧ c ≤ x.f.hdr.toNat % 4 ∧ now - x.start ≤ 4 * s.rd (rf r Rgn.MEAS_CFG_MAX_AGE))))
    ∧ (∃ (s : State) (r ch now : Nat) (x : LaneFrame), latched (fget [] (s.rgn r).lanes (ch / 4)) now = some x ∧ (let c := ch % 4; (let at_ := s.rd (rf r Rgn.MEAS_TAB_BASE_BASE) + 12 * ch; (x.f.status.getLsbD c = false ∨ x.f.hdr.toNat % 4 < c ∨ 4 * s.rd (rf r Rgn.MEAS_CFG_MAX_AGE) < now - x.start))))
    ∧ (∃ (s : State) (r ch now : Nat) (x : LaneFrame), latched (fget [] (s.rgn r).lanes (ch / 4)) now = some x ∧ (let c := ch % 4; (let at_ := s.rd (rf r Rgn.MEAS_TAB_BASE_BASE) + 12 * ch; (x.f.status.getLsbD c = false ∨ x.f.hdr.toNat % 4 < c ∨ 4 * s.rd (rf r Rgn.MEAS_CFG_MAX_AGE) < now - x.start))))
    ∧ (∃ (s : State) (r : Nat), r < s.dies ∧ s.modeNo = 4 ∧ s.running = true ∧ Plain s ∧ Reachable s (s.glimDue r))
    ∧ (∃ (s : State) (r : Nat), r < s.dies ∧ s.modeNo = 4 ∧ s.running = true ∧ Plain s ∧ Reachable s (s.glimDue r)) :=
  ⟨⟨(measuring 7 [⟨4000000, 4000100, mframe 0xF [0x400000, 0x800000, 3, 4]⟩]), 0, false, by unfold Plain Reachable; decide⟩,
   ⟨(measuring 9 []), 0, true, by unfold Plain Reachable; decide⟩,
   ⟨(measuring 7 [⟨4000000, 4000100, mframe 0xF [0x400000, 0x800000, 3, 4]⟩]), 0, 0, 4002000, ⟨4000000, 4000100, mframe 0xF [0x400000, 0x800000, 3, 4]⟩, by decide⟩,
   ⟨(measuring 7 [⟨4000000, 4000100, mframe 0xF [0x400000, 0x800000, 3, 4]⟩]), 0, 1, 4000800, ⟨4000000, 4000100, mframe 0xF [0x400000, 0x800000, 3, 4]⟩, by decide⟩,
   ⟨(measuring 7 [⟨4000000, 4000100, mframe 0xD [0x400000, 0x800000, 3, 4]⟩]), 0, 1, 4000800, ⟨4000000, 4000100, mframe 0xD [0x400000, 0x800000, 3, 4]⟩, by decide⟩,
   ⟨(measuring 7 [⟨4000000, 4000100, mframe 0xD [0x400000, 0x800000, 3, 4]⟩]), 0, 0, 40008000, ⟨4000000, 4000100, mframe 0xD [0x400000, 0x800000, 3, 4]⟩, by decide⟩,
   ⟨(put [(rf 0 Rgn.PWR_GLIM_INT, 2), (rf 0 Rgn.PWR_GLIM_MASK, 3), (rf 0 Rgn.PWR_GLIM_LANES, 1)] (measuring 4 [])), 0, by unfold Plain Reachable; decide⟩,
   ⟨(put [(rf 0 Rgn.PWR_GLIM_INT, 2), (rf 0 Rgn.PWR_GLIM_MASK, 3), (rf 0 Rgn.PWR_GLIM_MISS_WAKE, 1)] (measuring 4 [])), 0, by unfold Plain Reachable; decide⟩⟩
theorem wit_LoopStates :
    (∃ (s : State) (r l : Nat), r < s.dies ∧ l < 64 ∧ s.takesWrites = true)
    ∧ (∃ (s : State) (r l : Nat), r < s.dies ∧ l < 64 ∧ s.takesWrites = true)
    ∧ (∃ (s : State) (r l : Nat), r < s.dies ∧ l < 64 ∧ s.takesWrites = true)
    ∧ (∃ (s : State) (r l action n : Nat), r < s.dies ∧ s.epochs = true ∧ l < 64 ∧ action < 3 ∧ (s.rgn r).loopReq = [(l, action, n)] ∧ n < s.time.epochAt / 2)
    ∧ (∃ (s : State) (r l action n : Nat), r < s.dies ∧ s.epochs = true ∧ l < 64 ∧ action < 3 ∧ (s.rgn r).loopReq = [(l, action, n)] ∧ n < s.time.epochAt / 2)
    ∧ (∃ (s : State) (r l action n : Nat), r < s.dies ∧ s.epochs = true ∧ (s.rgn r).loopReq = [(l, action, n)] ∧ s.time.epochAt / 2 ≤ n) :=
  ⟨⟨(looping []), 0, 3, by decide⟩,
   ⟨(looping [(5, 1, 7)]), 0, 63, by decide⟩,
   ⟨loopingArmed, 0, 3, by decide⟩,
   ⟨(looping [(3, 0, 499999)]), 0, 3, 0, 499999, by decide⟩,
   ⟨(looping [(2, 0, 499999)]), 0, 2, 0, 499999, by decide⟩,
   ⟨(looping [(3, 1, 500000)]), 0, 3, 1, 500000, by decide⟩⟩
theorem wit_SampledValues :
    (∃ (s : State) (f : SvFrame), s.svMatch f = none)
    ∧ (∃ (s : State) (f : SvFrame) (i : Nat) (x : SvAsdu), s.dies ≤ 8 ∧ s.svMatch f = some i ∧ f.asdus = [x] ∧ Reachable s (timeNs f.ingress) ∧ Plain s)
    ∧ (∃ (s : State) (f : SvFrame) (i : Nat) (x : SvAsdu), s.dies ≤ 8 ∧ s.svMatch f = some i ∧ f.asdus = [x] ∧ Reachable s (timeNs f.ingress) ∧ Plain s)
    ∧ (∃ (s : State) (i n : Nat), i < 32 ∧ s.on (Reg.SV_CFG_EN.win i) = true ∧ (fget {} s.stn.sv i).lastAt = some n ∧ (let due := n + s.rd (Reg.SV_CFG_LOSS_N.win i) * 1000000000 / max 1 (s.rd (Reg.SV_RATE_RATE.win i)) + 200; Reachable s due ∧ Plain s)) :=
  ⟨⟨(station 7 {}), { svFrame [asdu 5 1] with mac := 9 }, by decide⟩,
   ⟨(station 7 {}), (svFrame [asdu 5 1]), 1, (asdu 5 1), by unfold Plain Reachable; decide⟩,
   ⟨(station 7 { sv := [(1, { cnt := some 4 })] }), (svFrame [asdu 5 0]), 1, (asdu 5 0), by unfold Plain Reachable; decide⟩,
   ⟨(station 7 { sv := [(1, { lastAt := some 1000000 })] }), 1, 1000000, by unfold Plain Reachable; decide⟩⟩
theorem wit_Goose :
    (∃ (s : State) (m : GooseMsg), s.gooseMatch m = none)
    ∧ (∃ (s : State) (m : GooseMsg) (i : Nat), s.gooseMatch m = some i ∧ Reachable s (timeNs m.ingress) ∧ Plain s ∧ (let old := fget {} s.stn.goose i; old.stNum = some m.stNum))
    ∧ (∃ (s : State) (m : GooseMsg) (i : Nat), s.gooseMatch m = some i ∧ Reachable s (timeNs m.ingress) ∧ Plain s ∧ (let old := fget {} s.stn.goose i; old.stNum ≠ some m.stNum))
    ∧ (∃ (s : State) (m : GooseMsg) (i : Nat), s.gooseMatch m = some i ∧ Reachable s (timeNs m.ingress) ∧ Plain s ∧ (let old := fget {} s.stn.goose i; old.stNum ≠ some m.stNum))
    ∧ (∃ (s : State) (m : GooseMsg) (i : Nat), s.gooseMatch m = some i ∧ Reachable s (timeNs m.ingress) ∧ Plain s ∧ (let old := fget {} s.stn.goose i; old.stNum ≠ some m.stNum ∧ (s.on Reg.MODE_RT_EN = false ∨ s.rd Reg.MODE_RT_SUB ≠ i)))
    ∧ (∃ (s : State) (m : GooseMsg) (i : Nat), s.gooseMatch m = some i ∧ Reachable s (timeNs m.ingress) ∧ Plain s ∧ (let old := fget {} s.stn.goose i; old.stNum = none ∧ s.on Reg.MODE_RT_EN = true ∧ s.rd Reg.MODE_RT_SUB = i ∧ m.members.getD (s.rd Reg.MODE_RT_MEMBER) 0 = 0))
    ∧ (∃ (s : State) (i n : Nat), (fget {} s.stn.goose i).deadline = some n ∧ (n + 800 ≤ quarters s.time.ctr ∨ (s.running = true ∧ n + 800 < 2 ^ 66)) ∧ Plain s)
    ∧ (∃ (s : State) (n k : Nat) (ws : FMap W32) (rest : List (Nat × FMap W32)), (fget {} s.stn.pubs n).changes = (k, ws) :: rest ∧ (let at_ := s.time.epochAt + s.rd Reg.STN_GOOSE_OFS; k ≤ s.pn ∧ Reachable s at_ ∧ Plain s))
    ∧ (∃ (s : State) (n k : Nat) (ws : FMap W32) (rest : List (Nat × FMap W32)), (fget {} s.stn.pubs n).changes = (k, ws) :: rest ∧ s.pn < k)
    ∧ (∃ (s : State) (m : GooseMsg) (i : Nat), ∃ d, s.gooseMatch m = some i ∧ Reachable s (timeNs m.ingress) ∧ Plain s ∧ (let old := fget {} s.stn.goose i; old.deadline = some d ∧ d < quarters m.ingress))
    ∧ (∃ (s : State) (n at_ : Nat), (fget {} s.stn.pubs n).nextAt = some at_ ∧ Reachable s at_ ∧ Plain s ∧ ((∀ p, p < 2 → let m := s.runTo at_; m.holdsBack p (max (quarters m.time.ctr) (fget 0 m.stn.busy p)) 1522 = false))) :=
  ⟨⟨(station 7 {}), (gmsg 7 [1]), by decide⟩,
   ⟨(station 7 { goose := [(2, { stNum := some 7, words := [3, 4], expired := true })] }), (gmsg 7 [1, 2]), 2, by unfold Plain Reachable; decide⟩,
   ⟨(station 7 { goose := [(2, { stNum := some 7, words := [3, 4] })] }), (gmsg 8 [1, 2]), 2, by unfold Plain Reachable; decide⟩,
   ⟨(put [(Reg.MODE_RT_EN, 1), (Reg.MODE_RT_SUB, 2)] (station 7 { goose := [(2, { stNum := some 7, words := [3, 4] })] })), (gmsg 8 [1, 2]), 2, by unfold Plain Reachable; decide⟩,
   ⟨(station 7 { goose := [(2, { stNum := some 7, words := [3, 4] })] }), (gmsg 8 [1, 2]), 2, by unfold Plain Reachable; decide⟩,
   ⟨(put [(Reg.MODE_RT_EN, 1), (Reg.MODE_RT_SUB, 2)] (station 7 {})), (gmsg 8 [0, 2]), 2, by unfold Plain Reachable; decide⟩,
   ⟨(station 7 { goose := [(2, { deadline := some 1500000, words := [3, 4] })] }), 2, 1500000, by unfold Plain; decide⟩,
   ⟨(station 7 { pubs := [(3, { changes := [(100, [(1, 6)])], stNum := 8, words := [(0, 5)] })] }), 3, 100, [(1, 6)], [], by unfold Plain Reachable; decide⟩,
   ⟨(station 7 { pubs := [(3, { changes := [(101, [(1, 6)])], stNum := 8, words := [(0, 5)] })] }), 3, 101, [(1, 6)], [], by decide⟩,
   ⟨(station 7 { goose := [(2, { stNum := some 7, words := [3, 4], deadline := some 4013999 })] }), (gmsg 7 [1, 2]), 2, 4013999, by unfold Plain Reachable; decide⟩,
   ⟨(station 7 { pubs := [(3, { nextAt := some 1200000, stNum := 8, words := [(0, 5)], interval := 700000 })] }), 3, 1200000, by unfold Plain Reachable; decide⟩⟩
theorem wit_GlimmerGrid : ∃ s : State, s.modeNo = 4 :=
  ⟨{ treeIn 4 1 with time := { ctr := nsTime 1003000, epochAt := 1000000 } }, by decide⟩
theorem wit_IntegratorStage :
    (∃ (s : State) (r e : Nat) (g : Grant) (p : Phrase) (a : Act) (v : VerbDecl), s.runs r e 0x04 = some (g, p, a, v) ∧ a.loops.testBit (par v 0) = true ∧ (s.mem g p).good true (s.loopAt g.home (par v 0) + 0x12C) = true)
    ∧ (∃ (s : State) (r e : Nat) (g : Grant) (p : Phrase) (a : Act) (v : VerbDecl), s.runs r e 0x04 = some (g, p, a, v) ∧ a.loops.testBit (par v 0) = true ∧ (s.mem g p).good true (s.loopAt g.home (par v 0) + 0x12C) = true) :=
  ⟨⟨((put [(rf 0 Rgn.LOOP_BASE_BASE, 0x4000), (rf 0 Rgn.LOOP_STATE0_CLOSED, 2)] (verbing 4 [1] regsEng)).rgnWrite 0 0x4260 [0, 0, 0, 0x20, 0, 0, 0, 0xC0, 0, 0, 0, 0x30, 0, 0, 0, 0x11]), 0, 0, gr, (ph 4 [1]), ac, (vd 4 [1]), by decide⟩,
   ⟨(((put [(rf 0 Rgn.LOOP_BASE_BASE, 0x4000), (rf 0 Rgn.LOOP_STATE0_CLOSED, 2)] (verbing 4 [1] regsEng)).rgnWrite 0 0x4260 [0, 0, 0, 0x20, 0, 0, 0, 0xC0, 0, 0, 0, 0x30, 0, 0, 0, 0x11]).rgnWrite 0 0x414C [1]), 0, 0, gr, (ph 4 [1]), ac, (vd 4 [1]), by decide⟩⟩
theorem wit_CounterRate :
    (∃ s : State, s.pending = [] ∧ s.running = true ∧ s.time.armed = none ∧ s.time.committed = none)
    ∧ (∃ s : State, s.takesWrites = true ∧ 0x07FEF9DB23 ≤ word2 s 0x1010 Reg.TIME_INCR_INCR 8 % 2 ^ 40 ∧ word2 s 0x1010 Reg.TIME_INCR_INCR 8 % 2 ^ 40 ≤ 0x08010624DD)
    ∧ (∃ s : State, s.takesWrites = true ∧ ¬ 0x07FEF9DB23 ≤ word2 s 0x1010 Reg.TIME_INCR_INCR 7 % 2 ^ 40) :=
  ⟨⟨inMode 7, by decide⟩,
   ⟨{ inMode 7 with held := [(0x1010, 0)] }, by decide⟩,
   ⟨{ inMode 7 with held := [(0x1010, 5)] }, by decide⟩⟩
theorem wit_ClausedLoops : ∃ (s : State) (r l i : Nat) (k : Armed) (n : Nat), r < s.dies ∧ l < 64 ∧ s.takesWrites = true ∧ s.clause.armed = some k ∧ i < 76 ∧ (i < 2 ∨ 8 ≤ i)
    ∧ (s.preview k.items).rgnWord r ((s.preview k.items).loopAt r l + 4 * i) ≠ s.rgnWord r (s.loopAt r l + 4 * i)
    ∧ s.epochs = true ∧ (s.rgn r).loopReq = [] ∧ s.ns / 2 < n / 2 :=
  ⟨loopingArmed, 0, 3, 75, armedFor 200 [.param 0 0x44EC [1, 2, 3, 4]], 1003002, by decide⟩
theorem wit_GateMatrices :
    (∃ (s : State) (c p : Nat), p < 4)
    ∧ (∃ (s : State) (c p : Nat), p < 4)
    ∧ (∃ (s : State) (c p : Nat), p < 4)
    ∧ (∃ (s : State) (c p : Nat), p < 4)
    ∧ (∃ (s : State) (c p : Nat), p < 4)
    ∧ (∃ (s : State) (c p : Nat), p < 4)
    ∧ (∃ (s : State) (c p : Nat), p < 4)
    ∧ (∃ (s : State) (c p : Nat), p < 4)
    ∧ (∃ (s : State) (c p : Nat), p < 4)
    ∧ (∃ (s : State) (c p : Nat), p < 4)
    ∧ (∃ (s : State) (c p : Nat), p < 4)
    ∧ (∃ (s : State) (c p : Nat), p < 4)
    ∧ (∃ (s : State) (c p : Nat), p < 4) :=
  ⟨⟨(gating {} {} id), 0, 1, by decide⟩,
   ⟨(gating {} {} id), 0, 1, by decide⟩,
   ⟨(gating {} { shadow := [⟨4000000, 8, 3, [{ on := 1 }]⟩], active := [(3, { on := 2 }), (5, {})] } id), 0, 1, by decide⟩,
   ⟨(gating {} {} id), 0, 1, by decide⟩,
   ⟨(gating {} {} id), 0, 1, by decide⟩,
   ⟨(gating {} { shadow := [⟨4000000, 8, 3, [{ on := 1 }]⟩], active := [(3, { on := 2 }), (5, { vg := 4 })] } id), 0, 1, by decide⟩,
   ⟨(gating {} {} id), 0, 1, by decide⟩,
   ⟨(gating {} { shadow := [⟨4000000, 8, 3, [{ on := 1 }]⟩], active := [(3, { on := 2 }), (5, { vg := 4 })] } (fun x => { x with sw := { x.sw with riseAt := [(1, 4000800)] } })), 0, 1, by decide⟩,
   ⟨(gating {} { shadow := [⟨4000000, 8, 3, [{ on := 1 }]⟩], active := [(3, { on := 2 }), (5, { vg := 4 })] } (fun x => { x with sw := { x.sw with riseAt := [(1, 4000799)] } })), 0, 1, by decide⟩,
   ⟨(gating {} {} id), 0, 1, by decide⟩,
   ⟨(gating {} { on := true, enabled := true } id), 0, 1, by decide⟩,
   ⟨(gating {} { on := true } (fun x => { x with prot := { x.prot with enOut := [(1, 0)] } })), 0, 1, by decide⟩,
   ⟨(gating {} { on := true, desatOff := [2] } id), 0, 1, by decide⟩⟩
theorem wit_GateLinkLife :
    (∃ (s : State) (c p q : Nat), ∃ cmd, p < 4 ∧ (s.cell c).up = true ∧ (s.cell c).linkEn p = true ∧ (let x := s.cell c; ((∃ seq i, cmd = Instr.gmlIdent c p q false seq i) ∨ (∃ seq first crc, cmd = .gmlCfgEcho c p q false seq first crc) ∨ (∃ seq first r, cmd = .gmlSense c p q false seq first r) ∨ (∃ seq off g i r age, cmd = .gmlEdge c p q false seq off g i r age) ∨ (∃ b, cmd = .gmlFault c p q false b))))
    ∧ (∃ (s : State) (c p q : Nat), ∃ cmd, p < 4 ∧ (s.cell c).up = true ∧ (s.cell c).linkEn p = true ∧ (let x := s.cell c; ((∃ seq i, cmd = Instr.gmlIdent c p q false seq i) ∨ (∃ seq first crc, cmd = .gmlCfgEcho c p q false seq first crc) ∨ (∃ seq first r, cmd = .gmlSense c p q false seq first r) ∨ (∃ seq off g i r age, cmd = .gmlEdge c p q false seq off g i r age) ∨ (∃ b, cmd = .gmlFault c p q false b))))
    ∧ (∃ (s : State) (c p q : Nat), p < 4 ∧ (s.cell c).up = true ∧ (s.cell c).linkEn p = true)
    ∧ (∃ (s : State) (c p q : Nat), ∃ i, p < 4 ∧ (s.cell c).up = true ∧ (s.cell c).linkEn p = true ∧ (let x := s.cell c; identOk i = false))
    ∧ (∃ (s : State) (c p q : Nat), ∃ i, p < 4 ∧ (s.cell c).up = true ∧ (s.cell c).linkEn p = true ∧ (let x := s.cell c; identOk i = false))
    ∧ (∃ (s : State) (c p q : Nat), ∃ i, p < 4 ∧ (s.cell c).up = true ∧ (s.cell c).linkEn p = true ∧ (let x := s.cell c; (let l := x.link p; identOk i = true ∧ l.phase ≠ 0)))
    ∧ (∃ (s : State) (c p q : Nat), ∃ (seq : Nat) (i : Ident), p < 4 ∧ (s.cell c).up = true ∧ (s.cell c).linkEn p = true ∧ (let x := s.cell c; (let l := x.link p; identOk i = true ∧ l.phase = 0 ∧ l.lost = false)))
    ∧ (∃ (s : State) (c p q : Nat), ∃ (seq : Nat) (i : Ident), p < 4 ∧ (s.cell c).up = true ∧ (s.cell c).linkEn p = true ∧ (let x := s.cell c; (let l := x.link p; identOk i = true ∧ l.phase = 0 ∧ l.lost = false)))
    ∧ (∃ (s : State) (c p q : Nat), ∃ (o : CfgOut), ∃ e, p < 4 ∧ (s.cell c).up = true ∧ (s.cell c).linkEn p = true ∧ (let x := s.cell c; (let l := x.link p; l.out = some o ∧ o.first < 128 ∧ o.read = false ∧ o.entries = [e] ∧ l.phase = 3 ∧ l.todo = [] ∧ s.dieCfg c p o.first = e ∧ e.iso = false)))
    ∧ (∃ (s : State) (c p q : Nat), ∃ (o : CfgOut), ∃ crc, p < 4 ∧ (s.cell c).up = true ∧ (s.cell c).linkEn p = true ∧ (let x := s.cell c; (let l := x.link p; l.out = some o ∧ o.first < 128 ∧ o.read = false ∧ crc ≠ cfgCrc o.entries ∧ o.tries < x.rd Els.GML_CFG_RETRY)))
    ∧ (∃ (s : State) (c p q : Nat), ∃ (o : CfgOut), ∃ crc, p < 4 ∧ (s.cell c).up = true ∧ (s.cell c).linkEn p = true ∧ (let x := s.cell c; (let l := x.link p; l.out = some o ∧ o.first < 128 ∧ o.read = false ∧ crc ≠ cfgCrc o.entries ∧ o.tries < x.rd Els.GML_CFG_RETRY)))
    ∧ (∃ (s : State) (c p q : Nat), ∃ (o : CfgOut), p < 4 ∧ (s.cell c).up = true ∧ (s.cell c).linkEn p = true ∧ (let x := s.cell c; (let l := x.link p; l.out = some o ∧ o.first < 128 ∧ o.read = false ∧ CellReach s c (o.sentAt + 40000) ∧ o.tries < x.rd Els.GML_CFG_RETRY)))
    ∧ (∃ (s : State) (c p q : Nat), ∃ (o : CfgOut), p < 4 ∧ (s.cell c).up = true ∧ (s.cell c).linkEn p = true ∧ (let x := s.cell c; (let l := x.link p; l.out = some o ∧ o.first < 128 ∧ o.read = false ∧ CellReach s c (o.sentAt + 40000) ∧ x.rd Els.GML_CFG_RETRY ≤ o.tries ∧ l.todo = [] ∧ l.phase = 3)))
    ∧ (∃ (s : State) (c p q : Nat), p < 4 ∧ (s.cell c).up = true ∧ (s.cell c).linkEn p = true ∧ (let x := s.cell c; (let l := x.link p; l.out = none)))
    ∧ (∃ (s : State) (c p q : Nat), p < 4 ∧ (s.cell c).up = true ∧ (s.cell c).linkEn p = true ∧ (let x := s.cell c; (let l := x.link p; CellReach s c (l.txEnd + 8000))))
    ∧ (∃ (s : State) (c p q : Nat), p < 4 ∧ (s.cell c).up = true ∧ (s.cell c).linkEn p = true ∧ (let x := s.cell c; (let l := x.link p; l.phase ≠ 0 ∧ CellReach s c (l.heardAt + 4000 * x.rd Els.GML_CFG_TMO))))
    ∧ (∃ (s : State) (c p q : Nat), p < 4 ∧ (s.cell c).up = true ∧ (s.cell c).linkEn p = true ∧ (let x := s.cell c; (let l := x.link p; l.phase = 0 ∧ CellReach s c (l.reqAt + 80000)))) :=
  ⟨⟨(gating { phase := 3 } {} id), 0, 1, 40, (.gmlIdent 0 1 40 false 7 (ident 1)), by exact ⟨by decide, by decide, by decide, .inl ⟨_, _, rfl⟩⟩⟩,
   ⟨(gating { phase := 3 } {} id), 0, 1, 40, (.gmlCfgEcho 0 1 40 false 7 3 9), by exact ⟨by decide, by decide, by decide, .inr (.inl ⟨_, _, _, rfl⟩)⟩⟩,
   ⟨(gating { phase := 3 } {} id), 0, 1, 40, by decide⟩,
   ⟨(gating { phase := 3 } {} (fun x => { x with prot := { x.prot with enOut := [(1, 0)] } })), 0, 1, 40, {}, by decide⟩,
   ⟨(gating {} {} id), 0, 1, 40, { ident 3 with dies := 129 }, by decide⟩,
   ⟨(gating { phase := 2, heardAt := 5 } {} id), 0, 1, 40, (ident 3), by decide⟩,
   ⟨(gating {} {} id), 0, 1, 40, 7, (ident 3), by decide⟩,
   ⟨(gating {} {} id), 0, 1, 40, 7, { ident 0 with serial := 0 }, by decide⟩,
   ⟨(gating { phase := 3, out := some (cfg0 0) } {} id), 0, 1, 40, (cfg0 0), { on := 3, off := 0xFE, vg := 5 }, by decide⟩,
   ⟨(gating { phase := 3, out := some (cfg0 1), seq := 255 } {} id), 0, 1, 40, (cfg0 1), 0, by decide⟩,
   ⟨(gating { phase := 3, out := some (cfg0 0), seq := 254 } {} id), 0, 1, 40, (cfg0 0), 0, by decide⟩,
   ⟨(gating { phase := 3, out := some (cfg0 0), seq := 254 } {} id), 0, 1, 40, (cfg0 0), by unfold CellReach; decide⟩,
   ⟨(gating { phase := 3, out := some (cfg0 9), seq := 254 } {} id), 0, 1, 40, (cfg0 9), by unfold CellReach; decide⟩,
   ⟨(gating { phase := 3 } {} id), 0, 1, 40, by decide⟩,
   ⟨(gating { phase := 3, txEnd := 4013000 } {} id), 0, 1, 40, by unfold CellReach; decide⟩,
   ⟨(gating { phase := 3, heardAt := 4000000 } {} (fun x => { x with prot := { x.prot with enOut := [(1, 0)] } })), 0, 1, 40, by unfold CellReach; decide⟩,
   ⟨(gating { reqAt := 4000000 } {} id), 0, 1, 40, by unfold CellReach; decide⟩⟩
theorem wit_TrimsAndSense :
    (∃ (s : State) (c p q seq d : Nat), ∃ (g age : Nat) (i : BitVec 16) (v : BitVec 8), p < 4 ∧ d < 128 ∧ (s.cell c).up = true ∧ (s.cell c).linkEn p = true ∧ (let x := s.cell c; (let l := x.link p; d = 16 * g ∧ s.trimRuns c p = true ∧ l.seqOk seq = true ∧ x.rd Els.DIE_TRIM_IMIN ≤ i.toInt.natAbs ∧ age ≤ 20000 ∧ v ≠ 0x80 ∧ d < s.nDies c p ∧ s.dieIso c p d = false ∧ (let a : Int × Nat := fget (0, 0) l.acc (2 * d); (let n := 2 ^ x.rd Els.DIE_TRIM_EVENTS; a.2 + 1 < n)))))
    ∧ (∃ (s : State) (c p q seq d : Nat), ∃ (g age : Nat) (i : BitVec 16) (v : BitVec 8), p < 4 ∧ d < 128 ∧ (s.cell c).up = true ∧ (s.cell c).linkEn p = true ∧ (let x := s.cell c; (let l := x.link p; d = 16 * g ∧ s.trimRuns c p = true ∧ l.seqOk seq = true ∧ x.rd Els.DIE_TRIM_IMIN ≤ i.toInt.natAbs ∧ age ≤ 20000 ∧ v ≠ 0x80 ∧ d < s.nDies c p ∧ s.dieIso c p d = false ∧ (let a : Int × Nat := fget (0, 0) l.acc (2 * d); (let n := 2 ^ x.rd Els.DIE_TRIM_EVENTS; (let m := (a.1 + v.toInt).tdiv n; (let db : Int := x.rd Els.DIE_TRIM_DB; n ≤ a.2 + 1 ∧ -db ≤ m ∧ m ≤ db)))))))
    ∧ (∃ (s : State) (c p q seq d : Nat), ∃ (g age : Nat) (i : BitVec 16) (v : BitVec 8), p < 4 ∧ d < 128 ∧ (s.cell c).up = true ∧ (s.cell c).linkEn p = true ∧ (let x := s.cell c; (let l := x.link p; d = 16 * g ∧ s.trimRuns c p = true ∧ l.seqOk seq = true ∧ x.rd Els.DIE_TRIM_IMIN ≤ i.toInt.natAbs ∧ age ≤ 20000 ∧ v ≠ 0x80 ∧ d < s.nDies c p ∧ s.dieIso c p d = false ∧ (let a : Int × Nat := fget (0, 0) l.acc (2 * d); (let n := 2 ^ x.rd Els.DIE_TRIM_EVENTS; (let m := (a.1 + v.toInt).tdiv n; (let db : Int := x.rd Els.DIE_TRIM_DB; (let lim : Int := s.cval c (dieTab p + 16) 1; (let trim := s8 (dieByte s c p d 0); n ≤ a.2 + 1 ∧ db < m ∧ -lim < trim ∧ -128 < trim)))))))))
    ∧ (∃ (s : State) (c p q seq d : Nat), ∃ (g age : Nat) (i : BitVec 16) (v : BitVec 8), p < 4 ∧ d < 128 ∧ (s.cell c).up = true ∧ (s.cell c).linkEn p = true ∧ (let x := s.cell c; (let l := x.link p; d = 16 * g ∧ s.trimRuns c p = true ∧ l.seqOk seq = true ∧ x.rd Els.DIE_TRIM_IMIN ≤ i.toInt.natAbs ∧ age ≤ 20000 ∧ v ≠ 0x80 ∧ d < s.nDies c p ∧ s.dieIso c p d = false ∧ (let a : Int × Nat := fget (0, 0) l.acc (2 * d); (let n := 2 ^ x.rd Els.DIE_TRIM_EVENTS; (let m := (a.1 + v.toInt).tdiv n; (let db : Int := x.rd Els.DIE_TRIM_DB; (let lim : Int := s.cval c (dieTab p + 16) 1; (let trim := s8 (dieByte s c p d 0); n ≤ a.2 + 1 ∧ m < -db ∧ lim ≤ trim)))))))))
    ∧ (∃ (s : State) (c p q seq d : Nat), ∃ (g age : Nat) (off : Bool) (i : BitVec 16) (w : List (BitVec 8)), p < 4 ∧ d < 128 ∧ (s.cell c).up = true ∧ (s.cell c).linkEn p = true ∧ (let x := s.cell c; (let l := x.link p; (s.trimRuns c p = false ∨ l.seqOk seq = false ∨ 20000 < age ∨ i.toInt.natAbs < x.rd Els.DIE_TRIM_IMIN))))
    ∧ (∃ (s : State) (c p q seq d : Nat), ∃ (g age : Nat) (off : Bool) (i : BitVec 16) (w : List (BitVec 8)), p < 4 ∧ d < 128 ∧ (s.cell c).up = true ∧ (s.cell c).linkEn p = true ∧ (let x := s.cell c; (let l := x.link p; (s.trimRuns c p = false ∨ l.seqOk seq = false ∨ 20000 < age ∨ i.toInt.natAbs < x.rd Els.DIE_TRIM_IMIN))))
    ∧ (∃ (s : State) (c p q seq d : Nat), ∃ r : SenseRec, p < 4 ∧ d < 128 ∧ (s.cell c).up = true ∧ (s.cell c).linkEn p = true ∧ (let x := s.cell c; (let l := x.link p; l.phase ≠ 0)))
    ∧ (∃ (s : State) (c p q seq d : Nat), ∃ r : SenseRec, p < 4 ∧ d < 128 ∧ (s.cell c).up = true ∧ (s.cell c).linkEn p = true ∧ (let x := s.cell c; (let l := x.link p; l.phase ≠ 0))) :=
  ⟨⟨(gating { phase := 3, okSeq := 7, acc := [(0, (5, 1))] } {} id), 0, 1, 40, 7, 0, 0, 100, 5000, 3, by decide⟩,
   ⟨(gating { phase := 3, okSeq := 7, acc := [(0, (5, 999))] } {} id), 0, 1, 40, 7, 0, 0, 100, 5000, 3, by decide⟩,
   ⟨(gating { phase := 3, okSeq := 7, acc := [(0, (50000, 999))] } {} id), 0, 1, 40, 7, 0, 0, 100, 5000, 3, by decide⟩,
   ⟨((gating { phase := 3, okSeq := 7, acc := [(0, (-50000, 999))] } {} id).cellWrite 0 (dieTab 1 + 32) [6]), 0, 1, 40, 7, 0, 0, 100, 5000, 3, by decide⟩,
   ⟨(gating { phase := 3, okSeq := 7, acc := [(0, (5, 1))] } {} id), 0, 1, 40, 8, 0, 0, 5000, false, 100, [3], by decide⟩,
   ⟨(gating { phase := 3, okSeq := 7, acc := [(0, (5, 1))] } {} id), 0, 1, 40, 7, 0, 0, 20001, true, 100, [3], by decide⟩,
   ⟨(gating { phase := 3, okSeq := 7 } {} id), 0, 1, 40, 7, 1, { t := 3000, s := 100, valid := true }, by decide⟩,
   ⟨(gating { phase := 3, okSeq := 7 } {} id), 0, 1, 40, 7, 1, { t := 100, s := 100, valid := true }, by decide⟩⟩
theorem wit_RegisterWrites :
    (∃ (s : State) (a : Nat) (v : W32), a % 4 ≠ 0)
    ∧ (∃ (s : State) (a : Nat) (v : W32), a % 4 = 0 ∧ a < 0x300000 ∧ s.takesWrites = true ∧ basMulti a = none ∧ s.basAssigned a = false ∧ a ≠ 0x4000)
    ∧ (∃ (s : State) (a : Nat) (v : W32), a % 4 = 0 ∧ a < 0x300000 ∧ s.takesWrites = true ∧ basMulti a = none ∧ s.basAssigned a = false ∧ a ≠ 0x4000)
    ∧ (∃ (s : State) (a b n : Nat) (v : W32), a % 4 = 0 ∧ a < 0x300000 ∧ a ≠ 0x4000 ∧ s.takesWrites = true ∧ basMulti a = some (b, n) ∧ b ≤ a ∧ a < b + 4 * (n - 1))
    ∧ (∃ (s : State) (a b n : Nat) (v : W32), a % 4 = 0 ∧ a < 0x300000 ∧ a ≠ 0x4000 ∧ s.takesWrites = true ∧ basMulti a = some (b, n) ∧ b ≤ a ∧ a < b + 4 * (n - 1))
    ∧ (∃ (s : State) (a : Nat) (v : W32), a % 4 = 0 ∧ a < 0x300000 ∧ (a ≠ 0x4000 ∨ v.toNat < 2147483648) ∧ s.takesWrites = false)
    ∧ (∃ (s : State) (a : Nat) (v : W32), a % 4 = 0 ∧ a < 0x300000 ∧ (a ≠ 0x4000 ∨ v.toNat < 2147483648) ∧ s.takesWrites = false)
    ∧ (∃ (s : State) (a : Nat) (v : W32), a % 4 = 0 ∧ a < 0x300000 ∧ s.takesWrites = true ∧ basMulti a = none ∧ s.basAssigned a = true ∧ s.wordLocked a = false ∧ a ≠ 0x4000 ∧ a ≠ 0x506C ∧ a ≠ 0x5060 ∧ a ≠ 0x403C ∧ ((if a < 0x100000 then s.chipAct a v else s.rgnAct a v) = none) ∧ ((s.wordFields a).map fun f => f.lsb).Nodup)
    ∧ (∃ (s : State) (a : Nat) (v : W32), a % 4 = 0 ∧ a < 0x300000 ∧ s.takesWrites = true ∧ basMulti a = none ∧ s.basAssigned a = true ∧ s.wordLocked a = false ∧ a ≠ 0x4000 ∧ a ≠ 0x506C ∧ a ≠ 0x5060 ∧ a ≠ 0x403C ∧ ((if a < 0x100000 then s.chipAct a v else s.rgnAct a v) = none) ∧ ((s.wordFields a).map fun f => f.lsb).Nodup)
    ∧ (∃ (s : State) (c a : Nat) (v : W32), (a % 4 ≠ 0 ∨ s.jtagOpen c = false ∨ elsAssigned a = false))
    ∧ (∃ (s : State) (c a : Nat) (v : W32), (a % 4 ≠ 0 ∨ s.jtagOpen c = false ∨ elsAssigned a = false))
    ∧ (∃ (s : State) (c a : Nat) (v : W32) (f : Fld), a % 4 = 0 ∧ (s.cell c).up = true ∧ (s.cell c).st = 6 ∧ (s.cell c).on Els.SEC_STAT_UNLOCKED = true ∧ elsAssigned a = true ∧ ((∀ p, p < 2 → (s.cell c).request p 1 = none)) ∧ elsMulti a = none ∧ elsFields a = [f] ∧ f.acc = .rw ∧ 8 * a ≤ f.lsb ∧ f.lsb + f.width ≤ 8 * a + 32 ∧ 0 < f.width ∧ a ∉ [0x800, 0x43C, 0x638, 0x64C]) :=
  ⟨⟨(inMode 7), 0x1001, 5, by decide⟩,
   ⟨(inMode 7), 0x280, 5, by decide⟩,
   ⟨(inMode 7), 0x2FFFFC, 5, by decide⟩,
   ⟨(inMode 7), 0x1010, 0x1010, 2, 5, by decide⟩,
   ⟨{ inMode 7 with held := [(0x1018, 9)] }, 0x1010, 0x1010, 2, 5, by decide⟩,
   ⟨(put [(Reg.BOOT_STAT_ERR, 2)] State.reset), 0x1014, 5, by decide⟩,
   ⟨(put [(Reg.BOOT_STAT_ERR, 2)] State.reset), 0x4000, 5, by decide⟩,
   ⟨{ inMode 7 with held := [(0x1010, 9)] }, 0x04, 0xA5A5FFFF, by decide⟩,
   ⟨(put [(Reg.TIME_STAT_TEVT_LOST, 5), (Reg.TIME_STAT_DISCONT, 1)] (inMode 7)), 0x1024, 0xFFFFFFFE, by decide⟩,
   ⟨(inMode 7), 0, 0x10, 5, by decide⟩,
   ⟨(one (slotted 3)), 0, 0x210, 5, by decide⟩,
   ⟨(one (cput' [(Els.SEC_STAT_UNLOCKED, 1)] (slotted 6))), 0, 0x210, 0x1234FFFF, Els.PWM_TDUTY12_DUTY, by decide⟩⟩
theorem wit_RegisterReads :
    (∃ (s : State) (a : Nat), a % 4 ≠ 0)
    ∧ (∃ (s : State) (r : Nat), r < s.dies ∧ r < 8)
    ∧ (∃ (s : State) (r : Nat), r < s.dies ∧ r < 8)
    ∧ (∃ (s : State) (a : Nat) (f : Fld), a % 4 = 0 ∧ a < 0x300000 ∧ a ≠ 0x1000 ∧ a ≠ 0x1004 ∧ a ≠ 0x1008 ∧ basMulti a = none ∧ s.isSlack a = false ∧ s.wordFields a = [f] ∧ f.lsb = 8 * a ∧ s.rd f < 2 ^ 32)
    ∧ (∃ (s : State) (b n : Nat), b % 4 = 0 ∧ b < 0x300000 ∧ b ≠ 0x1000 ∧ b ≠ 0x1004 ∧ b ≠ 0x1008 ∧ basMulti b = some (b, n))
    ∧ (∃ (s : State) (b n : Nat), b % 4 = 0 ∧ b < 0x300000 ∧ b ≠ 0x1000 ∧ b ≠ 0x1004 ∧ b ≠ 0x1008 ∧ basMulti b = some (b, n))
    ∧ (∃ (s : State) (a b n : Nat), a % 4 = 0 ∧ a ≠ 0x1000 ∧ a ≠ 0x1004 ∧ a ≠ 0x1008 ∧ basMulti a = some (b, n) ∧ b ≠ a ∧ fhas s.latch a = true)
    ∧ (∃ (s : State) (c a : Nat), (a % 4 ≠ 0 ∨ s.jtagOpen c = false ∨ elsAssigned a = false))
    ∧ (∃ (s : State) (c a : Nat), (a % 4 ≠ 0 ∨ s.jtagOpen c = false ∨ elsAssigned a = false))
    ∧ (∃ (s : State) (c a : Nat), a % 4 = 0 ∧ (s.cell c).up = true ∧ (s.cell c).st = 6 ∧ (s.cell c).on Els.SEC_STAT_UNLOCKED = true ∧ elsAssigned a = true ∧ ((∀ p, p < 2 → (s.cell c).request p 1 = none)) ∧ elsMulti a = none ∧ a ≠ 0x42C ∧ a ≠ 0x708) :=
  ⟨⟨(inMode 7), 0x1001, by decide⟩,
   ⟨(inMode 7), 7, by decide⟩,
   ⟨(put [(rf 2 Rgn.DISP_SLACK_MIN, 0xFFFF)] (inMode 7)), 2, by decide⟩,
   ⟨(inMode 7), 0x1030, Reg.EPOCH_PHASE_PHASE, by decide⟩,
   ⟨(inMode 7), 0x1010, 2, by decide⟩,
   ⟨(inMode 7), 0x28, 2, by decide⟩,
   ⟨{ inMode 7 with latch := [(0x1014, 77)] }, 0x1014, 0x1010, 2, by decide⟩,
   ⟨(inMode 7), 0, 0x10, by decide⟩,
   ⟨(one (slotted 3)), 0, 0x3FC, by decide⟩,
   ⟨(one (cput' [(Els.SEC_STAT_UNLOCKED, 1)] (slotted 6))), 0, 0x210, by decide⟩⟩

end Sys2Proof.Tests
end

section
/-! PROOFS. The time base (spec/02_time_base.md): the rate of the counter (R60) and the Glimmer grid (R69). -/

namespace Sys2Proof.Proofs
open Sys2Proof.Machine Sys2Proof.Claims Sys2Proof.Laws

section
variable (s : State)

/-! ### An edge of REFCLK (R56) -/

@[simp] theorem linkDown_time : s.linkDown.time = s.time := rfl
@[simp] theorem startKx_time : s.startKx.time = s.time := by unfold State.startKx; split <;> rfl
@[simp] theorem noteBroken_time : s.noteBroken.time = s.time := by
  unfold State.noteBroken
  split
  · rw [startKx_time, linkDown_time, modMirror_time]
  · rfl
@[simp] theorem tick_time : s.tick.time = s.refclkEdge.time := rfl

theorem stepDue_of_committed_none (h : s.time.committed = none) : s.stepDue = s := by
  unfold State.stepDue; rw [h]
theorem armedDue_of_armed_none (h : s.time.armed = none) : s.armedDue = s := by
  unfold State.armedDue; rw [h]

/-- Where no step waits, the steps of an edge are none, in whichever mode. -/
theorem edgeSteps_time (harm : s.time.armed = none) (hcom : s.time.committed = none) :
    (if s.epochs then s else s.stepDue.armedDue.noteBroken).time = s.time := by
  rw [stepDue_of_committed_none s hcom, armedDue_of_armed_none s harm]
  split
  · rfl
  · exact noteBroken_time s

/-- The state that an edge of REFCLK leaves before any step is judged: the counter on by TIME_INCR. -/
def edged (s : State) : State :=
  { s with time := { s.time with
      ctr := s.time.ctr + BitVec.ofNat 96 s.incr, base := s.time.base + BitVec.ofNat 96 s.incr, tick := s.time.tick + 1 } }

theorem refclk_of_running (h : s.running = true) : s.time.refclk = true := (Bool.and_eq_true_iff.mp h).1

/-- An edge where the counter runs: TIME_INCR is added, and then the steps that are due apply outside M5 to M11 (R56, R63). -/
theorem refclkEdge_of_running (h : s.running = true) :
    s.refclkEdge = if (edged s).epochs then edged s else (edged s).stepDue.armedDue.noteBroken := by
  have hthere : ¬ (!s.time.refclk) = true := by simp [refclk_of_running s h]
  have hruns : State.running { s with time := { s.time with tick := s.time.tick + 1 } } = true := h
  refine (if_neg hthere).trans ?_
  rw [if_pos hruns]
  rfl

/-- An edge of REFCLK adds TIME_INCR to a running counter (R56). -/
theorem refclkEdge_ctr (hrun : s.running = true) (harm : s.time.armed = none) (hcom : s.time.committed = none) :
    s.refclkEdge.time.ctr = s.time.ctr + BitVec.ofNat 96 s.incr := by
  rw [refclkEdge_of_running s hrun, edgeSteps_time (edged s) harm hcom]
  rfl

/-! ### The write of TIME_INCR (R60, R484) -/

theorem onWrite_of_takesWrites (f : State → State) (h : s.takesWrites = true) : s.onWrite f = f { s with held := [] } := by
  unfold State.onWrite; rw [if_pos h]

theorem bits_low (v w : Nat) : bits v 0 w = v % 2 ^ w := by
  rw [bits, Nat.pow_zero, Nat.div_one]

/-- Bits below a shifted number, replaced. -/
theorem setBits_low (x w v : Nat) : setBits (x * 2 ^ w) 0 w v = v % 2 ^ w + x * 2 ^ w := by
  rw [setBits, Nat.pow_zero, Nat.mod_one, Nat.zero_add, Nat.mul_one, Nat.zero_add, Nat.mul_div_cancel _ (Nat.two_pow_pos w)]

/-- The word a write of a register of two words applies is that of the statements. -/
theorem joined_two (a : Nat) (f : Fld) (hi : W32) : s.joined a 2 (s.rd f) hi = word2 s a f hi := by
  have hone : List.range (2 - 1) = [0] := rfl
  have hbits : 32 * (2 - 1) = 32 := rfl
  rw [State.joined, hone, List.foldl_cons, List.foldl_nil, hbits, Nat.mul_zero, Nat.add_zero, setBits_low,
    bits_low, word2]

theorem incrOk_iff (v : Nat) : incrOk v = true ↔ 0x07FEF9DB23 ≤ v ∧ v ≤ 0x08010624DD := by
  simp [incrOk]

theorem timeIncrWrite_accepted (hi : W32) (h : s.takesWrites = true)
    (hv : incrOk (word2 s 0x1010 Reg.TIME_INCR_INCR hi % 2 ^ 40) = true) :
    s.timeIncrWrite hi = { s with held := [] }.wr Reg.TIME_INCR_INCR (word2 s 0x1010 Reg.TIME_INCR_INCR hi % 2 ^ 40) := by
  unfold State.timeIncrWrite
  rw [joined_two, onWrite_of_takesWrites s _ h, if_pos hv]

theorem timeIncrWrite_refused (hi : W32) (h : s.takesWrites = true)
    (hv : ¬ incrOk (word2 s 0x1010 Reg.TIME_INCR_INCR hi % 2 ^ 40) = true) :
    s.timeIncrWrite hi = { s with held := [] }.wr Reg.TIME_STAT_INCR_REFUSED 1 := by
  unfold State.timeIncrWrite
  rw [joined_two, onWrite_of_takesWrites s _ h, if_neg hv]

theorem sameRegs_wr {fs : List Fld} {f : Fld} (v : Nat) (hf : f ∈ fs) : SameRegs fs s (s.wr f v) :=
  fun g hg => rd_wr_other s f g v (hg f hf)

/-! ### The counter run on (R56, R63) -/

/-- Where no step applies on the way, the counter runs to the nanosecond and stands at its start. -/
theorem runTo_ctr_plain {n : Nat} (hrun : s.running = true) (hplain : (if s.epochs then none else s.stepAt) = none)
    (hlt : s.ns < n) : (s.runTo n).time.ctr = nsTime n := by
  have hbehind : ¬ n * 2 ^ 32 ≤ s.time.ctr.toNat := by
    unfold State.ns at hlt
    omega
  unfold State.runTo
  rw [if_pos (by simp [hrun, hlt]), advance_plain _ _ _ _ hplain]
  unfold State.counterAt
  rw [if_neg hbehind]
  rfl

theorem stepAt_of_none (harm : s.time.armed = none) (hcom : s.time.committed = none) : s.stepAt = none := by
  simp [State.stepAt, harm, hcom]

/-- `Plain` in the form the laws of the counter take it. -/
theorem noStep_of_plain (h : Plain s) : (if s.epochs then none else s.stepAt) = none := by
  rcases h with hep | ⟨harm, hcom⟩
  · rw [if_pos hep]
  · rw [stepAt_of_none s harm hcom, ite_self]

theorem toNat_nsTime {n : Nat} (h : n < 2 ^ 64) : (nsTime n).toNat = n * 2 ^ 32 := by
  rw [nsTime, BitVec.toNat_ofNat, Nat.mod_eq_of_lt (by omega)]

@[simp] theorem timeNs_nsTime {n : Nat} (h : n < 2 ^ 64) : timeNs (nsTime n) = n := by
  rw [timeNs, toNat_nsTime h, Nat.mul_div_cancel _ (by decide)]

/-- A whole nanosecond is its own timestamp (R77). -/
theorem stamp_of_nsTime {n : Nat} (h : n < 2 ^ 64) (hctr : s.time.ctr = nsTime n) : s.stamp 0 = nsTime n := by
  have hq : n * 2 ^ 32 / 2 ^ 30 * 2 ^ 30 = n * 2 ^ 32 := by omega
  rw [State.stamp, hctr, toNat_nsTime h, Nat.add_zero, hq, nsTime]

/-! ### The launch of the Glimmer Beacons (R69, R100) -/

theorem glimmerAt_mod : s.glimmerAt % 1000000 = 0 := by
  simp only [State.glimmerAt]
  split <;> exact Nat.mul_mod_left _ _

/-- The Glimmer Beacon of one tree port, in mode 5 while an exit is on, or nothing where the port is not IDLE. -/
def glimmerSend (exiting : Bool) (s : State) (p : Nat × Nat) : State :=
  if s.treeState p.1 p.2 == 1 then
    s.launch p.1 p.2 (s.stamp 0) (s.header p.1 p.2 4 (if exiting then 5 else 4) s.pn 0 (s.stamp 0)) [] none 10
  else s

/-- The state once every tree port has had its turn, with the counter at the instant `n` of the grid. -/
def glimmerSent (n : Nat) (s : State) : State :=
  let exiting := decide (3 ≤ s.mode.exitStep)
  let v := s.allTrees.foldl (glimmerSend exiting) s
  { v with time := { v.time with lastGlimmer := n }, mode := { v.mode with exitStep := if exiting then 4 else v.mode.exitStep } }

/-- A launch that reaches the instant of the grid is what the tree ports do there. -/
theorem glimmerLaunch_reached (hmode : s.modeNo = 4) (hrun : s.running = true)
    (hns : (s.runTo s.glimmerAt).ns = s.glimmerAt) : s.glimmerLaunch = glimmerSent s.glimmerAt (s.runTo s.glimmerAt) := by
  have hacts : ¬ (s.modeNo != 4 || !s.running) = true := by simp [hmode, hrun]
  have hthere : ¬ ((s.runTo s.glimmerAt).ns != s.glimmerAt) = true := by simp [hns]
  exact (if_neg hacts).trans (if_neg hthere)

@[simp] theorem glimmerSend_time (b : Bool) (p : Nat × Nat) : (glimmerSend b s p).time = s.time := by
  unfold glimmerSend; split <;> rfl
@[simp] theorem glimmerSend_regs (b : Bool) (p : Nat × Nat) : (glimmerSend b s p).regs = s.regs := by
  unfold glimmerSend; split <;> rfl

@[simp] theorem glimmerSends_time (b : Bool) (l : List (Nat × Nat)) : (l.foldl (glimmerSend b) s).time = s.time := by
  induction l generalizing s with
  | nil => rfl
  | cons p l ih => rw [List.foldl_cons, ih, glimmerSend_time]

@[simp] theorem launch_lastTxAt (r t : Nat) (tm : Time) (h : Hdr) (recs : List CmdRec) (seg : Option Seg) (n : Nat) :
    ((s.launch r t tm h recs seg n).tree r t).lastTxAt = tm := by
  simp [State.launch]

theorem launch_tree_ne {r t r' t' : Nat} (tm : Time) (h : Hdr) (recs : List CmdRec) (seg : Option Seg) (n : Nat)
    (hk : treeKey r' t' ≠ treeKey r t) : (s.launch r t tm h recs seg n).tree r' t' = s.tree r' t' :=
  tree_modTree_ne s _ hk

theorem tree_of_treeKey_eq {r t r' t' : Nat} (hk : treeKey r' t' = treeKey r t) : s.tree r' t' = s.tree r t := by
  unfold State.tree; rw [hk]

theorem glimmerSend_sends (b : Bool) (r u : Nat) (hidle : s.treeState r u = 1) :
    ((glimmerSend b s (r, u)).tree r u).lastTxAt = s.stamp 0 := by
  unfold glimmerSend
  rw [if_pos (by simp [hidle])]
  exact launch_lastTxAt ..

/-- A port that has launched at this instant is left so by what another launches then. -/
theorem glimmerSend_keeps (b : Bool) (p : Nat × Nat) (r u : Nat) (hsent : (s.tree r u).lastTxAt = s.stamp 0) :
    ((glimmerSend b s p).tree r u).lastTxAt = s.stamp 0 := by
  unfold glimmerSend
  split
  · by_cases hk : treeKey r u = treeKey p.1 p.2
    · rw [tree_of_treeKey_eq _ hk]; exact launch_lastTxAt ..
    · rw [launch_tree_ne s _ _ _ _ _ hk]; exact hsent
  · exact hsent

theorem stamp_glimmerSend (b : Bool) (p : Nat × Nat) (q : Nat) : (glimmerSend b s p).stamp q = s.stamp q := by
  unfold State.stamp; rw [glimmerSend_time]

theorem treeState_glimmerSend (b : Bool) (p : Nat × Nat) (r u : Nat) :
    (glimmerSend b s p).treeState r u = s.treeState r u := by
  rw [State.treeState, State.rd, glimmerSend_regs, State.treeState, State.rd]

theorem glimmerSends_keep (b : Bool) (l : List (Nat × Nat)) (r u : Nat) (hsent : (s.tree r u).lastTxAt = s.stamp 0) :
    ((l.foldl (glimmerSend b) s).tree r u).lastTxAt = s.stamp 0 := by
  induction l generalizing s with
  | nil => exact hsent
  | cons p l ih =>
    have hstep := glimmerSend_keeps s b p r u hsent
    rw [← stamp_glimmerSend s b p 0] at hstep ⊢
    exact ih _ hstep

/-- Every IDLE port of a list has launched at this instant once the ports of the list have had their turn. -/
theorem glimmerSends_send (b : Bool) (l : List (Nat × Nat)) (r u : Nat) (hmem : (r, u) ∈ l) (hidle : s.treeState r u = 1) :
    ((l.foldl (glimmerSend b) s).tree r u).lastTxAt = s.stamp 0 := by
  induction l generalizing s with
  | nil => cases hmem
  | cons p l ih =>
    rw [List.foldl_cons, ← stamp_glimmerSend s b p 0]
    rcases List.mem_cons.mp hmem with rfl | hl
    · refine glimmerSends_keep _ b l r u ?_
      rw [stamp_glimmerSend]
      exact glimmerSend_sends s b r u hidle
    · exact ih _ hl ((treeState_glimmerSend s b p r u).trans hidle)

@[simp] theorem glimmerSent_ctr (n : Nat) : (glimmerSent n s).time.ctr = s.time.ctr :=
  (congrArg TimeSt.ctr (glimmerSends_time s (decide (3 ≤ s.mode.exitStep)) s.allTrees) :)

theorem glimmerSent_sends (n r u : Nat) (hmem : (r, u) ∈ s.allTrees) (hidle : s.treeState r u = 1) :
    ((glimmerSent n s).tree r u).lastTxAt = s.stamp 0 :=
  glimmerSends_send s (decide (3 ≤ s.mode.exitStep)) s.allTrees r u hmem hidle

theorem allTrees_of_regs_eq {s t : State} (h : t.regs = s.regs) : t.allTrees = s.allTrees := by
  simp only [State.allTrees, State.treesOf, State.dies, State.on, State.rd, h]

theorem treeState_of_regs_eq {s t : State} (h : t.regs = s.regs) (r u : Nat) : t.treeState r u = s.treeState r u := by
  rw [State.treeState, State.rd, h, State.treeState, State.rd]

/-- What a Glimmer launch does where no step is on the way: the counter reaches the instant of the grid, and every IDLE port has launched there. -/
theorem glimmerLaunch_plain (hmode : s.modeNo = 4) (hrun : s.running = true) (hplain : Plain s) (hlt : s.ns < s.glimmerAt)
    (hfits : s.glimmerAt < 2 ^ 64) :
    s.glimmerLaunch.time.ctr = nsTime s.glimmerAt
      ∧ ∀ r u, (r, u) ∈ s.allTrees → s.treeState r u = 1 → (s.glimmerLaunch.tree r u).lastTxAt = nsTime s.glimmerAt := by
  have hnone := noStep_of_plain s hplain
  have hctr := runTo_ctr_plain s hrun hnone hlt
  have hregs := runTo_regs_plain s s.glimmerAt hnone
  have hns : (s.runTo s.glimmerAt).ns = s.glimmerAt := by
    rw [State.ns, hctr]; exact timeNs_nsTime hfits
  rw [glimmerLaunch_reached s hmode hrun hns]
  refine ⟨(glimmerSent_ctr _ _).trans hctr, fun r u hmem hidle => ?_⟩
  rw [← allTrees_of_regs_eq hregs] at hmem
  rw [← treeState_of_regs_eq hregs] at hidle
  rw [glimmerSent_sends _ _ r u hmem hidle, stamp_of_nsTime _ hfits hctr]

/-! ### Nothing of the epoch grid runs in M4 (R69) -/

theorem epochs_of_M4 (h : s.modeNo = 4) : s.epochs = false := by
  simp [State.epochs, h]

theorem epoch_idle (h : s.epochs = false) : s.epoch = s := by simp [State.epoch, h]
theorem periodLaunch_idle (h : s.epochs = false) : s.periodLaunch = s := by simp [State.periodLaunch, h]
theorem mgmtLaunch_idle (h : s.epochs = false) (r u : Nat) : s.mgmtLaunch r u = s := by simp [State.mgmtLaunch, h]
theorem enumLaunch_idle (h : s.epochs = false) (r u : Nat) : s.enumLaunch r u = s := by simp [State.enumLaunch, h]
theorem blockLaunch_idle (h : s.epochs = false) (r u : Nat) : s.blockLaunch r u = s := by simp [State.blockLaunch, h]

end

/-! ### The obligations -/

/-- Settles O57: an edge adds TIME_INCR where no step waits, and a write either lands in TIME_INCR or sets INCR_REFUSED, as the value lies in the range. -/
theorem counterRate : Obligations.CounterRate := by
  unfold Obligations.CounterRate
  refine ⟨rfl, by decide, fun s hpend hrun harm hcom => ?_, fun s hi hw => ?_⟩
  · refine ⟨s.tick, by unfold step; rw [hpend], ?_⟩
    rw [tick_time]
    exact refclkEdge_ctr s hrun harm hcom
  · intro v
    refine ⟨s.timeIncrWrite hi, rfl, ?_⟩
    rw [← incrOk_iff]
    by_cases hv : incrOk v = true
    · rw [timeIncrWrite_accepted s hi hw hv]
      refine ⟨sameRegs_wr { s with held := [] } v (by simp), fun _ => ⟨?_, ?_⟩, fun hn => absurd hv hn⟩
      · rw [rd_wr]; exact Nat.mod_mod _ _
      · exact rd_wr_other _ _ _ _ (by decide)
    · rw [timeIncrWrite_refused s hi hw hv]
      refine ⟨sameRegs_wr { s with held := [] } 1 (by simp), fun hy => absurd hy hv, fun _ => ⟨?_, ?_⟩⟩
      · exact rd_wr_other _ _ _ _ (by decide)
      · exact on_wr_one _ _ rfl

/-- Settles O58: in M4 the commands of the epoch grid do nothing, and a Glimmer launch runs the counter to a whole millisecond, where every IDLE port launches. -/
theorem glimmerGrid : Obligations.GlimmerGrid := by
  unfold Obligations.GlimmerGrid
  intro s hmode
  have hep := epochs_of_M4 s hmode
  refine ⟨congrArg _ (epoch_idle s hep), congrArg _ (periodLaunch_idle s hep), fun r u =>
    ⟨congrArg _ (mgmtLaunch_idle s hep r u), congrArg _ (enumLaunch_idle s hep r u), congrArg _ (blockLaunch_idle s hep r u)⟩,
    fun hrun hplain hlt hfits => ⟨s.glimmerLaunch, rfl, ?_⟩⟩
  obtain ⟨hctr, hsent⟩ := glimmerLaunch_plain s hmode hrun hplain hlt hfits
  have hns : s.glimmerLaunch.ns = s.glimmerAt := by
    rw [State.ns, hctr]; exact timeNs_nsTime hfits
  rw [hns]
  refine ⟨glimmerAt_mod s, hlt, fun r u hmem hidle => ?_⟩
  rw [hsent r u hmem hidle, hctr, timeNs_nsTime hfits]
  exact ⟨rfl, glimmerAt_mod s⟩

end Sys2Proof.Proofs
end

section
/-! PROOFS. The Verbs INT and LIM (spec/06_arm_control.md, R197, R199). -/

namespace Sys2Proof.Proofs
open Sys2Proof.Machine Sys2Proof.Claims Sys2Proof.Laws

/-! ### A Verb on its engine (R135) -/

section
variable (s : State)

theorem onVerb_of_runs {r e opc : Nat} {g : Grant} {p : Phrase} {a : Act} {v : VerbDecl} (f : Grant → Phrase → Act → VerbDecl → Eng → Eng)
    (h : s.runs r e opc = some (g, p, a, v)) : s.onVerb r e opc f = s.modEng r e (f g p a v) := by
  rw [State.onVerb, h]

theorem onVerb_of_none {r e opc : Nat} (f : Grant → Phrase → Act → VerbDecl → Eng → Eng) (h : s.runs r e opc = none) :
    s.onVerb r e opc f = s := by
  rw [State.onVerb, h]

theorem eng_modEng_ne {r e r' e' : Nat} (f : Eng → Eng) (h : ¬ (r' = r ∧ e' = e)) : (s.modEng r e f).eng r' e' = s.eng r' e' := by
  by_cases hr : r' = r
  · subst hr
    have he : e' ≠ e := fun he => h ⟨rfl, he⟩
    simp [State.modEng, State.eng, fget_fmod_ne _ _ _ he]
  · simp [State.modEng, State.modDisp, State.eng, State.dsp, fget_fmod_ne _ _ _ hr]

/-- A change of one engine is a change of nothing else. -/
theorem engineOnly_modEng (r e : Nat) (f : Eng → Eng) : EngineOnly r e s (s.modEng r e f) := by
  refine ⟨fun r' e' h => eng_modEng_ne s f h, fun r' => ?_, rfl⟩
  by_cases hr : r' = r
  · subst hr; simp [State.modEng]
  · simp [State.modEng, State.modDisp, State.dsp, fget_fmod_ne _ _ _ hr]

end

/-- A command that is a Verb's effect makes of its engine what the effect makes of it, and of nothing else anything. -/
theorem verbMakes_of_effect {c : Instr} {r e opc : Nat} {P : State → Grant → Phrase → Act → VerbDecl → Eng → Eng → Prop}
    (f : State → Grant → Phrase → Act → VerbDecl → Eng → Eng) (hexec : ∀ s, exec c s = .next (s.onVerb r e opc (f s)))
    (hP : ∀ s g p a v, P s g p a v (s.eng r e) (f s g p a v (s.eng r e))) : VerbMakes c r e opc P := by
  refine ⟨fun s g p a v hruns => ⟨s.modEng r e (f s g p a v), ?_, ?_, engineOnly_modEng s r e _⟩, fun s hnone => ?_⟩
  · rw [hexec, onVerb_of_runs s _ hruns]
  · rw [eng_modEng]; exact hP s g p a v
  · rw [hexec, onVerb_of_none s _ hnone]

/-! ### Outputs, loads and stores of a fixed Verb (R177, R180, R182) -/

section
variable (x : Eng) (m : MemView)

theorem clamp32_eq_near (i : Int) : clamp32 i = near i := by
  unfold clamp32 near clampI
  split
  · rfl
  · split <;> rfl

theorem fget_filter_append {α : Type} (d w : α) (l : FMap α) (n : Nat) : fget d (l.filter (fun q => q.1 != n) ++ [(n, w)]) n = w := by
  induction l with
  | nil => simp [fget]
  | cons q l ih =>
    by_cases h : q.1 = n <;> simp [h, fget, ih]

theorem fget_filter_append_ne {α : Type} (d w : α) (l : FMap α) {n k : Nat} (hk : k ≠ n) :
    fget d (l.filter (fun q => q.1 != n) ++ [(n, w)]) k = fget d l k := by
  induction l with
  | nil => simp [fget, hk.symm]
  | cons q l ih =>
    by_cases h : q.1 = n
    · simp [h, fget, hk.symm, ih]
    · simp [h, fget, ih]

theorem fhas_filter_append_ne {α : Type} (w : α) (l : FMap α) {n k : Nat} (hk : k ≠ n) :
    fhas (l.filter (fun q => q.1 != n) ++ [(n, w)]) k = fhas l k := by
  induction l with
  | nil => simp [fhas, hk.symm]
  | cons q l ih =>
    by_cases h : q.1 = n
    · simp [h, fhas, hk.symm, ih]
    · simp [h, fhas, ih]

theorem puts_put (n : Nat) (w : W32) : Puts (x.put n w) n w := fget_filter_append 0 w x.outs n

theorem otherOuts_put (n : Nat) (w : W32) : OtherOuts x (x.put n w) [n] := by
  intro k hk
  have hne : k ≠ n := by simpa using hk
  exact ⟨fhas_filter_append_ne w x.outs hne, fget_filter_append_ne 0 w x.outs hne⟩

/-- What holding a store does: an engine keeps it where a window permits it, and notes an address error elsewhere. -/
theorem hold_eq (a : Nat) (w : W32) :
    x.hold m a w = { x with stores := stored x m [(a, w)], addrErr := x.addrErr || !m.good true a } := by
  unfold Eng.hold stored
  by_cases h : m.good true a = true <;> simp [h]

/-- The same of one word held at several addresses. -/
theorem foldl_hold_eq (w : W32) (l : List Nat) :
    l.foldl (fun y k => y.hold m k w) x =
      { x with stores := stored x m (l.map fun k => (k, w)), addrErr := x.addrErr || l.any fun k => !m.good true k } := by
  induction l generalizing x with
  | nil => simp [stored]
  | cons k l ih =>
    rw [List.foldl_cons, ih, hold_eq]
    simp only [stored, List.map_cons, List.filter_cons, List.any_cons, List.filter_nil, Bool.or_assoc]
    by_cases h : m.good true k = true <;> simp [h]

theorem mem_hold_stores {q : Nat × W32} (a : Nat) (w : W32) (h : q ∈ x.stores) : q ∈ (x.hold m a w).stores := by
  rw [hold_eq]; exact List.mem_append_left _ h

theorem mem_hold_stores_self {a : Nat} (w : W32) (h : m.good true a = true) : (a, w) ∈ (x.hold m a w).stores := by
  rw [hold_eq]; exact List.mem_append_right _ (by simp [h])

@[simp] theorem val_loads (l : List Nat) (a : Nat) : (x.loads m l).val m a = x.val m a := rfl

/-- A store does not show in a load from another address. -/
theorem val_hold_ne {a k : Nat} (w : W32) (h : k ≠ a) : (x.hold m a w).val m k = x.val m k := by
  have hload : (x.hold m a w).loadWord m k = x.loadWord m k := by
    unfold Eng.hold
    split
    · simp [Eng.loadWord, h.symm]
    · rfl
  rw [Eng.val, hload, Eng.val]

/-- The end of a loop (R197) holds Y_LAST after the stores before it. -/
theorem mem_endLoop_stores {q : Nat × W32} (lb : Nat) (y : W32) (h : q ∈ x.stores) : q ∈ (x.endLoop m lb y).stores :=
  mem_hold_stores _ m _ _ h

/-- The output at the end of a loop is the product with K_OUT (R197). -/
theorem puts_endLoop (lb : Nat) (y : W32) :
    Puts (x.endLoop m lb y) 0 (near (y.toInt * (x.val m (lb + 4)).toInt / 1073741824)) := by
  rw [Eng.endLoop, hold_eq, ← clamp32_eq_near]
  exact puts_put _ 0 _

end

/-! ### INT (R199) -/

/-- LIM_DIR is non-zero and has the sign of e. -/
def holdsState (limDir e : Int) : Prop := limDir ≠ 0 ∧ (0 < limDir ∧ 0 < e ∨ limDir < 0 ∧ e < 0)

theorem intState_held (st ki lo hi e : W32) {dir : Int} (h : holdsState dir e.toInt) : intState st ki lo hi e dir = st.toInt := by
  obtain ⟨_, hsign⟩ := h
  unfold intState
  rw [if_pos (by simpa using hsign)]

theorem intState_limited (st ki lo hi e : W32) {dir : Int} (h : ¬ holdsState dir e.toInt) :
    intState st ki lo hi e dir = min hi.toInt (max lo.toInt (st.toInt + ki.toInt * e.toInt / 1073741824)) := by
  have hsign : ¬ (0 < dir ∧ 0 < e.toInt ∨ dir < 0 ∧ e.toInt < 0) := fun hs => h ⟨by omega, hs⟩
  unfold intState
  rw [if_neg (by simpa using hsign)]
  rfl

/-- An integer between two words is a word. -/
theorem toInt_ofInt_of_between {lo hi : W32} {i : Int} (hlo : lo.toInt ≤ i) (hhi : i ≤ hi.toInt) : (BitVec.ofInt 32 i).toInt = i := by
  have hmin := BitVec.le_toInt lo
  have hmax := BitVec.toInt_lt (x := hi)
  rw [BitVec.toInt_ofInt]
  exact Int.bmod_eq_of_le (by omega) (by omega)

/-- The limited sum, LO not above HI: it lies between them, below the sum only at HI and above it only at LO. -/
theorem limited_bounds {lo hi sum : Int} (h : lo ≤ hi) : let n := min hi (max lo sum)
    lo ≤ n ∧ n ≤ hi ∧ (n < sum → n = hi) ∧ (sum < n → n = lo) := by
  intro n
  omega

/-- A word of the loop block of an INT Verb, as the Verb loads it. -/
def loopVal (s : State) (g : Grant) (p : Phrase) (v : VerbDecl) (x : Eng) (o : Nat) : W32 :=
  x.val (s.mem g p) (s.loopAt g.home (par v 0) + o)
/-- The word that INT stores as its state. -/
def intWord (s : State) (g : Grant) (p : Phrase) (v : VerbDecl) (x : Eng) : W32 :=
  let w := loopVal s g p v x
  BitVec.ofInt 32 (intState (w 0x12C) (w 0x120) (w 0x124) (w 0x128) (x.opd 0) (w 0x0C).toInt)

section
variable (s : State) (g : Grant) (p : Phrase) {a : Act} (v : VerbDecl) (x : Eng)

/-- INT of a CLOSED loop: the new state is stored, and the loop ends with it. -/
theorem intg_of_closed (h : a.loops.testBit (par v 0) = true) :
    let m := s.mem g p
    let lb := s.loopAt g.home (par v 0)
    s.intg g p a v x =
      ((x.loads m ([0x0C, 0x120, 0x124, 0x128, 0x12C].map (lb + ·))).hold m (lb + 0x12C) (intWord s g p v x)).endLoop m lb (intWord s g p v x) :=
  have hclosed : a.closed (prm v 0) = true := h
  if_neg (by simp [hclosed])

theorem intWord_held (h : holdsState (loopVal s g p v x 0x0C).toInt (opv x 0)) :
    (intWord s g p v x).toInt = (loopVal s g p v x 0x12C).toInt := by
  rw [intWord, intState_held _ _ _ _ (x.opd 0) h, BitVec.ofInt_toInt]

theorem intWord_limited (h : ¬ holdsState (loopVal s g p v x 0x0C).toInt (opv x 0)) :
    let w (o : Nat) : Int := (loopVal s g p v x o).toInt
    w 0x124 ≤ w 0x128 →
    (intWord s g p v x).toInt = min (w 0x128) (max (w 0x124) (w 0x12C + w 0x120 * opv x 0 / 1073741824)) := by
  intro w hrange
  rw [intWord, intState_limited _ _ _ _ (x.opd 0) h]
  exact toInt_ofInt_of_between (Int.le_min.mpr ⟨hrange, Int.le_max_left _ _⟩) (Int.min_le_left _ _)

theorem intg_stores (hclosed : a.loops.testBit (par v 0) = true)
    (hgood : (s.mem g p).good true (s.loopAt g.home (par v 0) + 0x12C) = true) :
    (s.loopAt g.home (par v 0) + 0x12C, intWord s g p v x) ∈ (s.intg g p a v x).stores := by
  rw [intg_of_closed s g p v x hclosed]
  exact mem_endLoop_stores _ _ _ _ (mem_hold_stores_self _ _ _ hgood)

theorem intg_puts (hclosed : a.loops.testBit (par v 0) = true) :
    Puts (s.intg g p a v x) 0
      (near ((intWord s g p v x).toInt * (x.val (s.mem g p) (s.loopAt g.home (par v 0) + 4)).toInt / 1073741824)) := by
  rw [intg_of_closed s g p v x hclosed]
  refine (puts_endLoop _ _ _ _).trans ?_
  rw [val_hold_ne _ _ _ (by omega), val_loads]

end

/-! ### LIM (R199) -/

/-- The rate limit, then the range: as the smaller and the greater of two. -/
theorem limOut_eq {u prev lo hi rate : Int} (hrate : 0 ≤ rate) (hrange : lo ≤ hi) :
    limOut u prev lo hi rate = max lo (min hi (max (prev - rate) (min (prev + rate) u))) := by
  have hclamp (a b y : Int) (hab : a ≤ b) : clampI a b y = max a (min b y) := by
    unfold clampI
    split
    · omega
    · split <;> omega
  rw [limOut, hclamp _ _ _ hrange, hclamp _ _ _ (by omega)]

/-- The direction that LIM writes into LIM_DIR, for the output `y` of the request `u`. -/
def limDirOf (y u : Int) : W32 := if y < u then 1 else if u < y then 0xFFFFFFFF else 0

theorem limDirOf_eq (y u : Int) : BitVec.ofInt 32 (if y < u then 1 else if u < y then -1 else 0) = limDirOf y u := by
  unfold limDirOf
  split
  · rfl
  · split <;> rfl

/-- The addresses of LIM_DIR in the loop blocks of an arm. -/
def limDirs (s : State) (r arm : Nat) : List Nat := [0xD8, 0xD9, 0xDA].map fun o => s.loopAt r (s.armByte r arm o) + 0x0C
/-- What LIM loads: the limits in force and the word that numbers the loops of the arm. -/
def limLoads (s : State) (r arm : Nat) (a : Act) : List Nat :=
  let at_ (o : Nat) : Nat := s.armAt r arm (limitSet a + o)
  [at_ 0, at_ 4, at_ 8, s.armAt r arm 0xD8]
/-- The output of LIM. -/
def limWord (s : State) (g : Grant) (p : Phrase) (a : Act) (x : Eng) : Int :=
  let arm := s.armOfPhrase p
  let w (o : Nat) : Int := (x.val (s.mem g p) (s.armAt g.home arm (limitSet a + o))).toInt
  limOut (opv x 0) (s.armSt g.home arm).limPrev.toInt (w 0) (w 4) (w 8)

/-- What LIM makes of an engine. -/
theorem lim_eq (s : State) (g : Grant) (p : Phrase) (a : Act) (x : Eng) :
    let m := s.mem g p
    let arm := s.armOfPhrase p
    let y := limWord s g p a x
    s.lim g p a x = { x with
      outs := (x.put 0 (BitVec.ofInt 32 y)).outs
      stores := stored x m ((limDirs s g.home arm).map fun k => (k, limDirOf y (opv x 0)))
      addrErr := errs x m (limLoads s g.home arm a) (limDirs s g.home arm)
      res := x.res ++ [.lim arm (BitVec.ofInt 32 y) (x.tagIn || x.vsat || x.wsat)] } := by
  intro m arm y
  have hholds := foldl_hold_eq (x.loads m (limLoads s g.home arm a)) m (limDirOf y (opv x 0)) (limDirs s g.home arm)
  rw [← limDirOf_eq, limDirs, List.foldl_map] at hholds
  unfold State.lim
  refine (congrArg (fun q : Eng => (q.put 0 (BitVec.ofInt 32 y)).give (.lim arm (BitVec.ofInt 32 y) (q.tagIn || q.vsat || q.wsat))) hholds).trans ?_
  rw [limDirOf_eq]
  rfl

theorem limMakes (r e : Nat) : LimMakes r e := by
  refine verbMakes_of_effect (fun s g p a _ x => s.lim g p a x) (fun _ => rfl) fun s g p a _ => ?_
  intro arm m at_ lim dirs prev u1 u2 dir hrate hrange
  have hout : limWord s g p a (s.eng r e) = u2 := limOut_eq hrate hrange
  rw [lim_eq, hout]
  exact ⟨rfl, otherOuts_put _ 0 _, puts_put _ 0 _, rfl, rfl, rfl⟩

/-! ### The obligation -/

/-- Settles O59: INT stores the limited sum, or the state before where LIM_DIR holds it, and ends the loop with what it stores; LIM limits the rate and then the range. -/
theorem integratorStage : Obligations.IntegratorStage := by
  unfold Obligations.IntegratorStage
  refine ⟨fun s r e g p a v hruns hclosed hgood => ?_, limMakes⟩
  intro w x sum held
  refine ⟨s.modEng r e (s.intg g p a v), congrArg _ (onVerb_of_runs s _ hruns), intWord s g p v (s.eng r e), ?_⟩
  rw [eng_modEng]
  refine ⟨intg_stores s g p v _ hclosed hgood, fun hheld => intWord_held s g p v _ hheld, fun hfree hrange => ?_, intg_puts s g p v _ hclosed⟩
  rw [intWord_limited s g p v (s.eng r e) hfree hrange]
  exact limited_bounds hrange

end Sys2Proof.Proofs
end

section
/-! PROOFS. Loop commands under an armed Clause (spec/06_arm_control.md, R209, R213). -/

namespace Sys2Proof.Proofs
open Sys2Proof.Machine Sys2Proof.Claims Sys2Proof.Laws

/-! ### Words of region memory (R17) -/

theorem length_leBytes (n v : Nat) : (leBytes n v).length = n := by
  induction n generalizing v with
  | zero => rfl
  | succ n ih => rw [leBytes, List.length_cons, ih]

/-- Little-endian bytes spell their number back. -/
theorem leVal_leBytes (n v : Nat) : leVal (leBytes n v) = v % 256 ^ n := by
  induction n generalizing v with
  | zero => rw [leBytes, leVal, Nat.pow_zero, Nat.mod_one]
  | succ n ih => 
    rw [leBytes, leVal, ih, BitVec.toNat_ofNat]
    exact (Nat.mod_mul (a := 256) (b := 256 ^ n)).symm.trans (congrArg (v % ·) (Nat.pow_succ' (n := n)).symm)

/-- Bytes outside those written read as before. -/
theorem memRead_memWrite_out (l : List Byte) (m : Memory) (a : Nat) {x n : Nat} (h : x + n ≤ a ∨ a + l.length ≤ x) :
    memRead (memWrite m a l) x n = memRead m x n := by
  induction n generalizing x with
  | zero => rfl
  | succ n ih => rw [memRead, memRead, memGet_memWrite_out l m a x (by omega), ih (by omega)]

section
variable (s : State)

@[simp] theorem rgnWord_setWord (r a : Nat) (w : W32) : (s.setWord r a w).rgnWord r a = w := by
  have hread := memRead_memWrite (leBytes 4 w.toNat) s.sram (rgnKey r a)
  rw [length_leBytes] at hread
  refine (congrArg (fun l => BitVec.ofNat 32 (leVal l)) hread).trans ?_
  have hfits : w.toNat % 256 ^ 4 = w.toNat := Nat.mod_eq_of_lt w.isLt
  rw [leVal_leBytes, hfits, BitVec.ofNat_toNat, BitVec.setWidth_eq]

theorem rgnWord_setWord_apart (r : Nat) {a b : Nat} (w : W32) (h : a + 4 ≤ b ∨ b + 4 ≤ a) :
    (s.setWord r a w).rgnWord r b = s.rgnWord r b := by
  have hread := memRead_memWrite_out (leBytes 4 w.toNat) s.sram (rgnKey r a) (x := rgnKey r b) (n := 4)
    (by rw [length_leBytes]; unfold rgnKey; omega)
  exact congrArg (fun l => BitVec.ofNat 32 (leVal l)) hread

/-! ### The words of a parameter block (R211, R424) -/

theorem loopWord_of_regs_eq {t : State} (h : t.regs = s.regs) (r a : Nat) : t.loopWord r a = s.loopWord r a := by
  unfold State.loopWord State.rd
  rw [h]

/-- A word of a loop block is found by its loop and its offset there (R503). -/
theorem loopWord_loopAt (r : Nat) {l o : Nat} (hl : l < 64) (ho : o < 0x140) : s.loopWord r (s.loopAt r l + o) = some (l, o) := by
  unfold State.loopWord State.loopAt
  generalize s.rd (rf r Rgn.LOOP_BASE_BASE) = b
  have hword : b + l * 0x140 + o - b = o + 0x140 * l := by omega
  rw [if_pos (by omega), hword, Nat.add_mul_div_left _ _ (by decide), Nat.add_mul_mod_self_left, Nat.div_eq_of_lt ho,
    Nat.mod_eq_of_lt ho, Nat.zero_add]

@[simp] theorem clauseWord_regs (r : Nat) (q : Nat × W32) : (s.clauseWord r q).regs = s.regs := by
  unfold State.clauseWord
  split
  · split <;> rfl
  · rfl

/-- A word of a loop block that is neither Y_LAST nor LIM_DIR is written. -/
theorem clauseWord_of_loopWord {r a k o : Nat} (w : W32) (h : s.loopWord r a = some (k, o)) (hy : o ≠ 8) (hd : o ≠ 12) :
    s.clauseWord r (a, w) = s.setWord r a w := by
  simp [State.clauseWord, h, hy, hd]

theorem rgnWord_clauseWord_apart (r : Nat) {q : Nat × W32} {b : Nat} (h : q.1 + 4 ≤ b ∨ b + 4 ≤ q.1) :
    (s.clauseWord r q).rgnWord r b = s.rgnWord r b := by
  unfold State.clauseWord
  split
  · split
    · rfl
    · exact rgnWord_setWord_apart s r q.2 h
  · exact rgnWord_setWord_apart s r q.2 h

/-- The state with the words of a parameter block applied. -/
def clauseWords (s : State) (r : Nat) (l : List (Nat × W32)) : State := l.foldl (fun s q => s.clauseWord r q) s

@[simp] theorem clauseWords_regs (r : Nat) (l : List (Nat × W32)) : (clauseWords s r l).regs = s.regs := by
  induction l generalizing s with
  | nil => rfl
  | cons q l ih => exact (ih _).trans (clauseWord_regs s r q)

theorem rgnWord_clauseWords_apart (r : Nat) {l : List (Nat × W32)} {b : Nat} (h : ∀ q ∈ l, b + 4 ≤ q.1) :
    (clauseWords s r l).rgnWord r b = s.rgnWord r b := by
  induction l generalizing s with
  | nil => rfl
  | cons q l ih =>
    rw [List.forall_mem_cons] at h
    exact (ih _ h.2).trans (rgnWord_clauseWord_apart s r (.inr h.1))

theorem paramWords_rising (a : Nat) (body : List Byte) : (paramWords a body).Pairwise fun p q => p.1 + 4 ≤ q.1 := by
  unfold paramWords
  rw [List.pairwise_map]
  exact List.pairwise_lt_range.imp fun h => by dsimp only; omega

/-- A word of a loop block that rising words write holds what they write. -/
theorem rgnWord_clauseWords_mem {r a k o : Nat} {w : W32} {l : List (Nat × W32)} (hrise : l.Pairwise fun p q => p.1 + 4 ≤ q.1)
    (hmem : (a, w) ∈ l) (hloop : s.loopWord r a = some (k, o)) (hy : o ≠ 8) (hd : o ≠ 12) :
    (clauseWords s r l).rgnWord r a = w := by
  induction l generalizing s with
  | nil => cases hmem
  | cons q l ih =>
    obtain ⟨hq, hl⟩ := List.pairwise_cons.mp hrise
    rcases List.mem_cons.mp hmem with rfl | hin
    · refine (rgnWord_clauseWords_apart (s.clauseWord r (a, w)) r hq).trans ?_
      rw [clauseWord_of_loopWord s w hloop hy hd, rgnWord_setWord]
    · exact ih _ hl hin ((loopWord_of_regs_eq s (clauseWord_regs s r q) r a).trans hloop)

/-! ### The state a Clause previews (R424, R430) -/

/-- A Clause of one parameter block previews the words of the block. -/
theorem preview_param (r a : Nat) (body : List Byte) : s.preview [.param r a body] = clauseWords s r (paramWords a body) := rfl

theorem loopAt_of_regs_eq {t : State} (h : t.regs = s.regs) (r l : Nat) : t.loopAt r l = s.loopAt r l := by
  simp only [State.loopAt, State.rd, h]

/-- The word of a loop that a parameter block writes is in the preview what the block writes. -/
theorem rgnWord_preview_param {r l i a : Nat} {w : W32} {body : List Byte} (hl : l < 64) (hi : i < 76) (hword : i < 2 ∨ 8 ≤ i)
    (hmem : (s.loopAt r l + 4 * i, w) ∈ paramWords a body) :
    (s.preview [.param r a body]).rgnWord r ((s.preview [.param r a body]).loopAt r l + 4 * i) = w := by
  rw [preview_param, loopAt_of_regs_eq s (clauseWords_regs s r _) r l]
  exact rgnWord_clauseWords_mem s (paramWords_rising a body) hmem (loopWord_loopAt s r hl (by omega)) (by omega) (by omega)

/-- The state with no word of a register of several held (R484). -/
def dropHeld (s : State) : State := { s with held := [] }

@[simp] theorem dropHeld_candidate : (dropHeld s).candidate = s.candidate := rfl
@[simp] theorem dropHeld_clause : (dropHeld s).clause = s.clause := rfl

theorem putRegs_dropHeld (l : List Item) : (dropHeld s).putRegs l = dropHeld (s.putRegs l) :=
  List.foldl_hom dropHeld fun t i => by cases i <;> rfl

theorem clauseWord_dropHeld (r : Nat) (q : Nat × W32) : (dropHeld s).clauseWord r q = dropHeld (s.clauseWord r q) := by
  unfold State.clauseWord
  rw [loopWord_of_regs_eq s (t := dropHeld s) rfl]
  cases s.loopWord r q.1 with
  | none => rfl
  | some p => dsimp only; split <;> rfl

theorem putParams_dropHeld (l : List Item) : (dropHeld s).putParams l = dropHeld (s.putParams l) :=
  List.foldl_hom dropHeld fun t i => by
    cases i with
    | param r a body => exact List.foldl_hom dropHeld fun u q => clauseWord_dropHeld u r q
    | _ => rfl

theorem putSelect_dropHeld (l : List Item) : (dropHeld s).putSelect l = dropHeld (s.putSelect l) :=
  List.foldl_hom dropHeld fun t i => by
    cases i with
    | imageSelect n =>
      rw [dropHeld_candidate]
      cases t.candidate with
      | none => rfl
      | some p => dsimp only; split <;> rfl
    | _ => rfl

theorem preview_dropHeld (l : List Item) : (dropHeld s).preview l = dropHeld (s.preview l) := by
  rw [State.preview, putRegs_dropHeld, putParams_dropHeld, putSelect_dropHeld]; rfl

theorem clauseTouches_dropHeld (r l : Nat) : (dropHeld s).clauseTouches r l = s.clauseTouches r l := by
  unfold State.clauseTouches
  rw [dropHeld_clause]
  cases s.clause.armed with
  | none => rfl
  | some k => dsimp only; rw [preview_dropHeld]; rfl

/-! ### Which loops a Clause changes (R213) -/

/-- A Clause whose preview gives a word of a loop another value changes the loop, but for Y_LAST, LIM_DIR and the reserved words (R193, R197). -/
theorem clauseTouches_of_word_ne {r l i : Nat} {k : Armed} (harmed : s.clause.armed = some k) (hi : i < 76) (hword : i < 2 ∨ 8 ≤ i)
    (hne : (s.preview k.items).rgnWord r ((s.preview k.items).loopAt r l + 4 * i) ≠ s.rgnWord r (s.loopAt r l + 4 * i)) :
    s.clauseTouches r l = true := by
  have hguarded : loopGuarded (4 * i) = true := by
    simp only [loopGuarded, Bool.or_eq_true, Bool.and_eq_true, decide_eq_true_eq]
    omega
  unfold State.clauseTouches loopDiffers
  rw [harmed]
  refine List.any_eq_true.mpr ⟨i, List.mem_range.mpr (by omega), ?_⟩
  rw [hguarded, Bool.true_and, bne_iff_ne]
  exact hne.symm

/-! ### LOOP_CMD (R209, R213) -/

theorem loopCmd_of_takesWrites {r l : Nat} (action : Nat) (hr : r < s.dies) (hl : l < 64) (hw : s.takesWrites = true) :
    s.loopCmd r l action = if action != 0 && s.clauseTouches r l then (dropHeld s).wr (rf r Rgn.LOOP_STAT_REFUSED) 1
      else (dropHeld s).modRgn r fun x => { x with loopReq := x.loopReq ++ [(l, action, s.ns / 2)] } := by
  have hplace : ¬ (s.dies ≤ r || 64 ≤ l) = true := by simp; omega
  rw [← clauseTouches_dropHeld]
  exact (if_neg hplace).trans (onWrite_of_takesWrites s _ hw)

theorem rf_lsb_ne (r : Nat) {f g : Fld} (h : f.lsb ≠ g.lsb) : (rf r f).lsb ≠ (rf r g).lsb := by
  simpa [rf, Fld.at] using h

/-- A write of LOOP_STAT.REFUSED changes no state of a loop. -/
theorem loopClosed_wr_refused (r l v : Nat) : (s.wr (rf r Rgn.LOOP_STAT_REFUSED) v).loopClosed r l = s.loopClosed r l := by
  simp only [State.loopClosed, rd_wr_other _ _ _ _ (rf_lsb_ne r (show Rgn.LOOP_STATE0_CLOSED.lsb ≠ Rgn.LOOP_STAT_REFUSED.lsb by decide)),
    rd_wr_other _ _ _ _ (rf_lsb_ne r (show Rgn.LOOP_STATE1_CLOSED.lsb ≠ Rgn.LOOP_STAT_REFUSED.lsb by decide))]

/-- What a refused close does (R213). -/
theorem loopClose_refused {r l action : Nat} (hr : r < s.dies) (hl : l < 64) (hw : s.takesWrites = true) (ha : action ≠ 0)
    (htouch : s.clauseTouches r l = true) :
    (s.loopCmd r l action).on (rf r Rgn.LOOP_STAT_REFUSED) = true ∧ ((s.loopCmd r l action).rgn r).loopReq = (s.rgn r).loopReq
      ∧ (s.loopCmd r l action).loopClosed r l = s.loopClosed r l ∧ SameMem s (s.loopCmd r l action) := by
  rw [loopCmd_of_takesWrites s action hr hl hw, if_pos (by simp [ha, htouch])]
  exact ⟨on_wr_one _ _ rfl, rfl, loopClosed_wr_refused _ r l 1, fun _ => ⟨rfl, rfl⟩⟩

/-- An OPEN waits for the next epoch, whatever Clause is armed (R209, R213). -/
theorem loopOpen_loopReq {r l : Nat} (hr : r < s.dies) (hl : l < 64) (hw : s.takesWrites = true) :
    ((s.loopCmd r l 0).rgn r).loopReq = (s.rgn r).loopReq ++ [(l, 0, s.ns / 2)] := by
  rw [loopCmd_of_takesWrites s 0 hr hl hw]
  exact congrArg RgnSt.loopReq (rgn_modRgn (dropHeld s) r _)

theorem loopOpen_regs {r l : Nat} (hr : r < s.dies) (hl : l < 64) (hw : s.takesWrites = true) : (s.loopCmd r l 0).regs = s.regs := by
  rw [loopCmd_of_takesWrites s 0 hr hl hw]
  rfl

/-! ### The epoch of an OPEN (R208, R209) -/

theorem testBit_clrBit (m i : Nat) : (clrBit m i).testBit i = false := by
  unfold clrBit
  split
  next hset =>
    have hodd : m / 2 ^ i % 2 = 1 := by simpa [Nat.testBit_eq_decide_div_mod_eq] using hset
    have hle : 2 ^ i ≤ m := Nat.ge_two_pow_of_testBit hset
    have hless : (m - 2 ^ i) / 2 ^ i = m / 2 ^ i - 1 := by simpa using Nat.sub_mul_div m (2 ^ i) 1
    rw [Nat.testBit_eq_decide_div_mod_eq, hless, decide_eq_false_iff_not]
    omega
  next hclear => simpa using hclear

/-- The field of LOOP_STATE that holds a loop's CLOSED bit (R209). -/
def loopField (r l : Nat) : Fld := if l < 32 then rf r Rgn.LOOP_STATE0_CLOSED else rf r Rgn.LOOP_STATE1_CLOSED

theorem loopField_width (r l : Nat) : (loopField r l).width = 32 := by
  unfold loopField
  split <;> rfl

theorem loopClosed_eq (r : Nat) {l : Nat} (hl : l < 64) : s.loopClosed r l = (s.rd (loopField r l)).testBit (l % 32) := by
  unfold State.loopClosed loopField
  split
  next hlow => rw [Nat.mod_eq_of_lt hlow]
  next hhigh => rw [show l - 32 = l % 32 by omega]

/-- A loop that is opened is OPEN. -/
theorem loopClosed_setLoop_open (r : Nat) {l : Nat} (hl : l < 64) : (s.setLoop r l false).loopClosed r l = false := by
  have hset : s.setLoop r l false = s.wr (loopField r l) (clrBit (s.rd (loopField r l)) (l % 32)) := rfl
  rw [loopClosed_eq _ r hl, hset, rd_wr, loopField_width, Nat.testBit_mod_two_pow, testBit_clrBit, Bool.and_false]

theorem dies_of_regs_eq {t : State} (h : t.regs = s.regs) : t.dies = s.dies := by
  rw [State.dies, State.rd, h]; rfl

theorem epochs_of_regs_eq {t : State} (h : t.regs = s.regs) : t.epochs = s.epochs := by
  rw [State.epochs, State.modeNo, State.rd, h]; rfl

/-- The state with an epoch of its own at nanosecond `n`. -/
def atEpoch (s : State) (n : Nat) : State := { s with time := { s.time with epochAt := n } }

/-- The only request of a region, where it is due at the epoch, takes effect there. -/
theorem loopClosed_loopApply {r l action n : Nat} (hr : r < s.dies) (hep : s.epochs = true) (hreq : (s.rgn r).loopReq = [(l, action, n)])
    (hdue : n < s.time.epochAt / 2) (k : Nat) : (s.loopApply r).loopClosed r k = (s.loopAct r l action).loopClosed r k := by
  have hacts : ¬ (s.dies ≤ r || !s.epochs) = true := by simp [hep]; omega
  unfold State.loopApply
  rw [if_neg hacts, hreq]
  have hlast : loopLast ([(l, action, n)].filter fun q => decide (q.2.2 < s.time.epochAt / 2)) = [(l, action)] := by
    simp [hdue, loopLast, fset]
  dsimp only
  rw [hlast]
  rfl

end

/-! ### The obligation -/

/-- Settles O60: a close of a loop whose words the armed Clause changes is refused, and an OPEN of it waits for the next epoch and applies there. -/
theorem clausedLoops : Obligations.ClausedLoops := by
  unfold Obligations.ClausedLoops
  intro s r l i k hr hl hw harmed hi hword hchange
  have htouch : s.clauseTouches r l = true := by
    refine clauseTouches_of_word_ne s harmed hi hword ?_
    rcases hchange with hne | ⟨ad, body, w, hitems, hmem, hne⟩
    · exact hne
    · rw [hitems, rgnWord_preview_param s hl hi hword hmem]; exact hne
  refine ⟨fun c hc => ?_, ⟨s.loopCmd r l 0, rfl, loopOpen_loopReq s hr hl hw, loopOpen_regs s hr hl hw⟩, fun t n ht hep hnone hdue => ?_⟩
  · rcases hc with rfl | rfl <;> exact ⟨_, rfl, loopClose_refused s hr hl hw (by decide) htouch⟩
  · obtain rfl : s.loopCmd r l 0 = t := by injection ht
    have hreq : ((s.loopCmd r l 0).rgn r).loopReq = [(l, 0, s.ns / 2)] := by
      rw [loopOpen_loopReq s hr hl hw, hnone, List.nil_append]
    have hregs : (atEpoch (s.loopCmd r l 0) n).regs = s.regs := loopOpen_regs s hr hl hw
    rw [← dies_of_regs_eq s hregs] at hr
    rw [← epochs_of_regs_eq s hregs] at hep
    exact ⟨_, rfl, (loopClosed_loopApply (atEpoch (s.loopCmd r l 0) n) hr hep hreq hdue l).trans (loopClosed_setLoop_open _ r hl)⟩

end Sys2Proof.Proofs
end
